-- ==== Sys2Proof/Word.lean ====
section
/-! DEFINITION. Sys2Proof/Word.lean: the word types of the device and their plainest arithmetic (R4, R5). -/

namespace Sys2Proof

abbrev Byte := BitVec 8
abbrev Half := BitVec 16
abbrev Word := BitVec 32
abbrev DWord := BitVec 64
/-- One vector register: 128 lanes of 16 bits, lane 0 in the low bits (R108). -/
abbrev Vec := BitVec 2048
/-- One predicate register: bit i for lane i (R126). -/
abbrev Pred := BitVec 128
/-- A physical slot p = 24 y + s (R16). -/
abbrev Slot := Fin 1536
/-- A yard y = 8 r + c (R14). -/
abbrev Yard := Fin 64
abbrev Ctl := Fin 4
abbrev Port := Fin 16
abbrev Lane := Fin 9
abbrev Bar := Fin 16
abbrev Gal := Fin 16
/-- A five-bit register field of an instruction word (R135). -/
abbrev R5 := Fin 32

/-- The one-bit word of a Bool. -/
def b2n (b : Bool) : Nat := if b then 1 else 0

/-- Saturating increment of a counter of `w` bits. -/
def satAdd (w : Nat) (x d : Nat) : Nat := min (x + d) (2 ^ w - 1)

/-- Ceiling of a division (0 when the divisor is 0). -/
def ceilDiv (a b : Nat) : Nat := if b = 0 then 0 else (a + b - 1) / b

end Sys2Proof
end

