-- ==== Sys2Proof/Syntax.lean ====
section
/-! DEFINITION. Sys2Proof/Syntax.lean: the commands the device takes, one constructor of `Instr` per row of
spec/opcode_table.json. Tile instructions are commands too: the tile's core fetches the instruction and the command is
what it decoded (R135, R136), with the guard of R128. Events that the spec lets the surroundings choose (a training
result, a temperature, the outcome of an ECC try, what another device answers) are operands. -/

namespace Sys2Proof

/-- Who issues a tile instruction and under which guard: slot, core, PG and PN (R128, R135). -/
structure Iss where
  slot : Slot
  core : Fin 4
  pg : Fin 8
  pn : Bool
deriving DecidableEq, Repr

/-- The immediate of a layout-I instruction: IMM8 of the short form or IMM32 of the long one (R135). -/
inductive Imm where
  | short (v : BitVec 8)
  | long (v : BitVec 32)
deriving DecidableEq, Repr

/-- The units of a VT beside its lanes (R112). -/
inductive VtUnit where
  | sfu | red | qnt
deriving DecidableEq, Repr

/-- The fields of a matrix instruction (R148). -/
structure MFields where
  arr : Fin 4
  bank : Bool
  bank2 : Bool
  grp : Fin 8
  grp2 : Fin 8
  gal : Fin 16
  ep : Fin 8
  fmt : Fin 16
  count : BitVec 8
  flag : Bool
  sa : R5
  sb : R5
deriving DecidableEq, Repr

/-- What another device answers to a remote access: an access error, or data with the stale mark of R313. A local access
takes its answer from the device's own state. -/
inductive Remote where
  | err
  | data (bytes : List Byte) (stale : Bool)
deriving DecidableEq, Repr

/-- A word in which errors have struck since it was last read: its byte address within the memory, and whether they are
beyond correction (R167). -/
structure Struck where
  addr : Nat
  double : Bool
deriving DecidableEq, Repr

/-- A beat requested at a case slice: master ID of R193, byte within the slice, and the 64 bytes of a write. -/
structure CaseReq where
  m : Fin 25
  addr : Nat
  wr : Option (List Byte)
deriving DecidableEq, Repr

/-- An access at a hold controller (R205); a read carries the STEP of its tile (R313). -/
inductive HoldOp where
  | read (addr n : Nat) (step : Word)
  | write (addr : Nat) (data : List Byte)
  | gadd (addr w : Nat) (v : DWord)
deriving DecidableEq, Repr

/-- How the checks of R209 and R210 turn out: the tries in order (false: the link-ECC check fails), link corrections,
and the controller's own check. -/
structure EccTries where
  tries : List Bool
  linkCe : Nat
  pathCe : Nat
  pathUe : Bool
deriving DecidableEq, Repr

/-- What the roots of the other devices of the job bring to a job-scope barrier (R247, R258): whether every one has
arrived, their flags reduced by OR and by AND, the step their CTs ask for, the OR of whether all digests agree (R307). -/
structure PeerArr where
  arrived : Bool
  orFlags : Word
  andFlags : Word
  step : Option Word
  andDigest : Word
  andNotDigest : Word
deriving DecidableEq, Repr

/-- One hop of a mesh packet (R236, R261): which packet of its virtual channel, how often its flits failed their CRC on the link it
takes, and whether the router meets an uncorrectable error in its buffers or tables. -/
structure HopIn where
  k : Nat
  retries : Nat
  ue : Bool
deriving DecidableEq, Repr

/-- A release count still short at the limit (R310): the press, the layer, and what other devices' tiles have brought. -/
structure RelLimit where
  ctl : Ctl
  layer : Nat
  peers : Nat
deriving DecidableEq, Repr

/-- The masters of control space (R6, R7, R132). -/
inductive Master where
  | tile (slot : Slot) (core : Fin 4)
  | host
  | remote (dev : BitVec 12)
  | bosun
deriving DecidableEq, Repr

/-- The accumulators that another device of the job brings to the combination of a layer (R305), by its shard position. -/
structure CombPeer where
  pos : Nat
  acc : List Word
  nf : Bool
deriving DecidableEq, Repr

/-- Where a host command came from (R381, R383). -/
inductive CmdSrc where
  | ring | mailbox
deriving DecidableEq, Repr

/-- The header of a host command (R388), and the ring index of its entry. -/
structure CmdHdr where
  src : CmdSrc
  idx : Nat
  noIrq : Bool
  tag : Word
deriving DecidableEq, Repr

/-- How the cryptographic checks of a command turn out (R408, R424, R425): the digest, the signature and the signer's
key, and the lengths of the host's data that only the parsed object would show. -/
structure Verdict where
  digestOk : Bool
  sigOk : Bool
deriving DecidableEq, Repr

/-- A host-port request (R380). -/
inductive HostReq where
  | read (addr n : Nat)
  | write (addr : Nat) (data : List Byte)
  | gadd (addr w : Nat) (v : DWord)
deriving DecidableEq, Repr

/-- What a training finds (R366): a peer, the failed lanes after its steps, worst-lane BERs that qualify for Trace and
for RS on both sides, the peer's identity and levels, and whether each step succeeded. -/
structure Training where
  signal : Bool
  eqFailed : BitVec 9
  berFailed : BitVec 9
  skewOk : Bool
  reply : Bool
  traceBer : Bool
  rsBer : Bool
  peerAllow : BitVec 2
  peerLevels : BitVec 16
  peerPos : BitVec 3
  peerSys : BitVec 12
  peerPort : BitVec 4
deriving DecidableEq, Repr

/-- A firmware image's header fields (R407) and its validity under R408 but for the SVN test. -/
structure FwImage where
  version : Word
  svn : Half
  feature : Byte
  proofLevel : Byte
  linkLevels : Half
  bodyBytes : Word
  sound : Bool
  bodyDigest : BitVec 512
deriving DecidableEq, Repr

/-- How the steps of the boot turn out (R412, R414, R415). -/
structure BootIn where
  pos : BitVec 3
  manifestOk : Bool
  steppingOk : Bool
  tornAppend : Bool
  keysOk : Bool
  railsOk : Bool
  boundsOk : Bool
  treeOk : Bool
  quoinOk : Bool
  chanOk : BitVec 64
  testFails : List Nat
  ports : List Training
  hostUp : Bool
  ms : Word
deriving DecidableEq, Repr

/-- What the tests and substitutions of a job boundary find (R442): the units that fail, the hold addresses whose pages
fail, and per substitution whether the spare passes. -/
structure ClearOut where
  testFails : List Nat
  spareOk : List Bool
  pages : List Nat
deriving DecidableEq, Repr

/-- The commands. -/
inductive Instr where
  | add (h : Iss) (d a b : R5)  -- ADD (R139)
  | sub (h : Iss) (d a b : R5)  -- SUB (R139)
  | and (h : Iss) (d a b : R5)  -- AND (R139)
  | or (h : Iss) (d a b : R5)  -- OR (R139)
  | xor (h : Iss) (d a b : R5)  -- XOR (R139)
  | shl (h : Iss) (d a b : R5)  -- SHL (R139)
  | shr (h : Iss) (d a b : R5)  -- SHR (R139)
  | sra (h : Iss) (d a b : R5)  -- SRA (R139)
  | mul (h : Iss) (d a b : R5)  -- MUL (R139)
  | mulhu (h : Iss) (d a b : R5)  -- MULHU (R139)
  | min (h : Iss) (d a b : R5)  -- MIN (R139)
  | max (h : Iss) (d a b : R5)  -- MAX (R139)
  | minu (h : Iss) (d a b : R5)  -- MINU (R139)
  | maxu (h : Iss) (d a b : R5)  -- MAXU (R139)
  | cmpeq (h : Iss) (d a b : R5)  -- CMPEQ (R139)
  | cmpne (h : Iss) (d a b : R5)  -- CMPNE (R139)
  | cmplt (h : Iss) (d a b : R5)  -- CMPLT (R139)
  | cmple (h : Iss) (d a b : R5)  -- CMPLE (R139)
  | cmpltu (h : Iss) (d a b : R5)  -- CMPLTU (R139)
  | cmpleu (h : Iss) (d a b : R5)  -- CMPLEU (R139)
  | addi (h : Iss) (d a : R5) (imm : Imm)  -- ADDI (R139)
  | andi (h : Iss) (d a : R5) (imm : Imm)  -- ANDI (R139)
  | ori (h : Iss) (d a : R5) (imm : Imm)  -- ORI (R139)
  | xori (h : Iss) (d a : R5) (imm : Imm)  -- XORI (R139)
  | shli (h : Iss) (d a : R5) (imm : Imm)  -- SHLI (R139)
  | shri (h : Iss) (d a : R5) (imm : Imm)  -- SHRI (R139)
  | srai (h : Iss) (d a : R5) (imm : Imm)  -- SRAI (R139)
  | movh (h : Iss) (d a : R5) (imm : Imm)  -- MOVH (R139)
  | cmpeqi (h : Iss) (d a : R5) (imm : Imm)  -- CMPEQI (R139)
  | cmpnei (h : Iss) (d a : R5) (imm : Imm)  -- CMPNEI (R139)
  | cmplti (h : Iss) (d a : R5) (imm : Imm)  -- CMPLTI (R139)
  | cmpltui (h : Iss) (d a : R5) (imm : Imm)  -- CMPLTUI (R139)
  | bra (h : Iss) (off : BitVec 22)  -- BRA (R138)
  | call (h : Iss) (off : BitVec 22)  -- CALL (R138)
  | jr (h : Iss) (a : R5)  -- JR (R138)
  | nopInstruction (h : Iss)  -- NOP_INSTRUCTION (R140)
  | halt (h : Iss)  -- HALT (R140)
  | fence (h : Iss)  -- FENCE (R140)
  | srd (h : Iss) (d n : R5)  -- SRD (R129)
  | pand (h : Iss) (d a b : R5)  -- PAND (R140)
  | por (h : Iss) (d a b : R5)  -- POR (R140)
  | pxor (h : Iss) (d a b : R5)  -- PXOR (R140)
  | pnot (h : Iss) (d a : R5)  -- PNOT (R140)
  | pany (h : Iss) (d a : R5)  -- PANY (R140)
  | pall (h : Iss) (d a : R5)  -- PALL (R140)
  | ldU8 (h : Iss) (d a : R5) (imm : Imm)  -- LD_U8 (R141)
  | ldS8 (h : Iss) (d a : R5) (imm : Imm)  -- LD_S8 (R141)
  | ldU16 (h : Iss) (d a : R5) (imm : Imm)  -- LD_U16 (R141)
  | ldS16 (h : Iss) (d a : R5) (imm : Imm)  -- LD_S16 (R141)
  | ldU32 (h : Iss) (d a : R5) (imm : Imm)  -- LD_U32 (R141)
  | ldS32 (h : Iss) (d a : R5) (imm : Imm)  -- LD_S32 (R141)
  | ld64 (h : Iss) (d a : R5) (imm : Imm)  -- LD_64 (R141)
  | st8 (h : Iss) (d a : R5) (imm : Imm)  -- ST_8 (R141)
  | st16 (h : Iss) (d a : R5) (imm : Imm)  -- ST_16 (R141)
  | st32 (h : Iss) (d a : R5) (imm : Imm)  -- ST_32 (R141)
  | st64 (h : Iss) (d a : R5) (imm : Imm)  -- ST_64 (R141)
  | lxadd32 (h : Iss) (d a : R5) (imm : Imm)  -- LXADD_32 (R141)
  | lxadd64 (h : Iss) (d a : R5) (imm : Imm)  -- LXADD_64 (R141)
  | ldg32 (h : Iss) (d a : R5)  -- LDG_32 (R142)
  | ldg64 (h : Iss) (d a : R5)  -- LDG_64 (R142)
  | stg32 (h : Iss) (a b : R5)  -- STG_32 (R142)
  | stg64 (h : Iss) (a b : R5)  -- STG_64 (R142)
  | gadd32 (h : Iss) (d a b : R5)  -- GADD_32 (R142)
  | gadd64 (h : Iss) (d a b : R5)  -- GADD_64 (R142)
  | vldg (h : Iss) (d a : R5)  -- VLDG (R142)
  | vstg (h : Iss) (d a : R5)  -- VSTG (R142)
  | vadd (h : Iss) (d a b : R5) (lf rnd : Fin 4) (hi : Option Word)  -- VADD (R143)
  | vsub (h : Iss) (d a b : R5) (lf rnd : Fin 4) (hi : Option Word)  -- VSUB (R143)
  | vmul (h : Iss) (d a b : R5) (lf rnd : Fin 4) (hi : Option Word)  -- VMUL (R143)
  | vfma (h : Iss) (d a b : R5) (lf rnd : Fin 4) (hi : Option Word)  -- VFMA (R143)
  | vmin (h : Iss) (d a b : R5) (lf rnd : Fin 4) (hi : Option Word)  -- VMIN (R143)
  | vmax (h : Iss) (d a b : R5) (lf rnd : Fin 4) (hi : Option Word)  -- VMAX (R143)
  | vabs (h : Iss) (d a : R5) (lf rnd : Fin 4) (hi : Option Word)  -- VABS (R143)
  | vneg (h : Iss) (d a : R5) (lf rnd : Fin 4) (hi : Option Word)  -- VNEG (R143)
  | vcmpeq (h : Iss) (d a b : R5) (lf : Fin 4)  -- VCMPEQ (R144)
  | vcmpne (h : Iss) (d a b : R5) (lf : Fin 4)  -- VCMPNE (R144)
  | vcmplt (h : Iss) (d a b : R5) (lf : Fin 4)  -- VCMPLT (R144)
  | vcmple (h : Iss) (d a b : R5) (lf : Fin 4)  -- VCMPLE (R144)
  | vcmpun (h : Iss) (d a b : R5) (lf : Fin 4)  -- VCMPUN (R144)
  | vsel (h : Iss) (d a b : R5) (lf : Fin 4)  -- VSEL (R144)
  | vmov (h : Iss) (d a : R5) (lf : Fin 4)  -- VMOV (R144)
  | vbcast (h : Iss) (d a : R5) (lf : Fin 4)  -- VBCAST (R144)
  | vext (h : Iss) (d a b : R5) (lf : Fin 4)  -- VEXT (R144)
  | vins (h : Iss) (d a b : R5) (lf : Fin 4)  -- VINS (R144)
  | vidx (h : Iss) (d a : R5) (lf : Fin 4)  -- VIDX (R144)
  | vcvt (h : Iss) (d a : R5) (hi : Word)  -- VCVT (R145)
  | vquoin (h : Iss) (d a : R5) (hi : Word)  -- VQUOIN (R145)
  | vld16 (h : Iss) (d a : R5) (imm : Imm)  -- VLD_16 (R146)
  | vld8 (h : Iss) (d a : R5) (imm : Imm)  -- VLD_8 (R146)
  | vld4 (h : Iss) (d a : R5) (imm : Imm)  -- VLD_4 (R146)
  | vldW (h : Iss) (d a : R5) (imm : Imm)  -- VLD_W (R146)
  | vst16 (h : Iss) (d a : R5) (imm : Imm)  -- VST_16 (R146)
  | vst8 (h : Iss) (d a : R5) (imm : Imm)  -- VST_8 (R146)
  | vst4 (h : Iss) (d a : R5) (imm : Imm)  -- VST_4 (R146)
  | vstW (h : Iss) (d a : R5) (imm : Imm)  -- VST_W (R146)
  | vrcp (h : Iss) (d a : R5) (bin16 : Bool)  -- VRCP (R113)
  | vrsqrt (h : Iss) (d a : R5) (bin16 : Bool)  -- VRSQRT (R113)
  | vexp (h : Iss) (d a : R5) (bin16 : Bool)  -- VEXP (R113)
  | vexp2 (h : Iss) (d a : R5) (bin16 : Bool)  -- VEXP2 (R113)
  | vlog (h : Iss) (d a : R5) (bin16 : Bool)  -- VLOG (R113)
  | vlog2 (h : Iss) (d a : R5) (bin16 : Bool)  -- VLOG2 (R113)
  | vsigm (h : Iss) (d a : R5) (bin16 : Bool)  -- VSIGM (R113)
  | vtanh (h : Iss) (d a : R5) (bin16 : Bool)  -- VTANH (R113)
  | vsilu (h : Iss) (d a : R5) (bin16 : Bool)  -- VSILU (R113)
  | verf (h : Iss) (d a : R5) (bin16 : Bool)  -- VERF (R113)
  | vredSum (h : Iss) (d a b : R5) (vec bin16 : Bool)  -- VRED_SUM (R114)
  | vredSumsq (h : Iss) (d a b : R5) (vec bin16 : Bool)  -- VRED_SUMSQ (R114)
  | vredMin (h : Iss) (d a b : R5) (vec bin16 : Bool)  -- VRED_MIN (R114)
  | vredMax (h : Iss) (d a b : R5) (vec bin16 : Bool)  -- VRED_MAX (R114)
  | vredAmax (h : Iss) (d a b : R5) (vec bin16 : Bool)  -- VRED_AMAX (R114)
  | qrow (h : Iss) (a b : R5) (hi : Word)  -- QROW (R115)
  | qmerge (h : Iss) (a b : R5) (hi : Word)  -- QMERGE (R115)
  | vtUnitResult (slot : Slot) (u : VtUnit)  -- VT_UNIT_RESULT (R112)
  | mload (h : Iss) (f : MFields)  -- MLOAD (R102)
  | mopen (h : Iss) (f : MFields)  -- MOPEN (R87)
  | mstream (h : Iss) (f : MFields)  -- MSTREAM (R102)
  | mpair (h : Iss) (f : MFields)  -- MPAIR (R84)
  | mclose (h : Iss) (f : MFields)  -- MCLOSE (R97)
  | mdrop (h : Iss) (f : MFields)  -- MDROP (R87)
  | mepl (h : Iss) (f : MFields)  -- MEPL (R93)
  | mwait (h : Iss) (f : MFields)  -- MWAIT (R102)
  | matrixOpStart (slot : Slot) (k : Nat)  -- MATRIX_OP_START (R102)
  | matrixOpComplete (slot : Slot) (k : Nat)  -- MATRIX_OP_COMPLETE (R102)
  | gset (h : Iss) (a g : R5)  -- GSET (R181)
  | gacq (h : Iss) (d g : R5)  -- GACQ (R149)
  | gacqNb (h : Iss) (d g : R5)  -- GACQ_NB (R149)
  | grel (h : Iss) (g : R5)  -- GREL (R182)
  | gres (h : Iss) (d g : R5)  -- GRES (R149)
  | gresNb (h : Iss) (d g : R5)  -- GRES_NB (R149)
  | gcom (h : Iss) (g : R5)  -- GCOM (R182)
  | gstat (h : Iss) (d g : R5)  -- GSTAT (R149)
  | galleyStallLimit (slot : Slot) (g : Gal) (consumer : Bool)  -- GALLEY_STALL_LIMIT (R187)
  | stake (h : Iss) (d : R5)  -- STAKE (R273)
  | stakeW (h : Iss) (d : R5)  -- STAKE_W (R273)
  | stakeWPoll (slot : Slot) (core : Fin 4)  -- STAKE_W_POLL (R274)
  | stakeWLimit (slot : Slot) (core : Fin 4)  -- STAKE_W_LIMIT (R279)
  | sdone (h : Iss) (a : R5)  -- SDONE (R277)
  | spost (h : Iss) (a : R5)  -- SPOST (R271)
  | sctlOpen (h : Iss)  -- SCTL_OPEN (R269)
  | sctlClose (h : Iss)  -- SCTL_CLOSE (R269)
  | sctlDrain (h : Iss)  -- SCTL_DRAIN (R269)
  | taskLanding (slot : Slot)  -- TASK_LANDING (R275)
  | channelRequestIssue (y : Yard) (ch : Fin 32) (n : Nat) (r : Remote)  -- CHANNEL_REQUEST_ISSUE (R276)
  | taskComplete (y : Yard) (ch : Fin 32)  -- TASK_COMPLETE (R277)
  | dpost (h : Iss) (a e : R5)  -- DPOST (R121)
  | dwait (h : Iss) (a e : R5)  -- DWAIT (R151)
  | dstat (h : Iss) (d e : R5)  -- DSTAT (R151)
  | descRequestIssue (slot : Slot) (e : Fin 4)  -- DESC_REQUEST_ISSUE (R219)
  | descRequestComplete (slot : Slot) (e : Fin 4) (k : Nat) (r : Remote)  -- DESC_REQUEST_COMPLETE (R219)
  | hbar (h : Iss) (b : R5)  -- HBAR (R153)
  | hwait (h : Iss) (b : R5)  -- HWAIT (R152)
  | hsync (h : Iss) (b : R5)  -- HSYNC (R152)
  | hflagSet (h : Iss) (a : R5)  -- HFLAG_SET (R152)
  | hflagClr (h : Iss) (a : R5)  -- HFLAG_CLR (R152)
  | hbc (h : Iss) (a : R5)  -- HBC (R254)
  | hrx (h : Iss) (d : R5)  -- HRX (R152)
  | hdec (h : Iss) (d a : R5)  -- HDEC (R152)
  | hrel (h : Iss) (a : R5)  -- HREL (R250)
  | hwcr (h : Iss) (a : R5)  -- HWCR (R255)
  | xgo (h : Iss) (a : R5)  -- XGO (R155)
  | xwait (h : Iss)  -- XWAIT (R155)
  | xstat (h : Iss) (d : R5)  -- XSTAT (R155)
  | brk (h : Iss)  -- BRK (R156)
  | dmark (h : Iss) (a : R5)  -- DMARK (R156)
  | issueResume (slot : Slot) (core : Fin 4)  -- ISSUE_RESUME (R134)
  | globalLoadResponse (slot : Slot) (core : Fin 4) (k : Nat) (r : Remote)  -- GLOBAL_LOAD_RESPONSE (R142)
  | postedWriteAck (slot : Slot) (core : Fin 4) (k : Nat) (r : Remote)  -- POSTED_WRITE_ACK (R142)
  | storeEccWriteback (slot : Slot) (word : Nat)  -- STORE_ECC_WRITEBACK (R168)
  | storeScrub (slot : Slot) (line : Nat) (struck : List Struck) (lastOfPass : Bool)  -- STORE_SCRUB (R170)
  | caseSliceBeat (y : Yard) (slice : Fin 32) (reqs : List CaseReq)  -- CASE_SLICE_BEAT (R193)
  | caseEccWriteback (y : Yard) (word : Nat)  -- CASE_ECC_WRITEBACK (R196)
  | caseScrub (y : Yard) (slice : Fin 32) (line : Nat) (struck : List Struck) (lastOfPass : Bool)  -- CASE_SCRUB (R196)
  | holdRequest (c : Ctl) (press : Bool) (path : Fin 8) (op : HoldOp)  -- HOLD_REQUEST (R206)
  | holdReadComplete (c : Ctl) (k : Nat) (t : EccTries)  -- HOLD_READ_COMPLETE (R210)
  | holdWriteComplete (c : Ctl) (k : Nat) (t : EccTries)  -- HOLD_WRITE_COMPLETE (R207)
  | holdPatrol (c : Ctl) (burst : Nat) (t : EccTries)  -- HOLD_PATROL (R212)
  | perBankRefresh (c : Ctl) (ch : Fin 16) (bank : Fin 16)  -- PER_BANK_REFRESH (R204)
  | rfm (c : Ctl) (ch : Fin 16)  -- RFM (R213)
  | oscillatorTracking (c : Ctl) (ch : Fin 16)  -- OSCILLATOR_TRACKING (R204)
  | phaseStart (slot : Slot)  -- PHASE_START (R230)
  | exchCreditArrive (slot : Slot) (e : Nat) (n : Nat)  -- EXCH_CREDIT_ARRIVE (R231)
  | exchUnitSend (slot : Slot) (e : Nat)  -- EXCH_UNIT_SEND (R231)
  | exchUnitCommit (slot : Slot) (e : Nat) (r : Remote)  -- EXCH_UNIT_COMMIT (R232)
  | phaseLimit (slot : Slot)  -- PHASE_LIMIT (R233)
  | routerHop (y : Yard) (vc : Fin 3) (k : HopIn)  -- ROUTER_HOP (R236)
  | routerCreditSilence (y : Yard)  -- ROUTER_CREDIT_SILENCE (R261)
  | reductionChunkArrive (k : Nat)  -- REDUCTION_CHUNK_ARRIVE (R241)
  | barrierRelease (y : Yard) (b : Bar) (peers : PeerArr)  -- BARRIER_RELEASE (R247)
  | releaseBarrierRelease (peers : PeerArr)  -- RELEASE_BARRIER_RELEASE (R250)
  | decisionBarrierRelease (peers : PeerArr)  -- DECISION_BARRIER_RELEASE (R251)
  | commitBarrierRelease (peers : PeerArr)  -- COMMIT_BARRIER_RELEASE (R252)
  | halyardFrame (node : Fin 80) (crcOk again : Bool)  -- HALYARD_FRAME (R257)
  | halyardStallLimit (slot : Slot) (core : Fin 4)  -- HALYARD_STALL_LIMIT (R256)
  | broadcastDeliver  -- BROADCAST_DELIVER (R254)
  | faultNotice  -- FAULT_NOTICE (R433)
  | abortFromPeer (block kind : Byte) (inst : BitVec 12)  -- ABORT_FROM_PEER (R433)
  | replayRestore  -- REPLAY_RESTORE (R435)
  | yardSqWaveOpen (m : Master) (y : Yard) (v : Word)  -- YARD_SQ_WAVE_OPEN (R287)
  | tileBankNext (m : Master) (slot : Slot) (v : Word)  -- TILE_BANK_NEXT (R177)
  | yardSliceArm (m : Master) (y : Yard) (v : Word)  -- YARD_SLICE_ARM (R198)
  | pairLoRead (m : Master) (off : Nat)  -- PAIR_LO_READ (R7)
  | pairHiRead (m : Master) (off : Nat)  -- PAIR_HI_READ (R7)
  | pairHiWrite (m : Master) (off : Nat) (v : Word)  -- PAIR_HI_WRITE (R7)
  | pairLoWrite (m : Master) (off : Nat) (v : Word)  -- PAIR_LO_WRITE (R7)
  | dbgdataRead (m : Master) (slot : Slot)  -- DBGDATA_READ (R92)
  | registerWrite (m : Master) (off : Nat) (v : Word)  -- REGISTER_WRITE (R8)
  | pressReady (m : Master) (v : Word)  -- PRESS_READY (R303)
  | passALayerStart (c : Ctl)  -- PASS_A_LAYER_START (R304)
  | passALayerEnd (c : Ctl)  -- PASS_A_LAYER_END (R305)
  | combinationReturn (layer : Nat) (peers : List CombPeer)  -- COMBINATION_RETURN (R306)
  | stepSizePush (m : Master) (v : Word)  -- STEP_SIZE_PUSH (R308)
  | stepSizeLatch  -- STEP_SIZE_LATCH (R308)
  | stepSizeTimeout  -- STEP_SIZE_TIMEOUT (R308)
  | pressDecisionArrival (c : Ctl)  -- PRESS_DECISION_ARRIVAL (R309)
  | passBLayerStart (c : Ctl) (peers : Nat)  -- PASS_B_LAYER_START (R310)
  | mirrorSpoilAck  -- MIRROR_SPOIL_ACK (R335)
  | releaseCountLimit (c : RelLimit)  -- RELEASE_COUNT_LIMIT (R310)
  | channelRegen (layer : Nat) (ch : Nat)  -- CHANNEL_REGEN (R312)
  | passBLayerEnd (c : Ctl)  -- PASS_B_LAYER_END (R311)
  | pressCopyIn (m : Master) (v : Word)  -- PRESS_COPY_IN (R314)
  | pressCommitWork (c : Ctl)  -- PRESS_COMMIT_WORK (R316)
  | recordAck (t : EccTries)  -- RECORD_ACK (R327)
  | recordedNotice (dev : BitVec 12) (step : Word)  -- RECORDED_NOTICE (R327)
  | mirrorCtlOpen (m : Master)  -- MIRROR_CTL_OPEN (R333)
  | mirrorCtlClose (m : Master)  -- MIRROR_CTL_CLOSE (R333)
  | mirrorHeadOpening (burst : List Byte)  -- MIRROR_HEAD_OPENING (R334)
  | mirrorHeadComplete (burst : List Byte)  -- MIRROR_HEAD_COMPLETE (R334)
  | mirrorHeadSpoiled (burst : List Byte)  -- MIRROR_HEAD_SPOILED (R334)
  | mirrorImageWrite (off : Nat) (data : List Byte)  -- MIRROR_IMAGE_WRITE (R334)
  | mirrorRestoreComplete (rec hdr : List Byte)  -- MIRROR_RESTORE_COMPLETE (R337)
  | flitSend (n : Port)  -- FLIT_SEND (R358)
  | flitReceive (n : Port) (flit : List Byte) (fecOk : Bool) (announce : Option (BitVec 12))  -- FLIT_RECEIVE (R360)
  | compactAckRelease (n : Port) (pool : Fin 5)  -- COMPACT_ACK_RELEASE (R355)
  | creditReturn (n : Port)  -- CREDIT_RETURN (R357)
  | fullTraining (n : Port) (t : Training)  -- FULL_TRAINING (R366)
  | fastRetrain (n : Port) (t : Training)  -- FAST_RETRAIN (R366)
  | signalDetectRetry (n : Port)  -- SIGNAL_DETECT_RETRY (R366)
  | capabilityTimeout (n : Port)  -- CAPABILITY_TIMEOUT (R366)
  | lnkRetrain (m : Master) (n : Port)  -- LNK_RETRAIN (R366)
  | lnkWide (m : Master) (n : Port) (v : Word)  -- LNK_WIDE (R374)
  | lnkCfgEnable (m : Master) (n : Port) (v : Word)  -- LNK_CFG_ENABLE (R489)
  | calibrationLane (n : Port) (eyeMv eyeUi : Byte) (ce : Half)  -- CALIBRATION_LANE (R369)
  | hitlessSwap (n : Port) (lane : Lane) (found : Bool)  -- HITLESS_SWAP (R370)
  | swapRetry (n : Port) (found : Bool)  -- SWAP_RETRY (R370)
  | laneErrorWindow (n : Port) (lane : Lane) (eyeMv : Byte) (ce : Half)  -- LANE_ERROR_WINDOW (R371)
  | lossOfLock (n : Port) (lane : Lane)  -- LOSS_OF_LOCK (R372)
  | hostPortRequest (q : HostReq)  -- HOST_PORT_REQUEST (R380)
  | doorbell (m : Master) (v : Word)  -- DOORBELL (R382)
  | ringCommandDispatch (v : Verdict)  -- RING_COMMAND_DISPATCH (R384)
  | bosMbGo (m : Master)  -- BOS_MB_GO (R383)
  | commandComplete (v : Verdict)  -- COMMAND_COMPLETE (R389)
  | cplPush (m : Master)  -- CPL_PUSH (R385)
  | cplRingFullTimeout  -- CPL_RING_FULL_TIMEOUT (R385)
  | hstHb (m : Master) (v : Word)  -- HST_HB (R387)
  | heartbeatWindow  -- HEARTBEAT_WINDOW (R387)
  | deviceHeartbeat  -- DEVICE_HEARTBEAT (R387)
  | irqHoldoffEnd (v : Fin 4)  -- IRQ_HOLDOFF_END (R386)
  | nop (q : CmdHdr)  -- NOP (R390)
  | status (q : CmdHdr)  -- STATUS (R390)
  | load (q : CmdHdr) (addr bytes : DWord) (token : BitVec 256) (retain : Bool) (v : Verdict)  -- LOAD (R394)
  | pendingLoadStart (v : Verdict)  -- PENDING_LOAD_START (R400)
  | start (q : CmdHdr) (step : Word) (source : Byte) (v : Verdict)  -- START (R395)
  | endJob (q : CmdHdr) (last : Word)  -- END (R397)
  | endEvent (last : Word)  -- END_EVENT (R397)
  | kill (q : CmdHdr)  -- KILL (R398)
  | killNotice (dev : BitVec 12)  -- KILL_NOTICE (R398)
  | resume (q : CmdHdr)  -- RESUME (R403)
  | heldEvent (dev : BitVec 12) (step : Word)  -- HELD_EVENT (R402)
  | resumeEvent  -- RESUME_EVENT (R403)
  | hostmsg (q : CmdHdr) (body : List Byte)  -- HOSTMSG (R392)
  | proofQuery (q : CmdHdr)  -- PROOF_QUERY (R390)
  | proofExport (q : CmdHdr) (addr : DWord) (token : BitVec 256)  -- PROOF_EXPORT (R341)
  | clearsComplete (o : ClearOut)  -- CLEARS_COMPLETE (R442)
  | holdRepairComplete (c : Ctl)  -- HOLD_REPAIR_COMPLETE (R214)
  | fwInfo (q : CmdHdr)  -- FW_INFO (R421)
  | fwWrite (q : CmdHdr) (buf : DWord) (off bytes : Word)  -- FW_WRITE (R421)
  | fwVerify (q : CmdHdr) (v : Verdict)  -- FW_VERIFY (R421)
  | fwActivate (q : CmdHdr) (raise : Bool) (v : Verdict)  -- FW_ACTIVATE (R422)
  | warmReset (q : CmdHdr)  -- WARM_RESET (R421)
  | manifestRead (q : CmdHdr) (buf : DWord) (bytes : Word)  -- MANIFEST_READ (R421)
  | spdm (q : CmdHdr) (req : DWord) (bytes : Word) (resp : DWord)  -- SPDM (R419)
  | ownerEnrol (q : CmdHdr) (buf : DWord) (v : Verdict)  -- OWNER_ENROL (R423)
  | ownerRelease (q : CmdHdr) (buf : DWord) (v : Verdict)  -- OWNER_RELEASE (R423)
  | debugNonce (q : CmdHdr) (buf : DWord)  -- DEBUG_NONCE (R421)
  | debugOpen (q : CmdHdr) (buf : DWord) (v : Verdict)  -- DEBUG_OPEN (R426)
  | debugClose (q : CmdHdr)  -- DEBUG_CLOSE (R428)
  | selftest (q : CmdHdr) (scope index : Byte)  -- SELFTEST (R450)
  | selftestComplete (fails pages : List Nat)  -- SELFTEST_COMPLETE (R450)
  | selftestStatus (q : CmdHdr)  -- SELFTEST_STATUS (R454)
  | logInfo (q : CmdHdr)  -- LOG_INFO (R454)
  | logRead (q : CmdHdr) (buf : DWord) (first : DWord) (n : Word)  -- LOG_READ (R454)
  | replaceStatus (q : CmdHdr)  -- REPLACE_STATUS (R454)
  | ageRead (q : CmdHdr) (buf : DWord)  -- AGE_READ (R454)
  | spareTestRound  -- SPARE_TEST_ROUND (R451)
  | spareTestEnd (y : Yard) (pass : Bool)  -- SPARE_TEST_END (R451)
  | ageingSample (slack : List (BitVec 8))  -- AGEING_SAMPLE (R444)
  | getVersion (req : List Byte)  -- GET_VERSION (R419)
  | getCapabilities (req : List Byte)  -- GET_CAPABILITIES (R419)
  | negotiateAlgorithms (req : List Byte)  -- NEGOTIATE_ALGORITHMS (R419)
  | getDigests (req : List Byte)  -- GET_DIGESTS (R419)
  | getCertificate (req : List Byte)  -- GET_CERTIFICATE (R419)
  | challenge (req : List Byte)  -- CHALLENGE (R419)
  | getMeasurements (req : List Byte)  -- GET_MEASUREMENTS (R420)
  | pldmStateSensorRead  -- PLDM_STATE_SENSOR_READ (R449)
  | pldmFirmwareUpdate (img : FwImage) (b : BootIn)  -- PLDM_FIRMWARE_UPDATE (R409)
  | rstNDeassert (b : BootIn)  -- RST_N_DEASSERT (R414)
  | rstNAssert  -- RST_N_ASSERT (R483)
  | vauxFall  -- VAUX_FALL (R431)
  | pwrGoodDeassert (inSelfRefresh : Bool)  -- PWR_GOOD_DEASSERT (R464)
  | vinCoreWarning (mv : BitVec 12)  -- VIN_CORE_WARNING (R461)
  | dipDebounce  -- DIP_DEBOUNCE (R462)
  | vinCoreRecovery (mv : BitVec 12)  -- VIN_CORE_RECOVERY (R462)
  | supplyHoldEnd  -- SUPPLY_HOLD_END (R462)
  | vinCoreResetTrip (inSelfRefresh : Bool)  -- VIN_CORE_RESET_TRIP (R464)
  | brownoutRecovery (b : BootIn)  -- BROWNOUT_RECOVERY (R464)
  | droopDetect (island : Fin 76)  -- DROOP_DETECT (R461)
  | droopClear (island : Fin 76)  -- DROOP_CLEAR (R461)
  | refclkLoss  -- REFCLK_LOSS (R468)
  | refclkHoldoverEnd  -- REFCLK_HOLDOVER_END (R468)
  | tpulseEdge  -- TPULSE_EDGE (R469)
  | alignTb (m : Master) (v : Word)  -- ALIGN (R469)
  | powerSample (w : BitVec 10) (mv : BitVec 12) (amps : BitVec 10)  -- POWER_SAMPLE (R470)
  | powerEvaluate  -- POWER_EVALUATE (R470)
  | pwrLimit (m : Master) (v : Word)  -- PWR_LIMIT (R471)
  | pwrThermCfg (m : Master) (v : Word)  -- PWR_THERM_CFG (R473)
  | thermalSample (t : List (BitVec 8))  -- THERMAL_SAMPLE (R473)
  | thermalRequestDrop  -- THERMAL_REQUEST_DROP (R473)
  | thermalTrip (sensor : Fin 96) (temp : BitVec 8)  -- THERMAL_TRIP (R474)
  | tapReset  -- TAP_RESET (R485)
  | bypass  -- BYPASS (R485)
  | extestPulse (drive : Nat)  -- EXTEST_PULSE (R485)
  | extestTrain (drive : Nat)  -- EXTEST_TRAIN (R485)
  | tapPrivateInstruction (code : Nat)  -- TAP_PRIVATE_INSTRUCTION (R429)
  | vauxRise  -- VAUX_RISE (R459)
  | vinCoreRemoved  -- VIN_CORE_REMOVED (R474)
  | refclkReturn  -- REFCLK_RETURN (R468)
  | nonceExpiry  -- NONCE_EXPIRY (R425)
  | extest (drive : Nat)  -- EXTEST (R485)
  | samplePreload (drive : Nat)  -- SAMPLE_PRELOAD (R485)
deriving DecidableEq, Repr

end Sys2Proof
end

