-- ==== Sys2Proof/Config.lean ====
section
/-! DEFINITION. Sys2Proof/Config.lean: what the spec leaves to the implementation, to other standards or open. Every constant
is opaque: nothing can evaluate it or prove a value of it, so a statement holds whatever it is. -/

namespace Sys2Proof

/-- SHA-512 of FIPS 180-4, a standard the spec only names (R405, R326, log entry 10). -/
opaque Config.sha512 : List Byte → BitVec 512
/-- Which of the encodings within its error bound a special function (0 to 31), an activation (32 to 63) or prsqrt (64) gives
for an input: R94, R113 and R298 bound these results and do not fix them (log entry 11). -/
opaque Config.ulpPick : Nat → Nat → Nat
/-- The special results that R113 does not state, of rsqrt of -0 and the logarithms of +infinity: function number, format,
input bits (log entry 11). -/
opaque Config.sfu : Nat → Bool → Half → Half
/-- Whether such a result, where it is ±max finite, was saturated (R53, R113, log entry 11). -/
opaque Config.sfuSat : Nat → Bool → Half → Bool
/-- The sign of the maximum an accumulator takes when products of both signs have an infinite operand: R52 does not say;
by the accumulator's old value (log entry 22). -/
opaque Config.mixedInf : Word → Bool
/-- The activations 0x2 to 0x6 of an infinity or NaN, which R94 does not state (log entry 11). -/
opaque Config.act : Nat → Word → Word
/-- A fresh value of a quantity whose number the spec does not fix (log entry 4). -/
opaque Config.free : Nat → DWord
/-- The calibration of an island in the factory manifest (R445, TYPE 0x0003): slack target, guard and gain in ps, voltage
limits, base and always-on voltages in mV (log entry 12). -/
opaque Config.ageTarget : Nat → Nat
opaque Config.ageGuard : Nat → Nat
opaque Config.ageSens : Nat → Nat
opaque Config.vFloor : Nat → Nat
opaque Config.vCeil : Nat → Nat
opaque Config.vBase : Nat → Nat
/-- Spare rows that the factory leaves in a bank of the hold (R215, TYPE 0x0008). -/
opaque Config.spareRows : Nat → Nat
/-- The six certificates, the responses of the SPDM 1.2 standard to a request, and the device's statement over a nonce:
layouts of other standards (R419, log entry 13). The list holds the measurements of R420. -/
opaque Config.spdmResponse : List Byte → List (List Byte) → List Byte
opaque Config.nonceStatement : BitVec 128 → List Byte
/-- The six die identifiers of the part identity (R411, R420). -/
opaque Config.dieIds : List Byte
/-- Whether the scale entries of a proof level other than the device's own carry the ring in a layout that it knows (R71, R343;
log entry 113). -/
opaque Config.scaleLayout : Nat → Bool
/-- The bytes of the manifest records in force (R411, R421): layouts of record bodies that the spec does not give. -/
opaque Config.manifestBytes : Nat → List Byte
/-- The owner key and policy bit of an enrolment request, whose layout R423 leaves open (log entry 13). -/
opaque Config.enrolKey : List Byte → List Byte
opaque Config.enrolPolicy : List Byte → Bool
/-- The sections of the forme whose layout the manual names but does not give (R393, types 0x02, 0x03, 0x04 and 0x09; log
entry 14): per logical tile the 16-byte phase headers and the 32-byte entries; per route set, router and destination an
output; per router (0 to 63) and port (64 to 79) the 16-byte node entries; case images as (case address, bytes). -/
opaque Config.impositionOf : List Byte → List (Nat × List (BitVec 128) × List (BitVec 256))
opaque Config.routesOf : List Byte → List ((Nat × Nat × Nat) × Nat)
opaque Config.nodesOf : List Byte → List (Nat × List (BitVec 128))
opaque Config.caseImagesOf : List Byte → List (Nat × List Byte)

end Sys2Proof
end

