-- ==== Sys2Proof/Machine/Num.lean ====
section
/-! DEFINITION. Sys2Proof/Machine/Num.lean: the number formats, the exact values behind them, rounding, conversion and the
quoin generator (R46 to R61). A value is held exactly (sign, magnitude, power of two) until ONE rounding brings it into a
format. -/

namespace Sys2Proof.Num

/-! ## Exact values -/

/-- The finite value (-1)^neg × man × 2^exp; a zero keeps its sign. -/
structure Dy where
  neg : Bool
  man : Nat
  exp : Int
deriving DecidableEq, Repr

/-- A value of a float format. -/
inductive NV where
  | nan
  | inf (neg : Bool)
  | fin (d : Dy)
deriving DecidableEq, Repr

def zero : NV := .fin ⟨false, 0, 0⟩
def one : NV := .fin ⟨false, 1, 0⟩
def ofNat (n : Nat) : NV := .fin ⟨false, n, 0⟩
def ofInt (i : Int) : NV := .fin ⟨decide (i < 0), i.natAbs, 0⟩

def NV.isFinite : NV → Bool
  | .fin _ => true
  | _ => false

def NV.isNan : NV → Bool
  | .nan => true
  | _ => false

def NV.neg : NV → NV
  | .nan => .nan
  | .inf n => .inf (!n)
  | .fin d => .fin { d with neg := !d.neg }

def NV.abs : NV → NV
  | .nan => .nan
  | .inf _ => .inf false
  | .fin d => .fin { d with neg := false }

def NV.isZero : NV → Bool
  | .fin d => d.man == 0
  | _ => false

def NV.signBit : NV → Bool
  | .nan => false
  | .inf n => n
  | .fin d => d.neg

/-- The signed integer of `d` in units of 2^e, for e at most d.exp. -/
def Dy.units (d : Dy) (e : Int) : Int :=
  let m : Int := (d.man * 2 ^ (d.exp - e).toNat : Nat)
  if d.neg then -m else m

/-- The exact sum; an exact zero is −0 only when both terms are. -/
def Dy.add (a b : Dy) : Dy :=
  let e := min a.exp b.exp
  let t := a.units e + b.units e
  if t = 0 then ⟨a.neg && b.neg, 0, e⟩ else ⟨decide (t < 0), t.natAbs, e⟩

def Dy.mul (a b : Dy) : Dy := ⟨a.neg != b.neg, a.man * b.man, a.exp + b.exp⟩

def NV.add : NV → NV → NV
  | .nan, _ => .nan
  | _, .nan => .nan
  | .inf a, .inf b => if a = b then .inf a else .nan
  | .inf a, .fin _ => .inf a
  | .fin _, .inf b => .inf b
  | .fin a, .fin b => .fin (a.add b)

def NV.mul : NV → NV → NV
  | .nan, _ => .nan
  | _, .nan => .nan
  | .inf a, .inf b => .inf (a != b)
  | .inf a, .fin d => if d.man = 0 then .nan else .inf (a != d.neg)
  | .fin d, .inf b => if d.man = 0 then .nan else .inf (d.neg != b)
  | .fin a, .fin b => .fin (a.mul b)

def NV.sub (a b : NV) : NV := a.add b.neg

/-- A quotient carried to 96 bits below its leading bit, with a last bit that is 1 when it is not exact: enough for one
correct rounding into any format of the device. -/
def Dy.div (a b : Dy) : Dy :=
  let k := Nat.log2 b.man + 96
  let n := a.man * 2 ^ k
  ⟨a.neg != b.neg, 2 * (n / b.man) + (if n % b.man = 0 then 0 else 1), a.exp - b.exp - k - 1⟩

def NV.div : NV → NV → NV
  | .nan, _ => .nan
  | _, .nan => .nan
  | .inf _, .inf _ => .nan
  | .inf a, .fin d => .inf (a != d.neg)
  | .fin d, .inf b => .fin ⟨d.neg != b, 0, 0⟩
  | .fin a, .fin b =>
    if b.man = 0 then (if a.man = 0 then .nan else .inf (a.neg != b.neg)) else .fin (a.div b)

/-- Integer square root by bits, `n` bits of the root still to settle. -/
def isqrtFrom (m : Nat) : Nat → Nat → Nat
  | 0, acc => acc
  | n + 1, acc => isqrtFrom m n (if (acc + 2 ^ n) * (acc + 2 ^ n) ≤ m then acc + 2 ^ n else acc)

def isqrt (m : Nat) : Nat := isqrtFrom m (Nat.log2 m / 2 + 1) 0

/-- A square root with its last bit telling that it is not exact, as for `Dy.div`. -/
def Dy.sqrt (a : Dy) : Dy :=
  let m0 := if a.exp % 2 = 0 then a.man else a.man * 2
  let e0 := if a.exp % 2 = 0 then a.exp else a.exp - 1
  let m := m0 * 2 ^ 192
  let r := isqrt m
  ⟨false, 2 * r + (if r * r = m then 0 else 1), (e0 - 192) / 2 - 1⟩

/-- IEEE 754 square root, of a value whose sign allows one. -/
def NV.sqrt : NV → NV
  | .nan => .nan
  | .inf n => if n then .nan else .inf false
  | .fin d => if d.man = 0 then .fin d else if d.neg then .nan else .fin d.sqrt

/-- Signed comparison of finite values. -/
def Dy.lt (a b : Dy) : Bool :=
  let e := min a.exp b.exp
  decide (a.units e < b.units e)

def Dy.eqv (a b : Dy) : Bool :=
  let e := min a.exp b.exp
  decide (a.units e = b.units e)

/-- Is there an order between the two at all (neither is NaN)? -/
def NV.ordered (a b : NV) : Bool := !a.isNan && !b.isNan

/-- a < b as IEEE 754 compares: false with a NaN. -/
def NV.lt : NV → NV → Bool
  | .nan, _ => false
  | _, .nan => false
  | .inf a, .inf b => a && !b
  | .inf a, .fin _ => a
  | .fin _, .inf b => !b
  | .fin a, .fin b => a.lt b

def NV.eqv : NV → NV → Bool
  | .nan, _ => false
  | _, .nan => false
  | .inf a, .inf b => a == b
  | .inf _, .fin _ => false
  | .fin _, .inf _ => false
  | .fin a, .fin b => a.eqv b

def NV.le (a b : NV) : Bool := a.lt b || a.eqv b

/-- Order for minimum and maximum: −0 below +0 (R143). -/
def NV.ltZ (a b : NV) : Bool :=
  if a.isZero && b.isZero then a.signBit && !b.signBit else a.lt b

/-- Minimum and maximum of R143: the canonical NaN if either is NaN. -/
def NV.vmin (a b : NV) : NV := if a.isNan || b.isNan then .nan else if b.ltZ a then b else a
def NV.vmax (a b : NV) : NV := if a.isNan || b.isNan then .nan else if a.ltZ b then b else a

/-! ## Formats -/

/-- A float format: `mb` mantissa and `eb` exponent bits, `maxCode` the magnitude code of its max finite, the codes of
infinity and of the positive canonical NaN where it has them (R46, R49). -/
structure FloatFmt where
  eb : Nat
  mb : Nat
  bias : Int
  maxCode : Nat
  infCode : Option Nat
  nanCode : Option Nat
deriving DecidableEq, Repr

def e2m1 : FloatFmt := ⟨2, 1, 1, 0x7, none, none⟩
def e4m3 : FloatFmt := ⟨4, 3, 7, 0x7E, none, some 0x7F⟩
def e5m2 : FloatFmt := ⟨5, 2, 15, 0x7B, some 0x7C, some 0x7E⟩
def bf16 : FloatFmt := ⟨8, 7, 127, 0x7F7F, some 0x7F80, some 0x7FC0⟩
def binary16 : FloatFmt := ⟨5, 10, 15, 0x7BFF, some 0x7C00, some 0x7E00⟩
def fp32 : FloatFmt := ⟨8, 23, 127, 0x7F7FFFFF, some 0x7F800000, some 0x7FC00000⟩

/-- The format codes of R46. -/
inductive Fmt where
  | int (w : Nat)
  | flt (f : FloatFmt)
  | int32
deriving DecidableEq, Repr

/-- R46: codes 0x9 to 0xF are reserved. -/
def fmtOf (c : Nat) : Option Fmt :=
  match c with
  | 0 => some (.int 4)
  | 1 => some (.int 8)
  | 2 => some (.flt e2m1)
  | 3 => some (.flt e4m3)
  | 4 => some (.flt e5m2)
  | 5 => some (.flt bf16)
  | 6 => some (.flt binary16)
  | 7 => some (.flt fp32)
  | 8 => some .int32
  | _ => none

/-- Bits of an element of a format code. -/
def fmtWidth (c : Nat) : Nat :=
  match c with
  | 0 | 2 => 4
  | 1 | 3 | 4 => 8
  | 5 | 6 => 16
  | 7 | 8 => 32
  | _ => 0

def isIntFmt (c : Nat) : Bool := c == 0 || c == 1
def isFloatFmt (c : Nat) : Bool := decide (2 ≤ c) && decide (c ≤ 7)

def FloatFmt.width (f : FloatFmt) : Nat := 1 + f.eb + f.mb

/-- The value of a magnitude code on the continued grid of the format (R53 step 3), with a sign. -/
def FloatFmt.grid (f : FloatFmt) (neg : Bool) (mag : Nat) : Dy :=
  let e := mag / 2 ^ f.mb
  let m := mag % 2 ^ f.mb
  if e = 0 then ⟨neg, m, 1 - f.bias - f.mb⟩ else ⟨neg, 2 ^ f.mb + m, e - f.bias - f.mb⟩

/-- The value of an encoding (R48: subnormals are kept; R49: every NaN encoding is read as NaN). -/
def FloatFmt.dec (f : FloatFmt) (bits : Nat) : NV :=
  let sgn := bits / 2 ^ (f.eb + f.mb) % 2 == 1
  let mag := bits % 2 ^ (f.eb + f.mb)
  if f.infCode = some mag then .inf sgn
  else if mag > f.maxCode then .nan
  else .fin (f.grid sgn mag)

/-- Rounding of a magnitude: the modes of R55, and away from zero for the directed roundings up and down of R56. -/
inductive Rnd where
  | rne
  | sr (u : Nat)
  | rz
  | away
deriving DecidableEq, Repr

/-- R55's two-bit encoding; `u` is the quoin output that SR draws. -/
def rndOf (code u : Nat) : Option Rnd :=
  match code with
  | 0 => some .rne
  | 1 => some (.sr u)
  | 2 => some .rz
  | _ => none

/-- man × 2^exp rounded on the continued grid of the format: the magnitude code, which goes on above max finite (R53
step 3, R58). -/
def FloatFmt.roundMag (f : FloatFmt) (r : Rnd) (man : Nat) (exp : Int) : Nat :=
  if man = 0 then 0 else
    let emin : Int := 1 - f.bias
    let q : Int := max (Nat.log2 man + exp) emin - f.mb
    let qmin : Int := emin - f.mb
    let n := (q - exp).toNat
    let lo := if exp ≤ q then man / 2 ^ n else man * 2 ^ (exp - q).toNat
    let rem := if exp ≤ q then man % 2 ^ n else 0
    let up : Bool :=
      match r with
      | .rne => decide (2 * rem > 2 ^ n) || (decide (2 * rem = 2 ^ n) && lo % 2 == 1 && decide (rem ≠ 0))
      | .sr u => decide (rem * 2 ^ 32 / 2 ^ n + u ≥ 2 ^ 32)
      | .rz => false
      | .away => decide (rem ≠ 0)
    (q - qmin).toNat * 2 ^ f.mb + (lo + if up then 1 else 0)

/-- The outcome of a conversion: the encoding, the encode saturation flag and the non-finite flag (R53). -/
structure Conv where
  code : Nat
  sat : Bool
  nf : Bool
deriving DecidableEq, Repr

def FloatFmt.signed (f : FloatFmt) (neg : Bool) (mag : Nat) : Nat := mag + if neg then 2 ^ (f.eb + f.mb) else 0

/-- R53 into a float format; the sign is copied (R54). -/
def FloatFmt.conv (f : FloatFmt) (r : Rnd) : NV → Conv
  | .nan => ⟨f.nanCode.getD 0, false, true⟩
  | .inf n => ⟨f.signed n (f.infCode.getD f.maxCode), false, true⟩
  | .fin d =>
    let c := f.roundMag r d.man d.exp
    if c > f.maxCode then ⟨f.signed d.neg f.maxCode, true, false⟩ else ⟨f.signed d.neg c, false, false⟩

/-- IEEE 754 rounding into a format with infinities: an overflow gives infinity and a NaN the canonical NaN. -/
def FloatFmt.ieee (f : FloatFmt) : NV → Nat
  | .nan => f.nanCode.getD 0
  | .inf n => f.signed n (f.infCode.getD f.maxCode)
  | .fin d =>
    let c := f.roundMag .rne d.man d.exp
    if c > f.maxCode then f.signed d.neg (f.infCode.getD f.maxCode) else f.signed d.neg c

/-- One FP32 rounding, to nearest even. -/
def rne32 (v : NV) : NV := fp32.dec (fp32.ieee v)

def f32 (w : Nat) : NV := fp32.dec w
def to32 (v : NV) : Nat := fp32.ieee v
def add32 (a b : NV) : NV := rne32 (a.add b)
def sub32 (a b : NV) : NV := rne32 (a.sub b)
def mul32 (a b : NV) : NV := rne32 (a.mul b)
def fma32 (a b c : NV) : NV := rne32 ((a.mul b).add c)
def div32 (a b : NV) : NV := rne32 (a.div b)
def sqrt32 (a : NV) : NV := rne32 a.sqrt

/-- Directed rounding (R56, R63): never an infinity, the largest finite magnitude instead. -/
def FloatFmt.dir (f : FloatFmt) (upward : Bool) (v : NV) : Nat :=
  match v with
  | .fin d => (f.conv (if upward != d.neg then .away else .rz) v).code
  | .inf n => f.signed n f.maxCode
  | .nan => f.nanCode.getD 0

/-! ## Quoin -/

def rotl32 (x : Word) (n : Nat) : Word := x.rotateLeft n
def rotr32 (x : Word) (n : Nat) : Word := x.rotateRight n

/-- One round of R57. -/
def quoinRound (k : Nat → Word) (r : Nat) (xy : Word × Word) : Word × Word :=
  let x := rotr32 xy.1 8 + xy.2
  let x := x ^^^ (k (r % 3) + BitVec.ofNat 32 r)
  (x, rotl32 xy.2 3 ^^^ x)

/-- The quoin generator (R57). -/
def quoin (seed : DWord) (step : Word) (point tensor : Half) (index : Word) : Word :=
  let k : Nat → Word := fun i => if i = 0 then seed.setWidth 32 else if i = 1 then (seed >>> 32).setWidth 32 else step
  let y0 : Word := (point.setWidth 32 <<< 16) ||| tensor.setWidth 32
  ((List.range 8).foldl (fun xy r => quoinRound k r xy) (index, y0)).2

/-! ## CRC-32 of IEEE 802.3 (R159, R323, R352) -/

def crcBit (c : Word) : Word := if c.getLsbD 0 then (c >>> 1) ^^^ 0xEDB88320#32 else c >>> 1

def crcByte (c : Word) (b : Byte) : Word :=
  (List.range 8).foldl (fun c _ => crcBit c) (c ^^^ b.setWidth 32)

def crc32 (bs : List Byte) : Word := (bs.foldl crcByte 0xFFFFFFFF#32) ^^^ 0xFFFFFFFF#32

/-! ## Quantisation parameters (R62, R63, R65) -/

/-- A quantisation parameter entry of R62. -/
structure Qpe where
  scale : Nat
  offset : Nat
  invScale : Nat
  isConst : Bool
  pow2 : Bool
  sat : Bool
  nonfinite : Bool
  fmt : Nat
deriving DecidableEq, Repr

/-- The 64-bit word of a QPE. -/
def Qpe.word (q : Qpe) : DWord :=
  BitVec.ofNat 64 (q.scale + q.offset * 2 ^ 16 + q.invScale * 2 ^ 32 + b2n q.isConst * 2 ^ 48 + b2n q.pow2 * 2 ^ 49
    + b2n q.sat * 2 ^ 50 + b2n q.nonfinite * 2 ^ 51 + q.fmt * 2 ^ 52)

def Qpe.ofWord (w : DWord) : Qpe :=
  let n := w.toNat
  ⟨n % 2 ^ 16, n / 2 ^ 16 % 2 ^ 16, n / 2 ^ 32 % 2 ^ 16, w.getLsbD 48, w.getLsbD 49, w.getLsbD 50, w.getLsbD 51, n / 2 ^ 52 % 16⟩

/-- Where there is no QPE: SCALE 1, OFFSET +0, CONST 0 (R97). -/
def Qpe.unit : Qpe := ⟨0x3F80, 0, 0x3F80, false, false, false, false, 0⟩

/-- A minimum and maximum over finite elements; none: no finite element. -/
abbrev Range := Option (NV × NV)

def Range.add (r : Range) (v : NV) : Range :=
  if v.isFinite then
    match r with
    | none => some (v, v)
    | some (lo, hi) => some (if v.ltZ lo then v else lo, if hi.ltZ v then v else hi)
  else r

def Range.merge (a b : Range) : Range :=
  match b with
  | none => a
  | some (lo, hi) => (a.add lo).add hi

/-- FP32 minimum and maximum as a stats pair reports them: 0x7F80_0000 and 0xFF80_0000 with no finite element (R97,
R114). -/
def Range.bits (r : Range) : Nat × Nat :=
  match r with
  | none => (0x7F800000, 0xFF800000)
  | some (lo, hi) => (to32 lo, to32 hi)

def Range.ofBits (lo hi : Nat) : Range :=
  if (f32 lo).isFinite && (f32 hi).isFinite then some (f32 lo, f32 hi) else none

def Range.amax : Range → NV
  | none => zero
  | some (lo, hi) => if lo.abs.lt hi.abs then hi.abs else lo.abs

/-- E of R63: the largest integer with a × 2^E at most the format's max finite, within −126 and 126. -/
def encExp (f : FloatFmt) (a : Dy) : Int :=
  match f.dec f.maxCode with
  | .fin m =>
    -- significands compared at equal leading bits
    let la : Int := Nat.log2 a.man + a.exp
    let lm : Int := Nat.log2 m.man + m.exp
    let fits := decide (a.man * 2 ^ Nat.log2 m.man ≤ m.man * 2 ^ Nat.log2 a.man)
    max (-126) (min 126 (if fits then lm - la else lm - la - 1))
  | _ => 0

/-- The BF16 encoding of 2^e, for e in −126 to 126. -/
def pow2bf (e : Int) : Nat := (e + 127).toNat * 128

/-- The parameters of a row, channel or tensor from its finite range (R63, R65). A range beyond FP32 gives SCALE the largest
BF16 value. -/
def qpeFrom (fmt : Nat) (r : Range) (nonfinite : Bool) : Qpe :=
  match fmtOf fmt with
  | some (.int w) =>
    match r with
    | none => ⟨0, 0, 0, true, false, false, nonfinite, fmt⟩
    | some (lo, hi) =>
      if lo.eqv hi then ⟨0, (bf16.conv .rne lo).code, 0, true, false, false, nonfinite, fmt⟩
      else
        let off := bf16.dir false lo
        let d := hi.sub (bf16.dec off)
        let q := (fp32.dec (fp32.dir true d)).div (ofNat (2 ^ w - 1))
        let sc := if (fp32.conv .away d).sat then bf16.maxCode else bf16.dir true (fp32.dec (fp32.dir true q))
        ⟨sc, off, (bf16.conv .rne (one.div (bf16.dec sc))).code, false, false, false, nonfinite, fmt⟩
  | some (.flt f) =>
    match r.amax with
    | .fin a =>
      if a.man = 0 then ⟨0, 0, 0, true, true, false, nonfinite, fmt⟩
      else
        let e := encExp f a
        ⟨pow2bf (-e), 0, pow2bf e, false, true, false, nonfinite, fmt⟩
    | _ => ⟨0, 0, 0, true, true, false, nonfinite, fmt⟩
  | _ => ⟨0, 0, 0, true, false, false, nonfinite, fmt⟩

/-- Integer nearest to a value, ties to even, clamped to 0 to `top` (R63). -/
def clampCode (top : Nat) : NV → Nat
  | .nan => 0
  | .inf n => if n then 0 else top
  | .fin d =>
    if d.neg then 0
    else if d.exp ≥ 0 then min top (d.man * 2 ^ d.exp.toNat)
    else
      let n := (-d.exp).toNat
      let lo := d.man / 2 ^ n
      let rem := d.man % 2 ^ n
      let up := decide (2 * rem > 2 ^ n) || (decide (2 * rem = 2 ^ n) && lo % 2 == 1)
      min top (lo + if up then 1 else 0)

/-- An element encoded with a QPE (R63; R53 for NaN and infinity). Every code of a constant channel is 0 (R65). The product is
an FP32 one (R97). -/
def qpeEncode (q : Qpe) (rnd : Rnd) (x : NV) : Conv :=
  if q.isConst then ⟨0, false, !x.isFinite⟩
  else
    match fmtOf q.fmt, x with
    | some (.int w), .inf n => ⟨if n then 0 else 2 ^ w - 1, false, true⟩
    | some (.int w), .fin _ => ⟨clampCode (2 ^ w - 1) (mul32 (sub32 x (bf16.dec q.offset)) (bf16.dec q.invScale)), false, false⟩
    | some (.flt f), v => f.conv rnd (mul32 v (bf16.dec q.invScale))
    | _, v => ⟨0, false, !v.isFinite⟩

end Sys2Proof.Num
end

