-- ==== Sys2Proof/Machine/RegTable.lean ====
section
/-! DEFINITION. Sys2Proof/Machine/RegTable.lean: every control register of the device, as the register tables of the
spec's chapters give it: its block, its offset within the block's window, how many there are and how far apart, in which
windows it exists, and its fields with their access code (R8) and reset value (R10; a field marked M reads 0 until the
manifest is loaded; a field whose reset the spec leaves undefined is 0 here, log entry 3). -/

namespace Sys2Proof

/-- The blocks of control space (R28). A press lies in its controller's window, the yard-wide and the tile registers in
their yard's. -/
inductive Block where
  | dev | bos | hal | hold | press | lnk | hst | pwr | yard | tile
deriving DecidableEq, Repr

/-- Access codes (R8). -/
inductive Acc where
  | rw | ro | w1c | w1s | wo | rwl
deriving DecidableEq, Repr

/-- In which windows of its block a register exists. -/
inductive Scope where
  | all | mt | vt | ct | ctl0 | port0
deriving DecidableEq, Repr

/-- One field of a register: bits [lsb + width - 1 : lsb]. -/
structure RegField where
  lsb : Nat
  width : Nat
  acc : Acc
  rst : Nat
deriving DecidableEq, Repr

/-- The registers' names, those of the spec in camel case. -/
inductive RegName where
  | devIdent | devBoard | devMap | devTiles | yardHarvest | yardFurlPending | tileIdent | devSeedLo | devSeedHi 
  | devNumerics | tileMtStatus | tileMtGflags | tileMtSticky | tileMtFault | tileMtEpamax | tileMtBusyLo 
  | tileMtBusyHi | tileMtDbgaddr | tileMtDbgdata | tileVecSticky | tileVecBusyLo | tileVecBusyHi | tileVtQstatus 
  | tileCtCores | tileCtDescStatus | tileCtDescDone | tileCtDescFault | tileProgFault | tileProgPc 
  | tileProgAddrLo | tileProgAddrHi | tileDbgMark | tileFlags | tileCorePc | tileIssueLo | tileIssueHi 
  | tileStallLo | tileStallHi | tileBankOwner | tileBankNext | tileEccStatus | tileEccAddr | tileEccScrub 
  | tileGalleyFault | tileConflict | tileGstatLo | tileGstatHi | yardSliceOwner | yardSliceNext | yardSliceCtl 
  | yardCaseEcc | yardCaseEccAddr | yardCaseScrub | yardConflict | holdStatus | holdArb | holdEccLinkCe 
  | holdEccRetry | holdEccUe | holdUeAddrLo | holdUeAddrHi | holdPathEcc | holdRetirePending | holdRepairLeft 
  | holdRdBytesLo | holdRdBytesHi | holdWrBytesLo | holdWrBytesHi | holdRfmCount | holdRgnBase | holdRgnSize 
  | holdRgnAttr | halStatus | halStep | halDec | halDecStep | halDecFlags | halStepCfg | halSkipSet 
  | halFlagMode | halBarScope | halCfg | halJobBoard | halJobTree | halReleases | halFault | yardRtrStatus 
  | yardRtrDrop | yardRtrRetry | yardRtrRed | yardRtrFlitsLo | yardRtrFlitsHi | tileXchStatus | tileXchFault 
  | tileXchSticky | tileHalMember | tileHalFlagdef | tileHalFlagmap | tileHalRflags | tileHalRbar | yardSqState 
  | yardSqCfg | yardSqVictim | yardSqSlotBaseLo | yardSqSlotBaseHi | yardSqSlotSize | yardSqSlotCount 
  | yardSqWaveOpen | yardSqWave | yardSqStolen | yardSqFault | tileSqLand | tileSqHeld | pressStatus | pressCfg 
  | pressLtBaseLo | pressLtBaseHi | pressLtCount | pressRuleBaseLo | pressRuleBaseHi | pressRecOff 
  | pressScaleOff | pressProgress | pressReady | pressCopyIn | pressStepSize | pressStepTag | pressSsq 
  | pressSsLatched | pressSsStep | pressAgeDigest | pressFault | pressDiscard | pressStale | pressElemsLo 
  | pressElemsHi | pressProofStatus | pressProofStep | pressProofJobstep | pressProofSeqLo | pressProofSeqHi 
  | pressMirrorCfg | pressMirrorCtl | pressMirrorHeld | pressMirrorHeldStep | pressMirrorRxLo | pressMirrorRxHi 
  | pressMirrorSpoiled | lnkStatus | lnkCfg | lnkCtl | lnkPeer | lnkPlevel | lnkLanes | lnkMargin | lnkFecCeLo 
  | lnkFecCeHi | lnkFecUe | lnkReplay | lnkSwaps | lnkTxFlitsLo | lnkTxFlitsHi | lnkRxFlitsLo | lnkRxFlitsHi 
  | lnkRed | lnkFault | lnkMap | hstStatus | hstJob | hstCaps | hstCmdBaseLo | hstCmdBaseHi | hstCmdSize 
  | hstCmdTail | hstCmdHead | hstCplBaseLo | hstCplBaseHi | hstCplSize | hstCplTail | hstCplHead | hstErr 
  | hstIrqAddrLo | hstIrqAddrHi | hstIrqData | hstIrqCtl | hstHb | hstHbAddrLo | hstHbAddrHi | hstHbCount 
  | hstCplStage | hstCplPush | bosMbCmd | bosMbRsp | bosMbCtl | bosMbStatus | bosBootStatus | bosFwVersion 
  | bosFwSvn | bosSec | bosSerialLo | bosSerialHi | bosManifest | bosBootMs | devFaultCfg | devAbort 
  | devReplays | devReplace | devAgeSel | devAgeData | devAgeWorst | bosBistStatus | bosBistFails | bosBistFirst 
  | bosSpareTest | bosLogNewestLo | bosLogNewestHi | bosLogOldestLo | bosLogOldestHi | pwrStatus | pwrLimit 
  | pwrNow | pwrVin | pwrDip | pwrReefUs | pwrIslSel | pwrIslData | pwrTherm | pwrThermCfg | pwrAlert | clkLock 
  | clkRef | clkTbLo | clkTbHi | clkTbLatchLo | clkTbLatchHi | clkTbCfg | clkTbLoadLo | clkTbLoadHi 
deriving DecidableEq, Repr

/-- One row of the register tables. `off` is the local offset, `count` registers stand `stride` bytes apart. -/
structure RegDef where
  name : RegName
  block : Block
  off : Nat
  count : Nat
  stride : Nat
  scope : Scope
  fields : List RegField
deriving DecidableEq, Repr

def regsDev : List RegDef := [
  ⟨.devIdent, .dev, 0x0, 1, 4, .all, [⟨0, 16, .ro, 0x1472⟩, ⟨16, 8, .ro, 0xb0⟩]⟩,
  ⟨.devBoard, .dev, 0x4, 1, 4, .all, [⟨0, 3, .ro, 0⟩, ⟨16, 12, .rwl, 0⟩]⟩,
  ⟨.devMap, .dev, 0x8, 1, 4, .all, [⟨0, 16, .ro, 0⟩, ⟨16, 7, .ro, 0⟩, ⟨31, 1, .ro, 0⟩]⟩,
  ⟨.devTiles, .dev, 0xc, 1, 4, .all, [⟨0, 11, .ro, 0⟩, ⟨11, 9, .ro, 0⟩, ⟨20, 7, .ro, 0⟩]⟩,
  ⟨.devSeedLo, .dev, 0x10, 1, 4, .all, [⟨0, 32, .rwl, 0⟩]⟩,
  ⟨.devSeedHi, .dev, 0x14, 1, 4, .all, [⟨0, 32, .rwl, 0⟩]⟩,
  ⟨.devNumerics, .dev, 0x18, 1, 4, .all, [⟨0, 8, .ro, 1⟩, ⟨8, 8, .ro, 1⟩, ⟨16, 1, .ro, 0⟩]⟩,
  ⟨.devFaultCfg, .dev, 0x40, 1, 4, .all, [⟨0, 8, .rwl, 0⟩]⟩,
  ⟨.devAbort, .dev, 0x44, 1, 4, .all, [⟨0, 8, .ro, 0⟩, ⟨8, 8, .ro, 0⟩, ⟨16, 12, .ro, 0⟩, ⟨28, 1, .ro, 0⟩, ⟨31, 1, .w1c, 0⟩]⟩,
  ⟨.devReplays, .dev, 0x48, 1, 4, .all, [⟨0, 16, .ro, 0⟩, ⟨16, 8, .ro, 0⟩]⟩,
  ⟨.devReplace, .dev, 0x50, 1, 4, .all, [⟨0, 7, .ro, 0⟩, ⟨7, 2, .ro, 0⟩, ⟨31, 1, .ro, 0⟩]⟩,
  ⟨.devAgeSel, .dev, 0x60, 1, 4, .all, [⟨0, 7, .rw, 0⟩]⟩,
  ⟨.devAgeData, .dev, 0x64, 1, 4, .all, [⟨0, 8, .ro, 0x80⟩, ⟨8, 8, .ro, 0⟩, ⟨16, 4, .ro, 0⟩, ⟨20, 1, .ro, 0⟩, ⟨21, 1, .ro, 0⟩]⟩,
  ⟨.devAgeWorst, .dev, 0x68, 1, 4, .all, [⟨0, 7, .ro, 0⟩, ⟨8, 8, .ro, 0x80⟩, ⟨16, 16, .ro, 0⟩]⟩]

def regsBos : List RegDef := [
  ⟨.bosMbCmd, .bos, 0x0, 16, 4, .all, [⟨0, 32, .rw, 0⟩]⟩,
  ⟨.bosMbRsp, .bos, 0x40, 8, 4, .all, [⟨0, 32, .ro, 0⟩]⟩,
  ⟨.bosMbCtl, .bos, 0x60, 1, 4, .all, [⟨0, 1, .w1s, 0⟩]⟩,
  ⟨.bosMbStatus, .bos, 0x64, 1, 4, .all, [⟨0, 1, .ro, 0⟩, ⟨1, 1, .ro, 0⟩, ⟨2, 1, .ro, 0⟩]⟩,
  ⟨.bosBootStatus, .bos, 0x100, 1, 4, .all, [⟨0, 4, .ro, 1⟩, ⟨4, 1, .ro, 0⟩, ⟨5, 1, .ro, 0⟩, ⟨6, 1, .ro, 0⟩, ⟨7, 1, .ro, 0⟩, ⟨8, 1, .ro, 0⟩, ⟨9, 1, .ro, 0⟩, ⟨10, 1, .ro, 0⟩, ⟨12, 4, .ro, 0⟩]⟩,
  ⟨.bosFwVersion, .bos, 0x104, 1, 4, .all, [⟨0, 32, .ro, 0⟩]⟩,
  ⟨.bosFwSvn, .bos, 0x108, 1, 4, .all, [⟨0, 16, .ro, 0⟩, ⟨16, 16, .ro, 0⟩]⟩,
  ⟨.bosSec, .bos, 0x10c, 1, 4, .all, [⟨0, 1, .ro, 0⟩, ⟨1, 1, .ro, 0⟩, ⟨2, 1, .ro, 0⟩, ⟨3, 4, .ro, 0⟩, ⟨7, 1, .ro, 0⟩, ⟨8, 1, .ro, 0⟩]⟩,
  ⟨.bosSerialLo, .bos, 0x110, 1, 4, .all, [⟨0, 32, .ro, 0⟩]⟩,
  ⟨.bosSerialHi, .bos, 0x114, 1, 4, .all, [⟨0, 32, .ro, 0⟩]⟩,
  ⟨.bosManifest, .bos, 0x118, 1, 4, .all, [⟨0, 1, .ro, 0⟩, ⟨1, 15, .ro, 0⟩, ⟨16, 16, .ro, 0⟩]⟩,
  ⟨.bosBootMs, .bos, 0x11c, 1, 4, .all, [⟨0, 32, .ro, 0⟩]⟩,
  ⟨.bosBistStatus, .bos, 0x120, 1, 4, .all, [⟨0, 2, .ro, 0⟩, ⟨2, 2, .ro, 0⟩, ⟨4, 6, .ro, 0⟩, ⟨10, 4, .ro, 0⟩, ⟨14, 1, .ro, 0⟩]⟩,
  ⟨.bosBistFails, .bos, 0x124, 1, 4, .all, [⟨0, 16, .ro, 0⟩, ⟨16, 16, .ro, 0⟩]⟩,
  ⟨.bosBistFirst, .bos, 0x128, 1, 4, .all, [⟨0, 12, .ro, 0⟩]⟩,
  ⟨.bosSpareTest, .bos, 0x130, 1, 4, .all, [⟨0, 16, .ro, 0⟩, ⟨16, 6, .ro, 0⟩, ⟨22, 1, .ro, 0⟩]⟩,
  ⟨.bosLogNewestLo, .bos, 0x140, 1, 4, .all, [⟨0, 32, .ro, 0⟩]⟩,
  ⟨.bosLogNewestHi, .bos, 0x144, 1, 4, .all, [⟨0, 32, .ro, 0⟩]⟩,
  ⟨.bosLogOldestLo, .bos, 0x148, 1, 4, .all, [⟨0, 32, .ro, 0⟩]⟩,
  ⟨.bosLogOldestHi, .bos, 0x14c, 1, 4, .all, [⟨0, 32, .ro, 0⟩]⟩]

def regsHal : List RegDef := [
  ⟨.halStatus, .hal, 0x0, 1, 4, .all, [⟨0, 1, .ro, 0⟩, ⟨1, 1, .ro, 0⟩, ⟨2, 1, .ro, 0⟩]⟩,
  ⟨.halStep, .hal, 0x4, 1, 4, .all, [⟨0, 32, .rwl, 0xffffffff⟩]⟩,
  ⟨.halDec, .hal, 0x8, 1, 4, .all, [⟨0, 2, .ro, 0⟩]⟩,
  ⟨.halDecStep, .hal, 0xc, 1, 4, .all, [⟨0, 32, .ro, 0xffffffff⟩]⟩,
  ⟨.halDecFlags, .hal, 0x10, 1, 4, .all, [⟨0, 32, .ro, 0⟩]⟩,
  ⟨.halStepCfg, .hal, 0x20, 1, 4, .all, [⟨0, 4, .rwl, 0⟩, ⟨4, 4, .rwl, 1⟩, ⟨8, 4, .rwl, 2⟩]⟩,
  ⟨.halSkipSet, .hal, 0x24, 1, 4, .all, [⟨0, 6, .ro, 0x3f⟩, ⟨8, 24, .rwl, 0⟩]⟩,
  ⟨.halFlagMode, .hal, 0x28, 1, 4, .all, [⟨8, 24, .rwl, 0⟩]⟩,
  ⟨.halBarScope, .hal, 0x2c, 1, 4, .all, [⟨0, 32, .rwl, 0⟩]⟩,
  ⟨.halCfg, .hal, 0x30, 1, 4, .all, [⟨0, 5, .rwl, 0x18⟩, ⟨5, 1, .rwl, 0⟩]⟩,
  ⟨.halJobBoard, .hal, 0x34, 1, 4, .all, [⟨0, 16, .rwl, 0⟩]⟩,
  ⟨.halJobTree, .hal, 0x38, 1, 4, .all, [⟨0, 5, .rwl, 0x1f⟩, ⟨16, 16, .rwl, 0⟩]⟩,
  ⟨.halReleases, .hal, 0x40, 1, 4, .all, [⟨0, 32, .ro, 0⟩]⟩,
  ⟨.halFault, .hal, 0x50, 1, 4, .all, [⟨0, 2, .ro, 0⟩, ⟨2, 7, .ro, 0⟩, ⟨31, 1, .w1c, 0⟩]⟩]

def regsHold : List RegDef := [
  ⟨.holdStatus, .hold, 0x0, 1, 4, .all, [⟨0, 1, .ro, 0⟩, ⟨1, 1, .ro, 0⟩, ⟨2, 1, .ro, 0⟩, ⟨3, 1, .ro, 0⟩, ⟨16, 16, .ro, 0⟩]⟩,
  ⟨.holdArb, .hold, 0x4, 1, 4, .all, [⟨0, 5, .rwl, 4⟩, ⟨5, 5, .rwl, 0xc⟩]⟩,
  ⟨.holdEccLinkCe, .hold, 0x10, 1, 4, .all, [⟨0, 32, .ro, 0⟩]⟩,
  ⟨.holdEccRetry, .hold, 0x14, 1, 4, .all, [⟨0, 32, .ro, 0⟩]⟩,
  ⟨.holdEccUe, .hold, 0x18, 1, 4, .all, [⟨0, 16, .ro, 0⟩, ⟨16, 2, .ro, 0⟩, ⟨31, 1, .w1c, 0⟩]⟩,
  ⟨.holdUeAddrLo, .hold, 0x20, 1, 4, .all, [⟨0, 32, .ro, 0⟩]⟩,
  ⟨.holdUeAddrHi, .hold, 0x24, 1, 4, .all, [⟨0, 32, .ro, 0⟩]⟩,
  ⟨.holdPathEcc, .hold, 0x28, 1, 4, .all, [⟨0, 16, .ro, 0⟩, ⟨31, 1, .w1c, 0⟩]⟩,
  ⟨.holdRetirePending, .hold, 0x30, 1, 4, .all, [⟨0, 8, .ro, 0⟩]⟩,
  ⟨.holdRepairLeft, .hold, 0x34, 1, 4, .all, [⟨0, 8, .ro, 0⟩]⟩,
  ⟨.holdRdBytesLo, .hold, 0x40, 1, 4, .all, [⟨0, 32, .ro, 0⟩]⟩,
  ⟨.holdRdBytesHi, .hold, 0x44, 1, 4, .all, [⟨0, 32, .ro, 0⟩]⟩,
  ⟨.holdWrBytesLo, .hold, 0x48, 1, 4, .all, [⟨0, 32, .ro, 0⟩]⟩,
  ⟨.holdWrBytesHi, .hold, 0x4c, 1, 4, .all, [⟨0, 32, .ro, 0⟩]⟩,
  ⟨.holdRfmCount, .hold, 0x50, 1, 4, .all, [⟨0, 32, .ro, 0⟩]⟩,
  ⟨.holdRgnBase, .hold, 0x10000, 64, 16, .ctl0, [⟨0, 23, .rwl, 0⟩]⟩,
  ⟨.holdRgnSize, .hold, 0x10004, 64, 16, .ctl0, [⟨0, 24, .rwl, 0⟩]⟩,
  ⟨.holdRgnAttr, .hold, 0x10008, 64, 16, .ctl0, [⟨0, 8, .rwl, 0⟩, ⟨8, 8, .rwl, 0⟩, ⟨16, 4, .rwl, 0⟩, ⟨20, 1, .rwl, 0⟩, ⟨31, 1, .rwl, 0⟩]⟩]

def regsPress0 : List RegDef := [
  ⟨.pressStatus, .press, 0x0, 1, 4, .all, [⟨0, 3, .ro, 0⟩, ⟨3, 12, .ro, 0⟩, ⟨15, 3, .ro, 0⟩]⟩,
  ⟨.pressCfg, .press, 0x4, 1, 4, .ctl0, [⟨0, 1, .rwl, 0⟩, ⟨1, 5, .rwl, 0⟩]⟩,
  ⟨.pressLtBaseLo, .press, 0x8, 1, 4, .ctl0, [⟨0, 32, .rwl, 0⟩]⟩,
  ⟨.pressLtBaseHi, .press, 0xc, 1, 4, .ctl0, [⟨0, 7, .rwl, 0⟩]⟩,
  ⟨.pressLtCount, .press, 0x10, 1, 4, .ctl0, [⟨0, 13, .rwl, 0⟩]⟩,
  ⟨.pressRuleBaseLo, .press, 0x14, 1, 4, .ctl0, [⟨0, 32, .rwl, 0⟩]⟩,
  ⟨.pressRuleBaseHi, .press, 0x18, 1, 4, .ctl0, [⟨0, 7, .rwl, 0⟩]⟩,
  ⟨.pressRecOff, .press, 0x1c, 1, 4, .ctl0, [⟨0, 23, .rwl, 0⟩]⟩,
  ⟨.pressScaleOff, .press, 0x2c, 1, 4, .ctl0, [⟨0, 23, .rwl, 0⟩]⟩,
  ⟨.pressProgress, .press, 0x20, 1, 4, .all, [⟨0, 13, .ro, 0⟩, ⟨16, 13, .ro, 0⟩]⟩,
  ⟨.pressReady, .press, 0x24, 1, 4, .ctl0, [⟨0, 12, .wo, 0⟩]⟩,
  ⟨.pressCopyIn, .press, 0x28, 1, 4, .ctl0, [⟨0, 12, .wo, 0⟩]⟩,
  ⟨.pressStepSize, .press, 0x30, 1, 4, .ctl0, [⟨0, 32, .rw, 0⟩]⟩,
  ⟨.pressStepTag, .press, 0x34, 1, 4, .ctl0, [⟨0, 32, .wo, 0⟩]⟩,
  ⟨.pressSsq, .press, 0x38, 1, 4, .ctl0, [⟨0, 3, .ro, 0⟩, ⟨8, 8, .ro, 0⟩, ⟨16, 8, .ro, 0⟩, ⟨24, 8, .ro, 0⟩]⟩,
  ⟨.pressSsLatched, .press, 0x3c, 1, 4, .ctl0, [⟨0, 32, .ro, 0⟩]⟩,
  ⟨.pressSsStep, .press, 0x40, 1, 4, .ctl0, [⟨0, 32, .ro, 0xffffffff⟩]⟩,
  ⟨.pressAgeDigest, .press, 0x44, 1, 4, .all, [⟨0, 32, .ro, 0⟩]⟩,
  ⟨.pressFault, .press, 0x50, 1, 4, .all, [⟨0, 4, .ro, 0⟩, ⟨4, 12, .ro, 0⟩, ⟨16, 2, .ro, 0⟩, ⟨30, 1, .ro, 0⟩, ⟨31, 1, .w1c, 0⟩]⟩,
  ⟨.pressDiscard, .press, 0x54, 1, 4, .ctl0, [⟨0, 32, .ro, 0⟩]⟩,
  ⟨.pressStale, .press, 0x58, 1, 4, .all, [⟨0, 32, .ro, 0⟩]⟩,
  ⟨.pressElemsLo, .press, 0x60, 1, 4, .all, [⟨0, 32, .ro, 0⟩]⟩,
  ⟨.pressElemsHi, .press, 0x64, 1, 4, .all, [⟨0, 32, .ro, 0⟩]⟩,
  ⟨.pressProofStatus, .press, 0x100, 1, 4, .ctl0, [⟨0, 1, .ro, 0⟩, ⟨1, 1, .ro, 0⟩, ⟨2, 1, .ro, 0⟩, ⟨3, 1, .ro, 0⟩, ⟨4, 1, .ro, 0⟩, ⟨8, 8, .ro, 1⟩]⟩]

def regsPress1 : List RegDef := [
  ⟨.pressProofStep, .press, 0x104, 1, 4, .ctl0, [⟨0, 32, .ro, 0xffffffff⟩]⟩,
  ⟨.pressProofJobstep, .press, 0x108, 1, 4, .ctl0, [⟨0, 32, .ro, 0xffffffff⟩]⟩,
  ⟨.pressProofSeqLo, .press, 0x110, 1, 4, .ctl0, [⟨0, 32, .ro, 0⟩]⟩,
  ⟨.pressProofSeqHi, .press, 0x114, 1, 4, .ctl0, [⟨0, 32, .ro, 0⟩]⟩,
  ⟨.pressMirrorCfg, .press, 0x120, 1, 4, .ctl0, [⟨0, 8, .rwl, 0⟩, ⟨8, 12, .rwl, 0⟩]⟩,
  ⟨.pressMirrorCtl, .press, 0x124, 1, 4, .ctl0, [⟨0, 1, .rw, 0⟩, ⟨1, 1, .ro, 0⟩]⟩,
  ⟨.pressMirrorHeld, .press, 0x130, 1, 4, .ctl0, [⟨0, 1, .ro, 0⟩, ⟨1, 2, .ro, 0⟩, ⟨3, 3, .ro, 0⟩, ⟨6, 12, .ro, 0⟩]⟩,
  ⟨.pressMirrorHeldStep, .press, 0x134, 1, 4, .ctl0, [⟨0, 32, .ro, 0xffffffff⟩]⟩,
  ⟨.pressMirrorRxLo, .press, 0x138, 1, 4, .ctl0, [⟨0, 32, .ro, 0⟩]⟩,
  ⟨.pressMirrorRxHi, .press, 0x13c, 1, 4, .ctl0, [⟨0, 32, .ro, 0⟩]⟩,
  ⟨.pressMirrorSpoiled, .press, 0x140, 1, 4, .ctl0, [⟨0, 32, .ro, 0⟩]⟩]

def regsPress : List RegDef := regsPress0 ++ regsPress1

def regsLnk : List RegDef := [
  ⟨.lnkStatus, .lnk, 0x0, 1, 4, .all, [⟨0, 1, .ro, 0⟩, ⟨1, 3, .ro, 0⟩, ⟨4, 1, .ro, 0⟩, ⟨5, 1, .ro, 0⟩, ⟨6, 1, .ro, 0⟩, ⟨8, 4, .ro, 0⟩]⟩,
  ⟨.lnkCfg, .lnk, 0x4, 1, 4, .all, [⟨0, 1, .rw, 1⟩, ⟨1, 2, .rw, 3⟩, ⟨3, 1, .rw, 1⟩, ⟨4, 8, .rw, 0xc⟩, ⟨12, 12, .rw, 0x10⟩]⟩,
  ⟨.lnkCtl, .lnk, 0x8, 1, 4, .all, [⟨0, 1, .w1s, 0⟩, ⟨1, 1, .rw, 0⟩]⟩,
  ⟨.lnkPeer, .lnk, 0xc, 1, 4, .all, [⟨0, 3, .ro, 0⟩, ⟨3, 12, .ro, 0⟩, ⟨15, 4, .ro, 0⟩, ⟨31, 1, .ro, 0⟩]⟩,
  ⟨.lnkPlevel, .lnk, 0x10, 1, 4, .all, [⟨0, 16, .ro, 1⟩, ⟨16, 8, .ro, 0⟩]⟩,
  ⟨.lnkLanes, .lnk, 0x14, 1, 4, .all, [⟨0, 9, .ro, 0⟩, ⟨9, 9, .ro, 0⟩, ⟨18, 4, .ro, 8⟩, ⟨22, 4, .ro, 0xf⟩, ⟨26, 4, .ro, 0xf⟩]⟩,
  ⟨.lnkMargin, .lnk, 0x20, 9, 4, .all, [⟨0, 8, .ro, 0⟩, ⟨8, 8, .ro, 0⟩, ⟨16, 16, .ro, 0⟩]⟩,
  ⟨.lnkFecCeLo, .lnk, 0x50, 1, 4, .all, [⟨0, 32, .ro, 0⟩]⟩,
  ⟨.lnkFecCeHi, .lnk, 0x54, 1, 4, .all, [⟨0, 32, .ro, 0⟩]⟩,
  ⟨.lnkFecUe, .lnk, 0x58, 1, 4, .all, [⟨0, 32, .ro, 0⟩]⟩,
  ⟨.lnkReplay, .lnk, 0x5c, 1, 4, .all, [⟨0, 32, .ro, 0⟩]⟩,
  ⟨.lnkSwaps, .lnk, 0x60, 1, 4, .all, [⟨0, 16, .ro, 0⟩, ⟨16, 16, .ro, 0⟩]⟩,
  ⟨.lnkTxFlitsLo, .lnk, 0x70, 1, 4, .all, [⟨0, 32, .ro, 0⟩]⟩,
  ⟨.lnkTxFlitsHi, .lnk, 0x74, 1, 4, .all, [⟨0, 32, .ro, 0⟩]⟩,
  ⟨.lnkRxFlitsLo, .lnk, 0x78, 1, 4, .all, [⟨0, 32, .ro, 0⟩]⟩,
  ⟨.lnkRxFlitsHi, .lnk, 0x7c, 1, 4, .all, [⟨0, 32, .ro, 0⟩]⟩,
  ⟨.lnkRed, .lnk, 0x80, 1, 4, .all, [⟨0, 16, .ro, 0⟩, ⟨16, 16, .ro, 0⟩]⟩,
  ⟨.lnkFault, .lnk, 0x90, 1, 4, .all, [⟨0, 4, .ro, 0⟩, ⟨4, 3, .ro, 0⟩, ⟨31, 1, .w1c, 0⟩]⟩,
  ⟨.lnkMap, .lnk, 0x8000, 1024, 4, .port0, [⟨0, 5, .rwl, 0x1f⟩, ⟨8, 5, .rwl, 0x1f⟩, ⟨16, 5, .rwl, 0x1f⟩, ⟨24, 5, .rwl, 0x1f⟩]⟩]

def regsHst : List RegDef := [
  ⟨.hstStatus, .hst, 0x0, 1, 4, .all, [⟨0, 1, .ro, 0⟩, ⟨1, 1, .ro, 0⟩, ⟨2, 1, .ro, 0⟩, ⟨3, 2, .ro, 0⟩]⟩,
  ⟨.hstJob, .hst, 0x4, 1, 4, .all, [⟨0, 4, .ro, 0⟩, ⟨4, 4, .ro, 0⟩, ⟨8, 8, .ro, 0⟩, ⟨16, 1, .ro, 0⟩]⟩,
  ⟨.hstCaps, .hst, 0x8, 1, 4, .all, [⟨0, 8, .ro, 1⟩, ⟨8, 8, .ro, 1⟩, ⟨16, 8, .ro, 1⟩]⟩,
  ⟨.hstCmdBaseLo, .hst, 0x10, 1, 4, .all, [⟨0, 32, .rwl, 0⟩]⟩,
  ⟨.hstCmdBaseHi, .hst, 0x14, 1, 4, .all, [⟨0, 7, .rwl, 0⟩]⟩,
  ⟨.hstCmdSize, .hst, 0x18, 1, 4, .all, [⟨0, 4, .rwl, 6⟩]⟩,
  ⟨.hstCmdTail, .hst, 0x1c, 1, 4, .all, [⟨0, 12, .rw, 0⟩]⟩,
  ⟨.hstCmdHead, .hst, 0x20, 1, 4, .all, [⟨0, 12, .ro, 0⟩]⟩,
  ⟨.hstCplBaseLo, .hst, 0x30, 1, 4, .all, [⟨0, 32, .rwl, 0⟩]⟩,
  ⟨.hstCplBaseHi, .hst, 0x34, 1, 4, .all, [⟨0, 7, .rwl, 0⟩]⟩,
  ⟨.hstCplSize, .hst, 0x38, 1, 4, .all, [⟨0, 4, .rwl, 8⟩]⟩,
  ⟨.hstCplTail, .hst, 0x3c, 1, 4, .all, [⟨0, 14, .ro, 0⟩]⟩,
  ⟨.hstCplHead, .hst, 0x40, 1, 4, .all, [⟨0, 14, .rw, 0⟩]⟩,
  ⟨.hstErr, .hst, 0x44, 1, 4, .all, [⟨0, 16, .ro, 0⟩, ⟨16, 16, .ro, 0⟩]⟩,
  ⟨.hstIrqAddrLo, .hst, 0x50, 1, 4, .all, [⟨0, 32, .rw, 0⟩]⟩,
  ⟨.hstIrqAddrHi, .hst, 0x54, 1, 4, .all, [⟨0, 32, .rw, 0⟩]⟩,
  ⟨.hstIrqData, .hst, 0x58, 1, 4, .all, [⟨0, 32, .rw, 0⟩]⟩,
  ⟨.hstIrqCtl, .hst, 0x5c, 1, 4, .all, [⟨0, 4, .rw, 0xf⟩, ⟨8, 8, .rw, 2⟩]⟩,
  ⟨.hstHb, .hst, 0x60, 1, 4, .all, [⟨0, 32, .wo, 0⟩]⟩,
  ⟨.hstHbAddrLo, .hst, 0x64, 1, 4, .all, [⟨0, 32, .rw, 0⟩]⟩,
  ⟨.hstHbAddrHi, .hst, 0x68, 1, 4, .all, [⟨0, 32, .rw, 0⟩]⟩,
  ⟨.hstHbCount, .hst, 0x6c, 1, 4, .all, [⟨0, 16, .ro, 0⟩, ⟨16, 16, .ro, 0⟩]⟩,
  ⟨.hstCplStage, .hst, 0x80, 8, 4, .all, [⟨0, 32, .rw, 0⟩]⟩,
  ⟨.hstCplPush, .hst, 0xa0, 1, 4, .all, [⟨0, 1, .wo, 0⟩]⟩]

def regsPwr : List RegDef := [
  ⟨.pwrStatus, .pwr, 0x0, 1, 4, .all, [⟨0, 2, .ro, 0⟩, ⟨2, 4, .ro, 0⟩, ⟨6, 1, .ro, 0⟩, ⟨7, 1, .ro, 0⟩, ⟨8, 1, .ro, 0⟩]⟩,
  ⟨.pwrLimit, .pwr, 0x4, 1, 4, .all, [⟨0, 10, .rw, 0x2bc⟩, ⟨16, 10, .rw, 0x334⟩]⟩,
  ⟨.pwrNow, .pwr, 0x8, 1, 4, .all, [⟨0, 10, .ro, 0⟩, ⟨16, 10, .ro, 0⟩]⟩,
  ⟨.pwrVin, .pwr, 0xc, 1, 4, .all, [⟨0, 12, .ro, 0⟩, ⟨16, 10, .ro, 0⟩]⟩,
  ⟨.pwrDip, .pwr, 0x10, 1, 4, .all, [⟨0, 4, .ro, 0⟩, ⟨4, 12, .ro, 0xfff⟩, ⟨16, 16, .ro, 0⟩]⟩,
  ⟨.pwrReefUs, .pwr, 0x20, 4, 4, .all, [⟨0, 32, .ro, 0⟩]⟩,
  ⟨.pwrIslSel, .pwr, 0x30, 1, 4, .all, [⟨0, 7, .rw, 0⟩]⟩,
  ⟨.pwrIslData, .pwr, 0x34, 1, 4, .all, [⟨0, 10, .ro, 0⟩, ⟨10, 12, .ro, 0⟩, ⟨22, 2, .ro, 0⟩, ⟨24, 1, .ro, 0⟩]⟩,
  ⟨.pwrTherm, .pwr, 0x40, 1, 4, .all, [⟨0, 8, .ro, 0⟩, ⟨8, 7, .ro, 0⟩, ⟨15, 1, .ro, 0⟩, ⟨16, 8, .ro, 0⟩]⟩,
  ⟨.pwrThermCfg, .pwr, 0x44, 1, 4, .all, [⟨0, 8, .rw, 0x5f⟩]⟩,
  ⟨.pwrAlert, .pwr, 0x48, 1, 4, .all, [⟨0, 1, .w1c, 0⟩, ⟨1, 1, .w1c, 0⟩, ⟨2, 1, .w1c, 0⟩, ⟨3, 1, .w1c, 0⟩, ⟨8, 4, .rw, 0⟩]⟩,
  ⟨.clkLock, .pwr, 0x100, 3, 4, .all, [⟨0, 32, .ro, 0⟩]⟩,
  ⟨.clkRef, .pwr, 0x110, 1, 4, .all, [⟨0, 1, .ro, 0⟩, ⟨8, 8, .ro, 0⟩, ⟨16, 16, .ro, 0⟩]⟩,
  ⟨.clkTbLo, .pwr, 0x120, 1, 4, .all, [⟨0, 32, .ro, 0⟩]⟩,
  ⟨.clkTbHi, .pwr, 0x124, 1, 4, .all, [⟨0, 32, .ro, 0⟩]⟩,
  ⟨.clkTbLatchLo, .pwr, 0x128, 1, 4, .all, [⟨0, 32, .ro, 0⟩]⟩,
  ⟨.clkTbLatchHi, .pwr, 0x12c, 1, 4, .all, [⟨0, 32, .ro, 0⟩]⟩,
  ⟨.clkTbCfg, .pwr, 0x130, 1, 4, .all, [⟨0, 1, .w1s, 0⟩, ⟨16, 16, .ro, 0⟩]⟩,
  ⟨.clkTbLoadLo, .pwr, 0x138, 1, 4, .all, [⟨0, 32, .rw, 0⟩]⟩,
  ⟨.clkTbLoadHi, .pwr, 0x13c, 1, 4, .all, [⟨0, 32, .rw, 0⟩]⟩]

def regsYard0 : List RegDef := [
  ⟨.yardHarvest, .yard, 0x0, 1, 4, .all, [⟨0, 5, .ro, 0⟩, ⟨5, 2, .ro, 0⟩, ⟨8, 24, .ro, 0⟩]⟩,
  ⟨.yardFurlPending, .yard, 0x4, 1, 4, .all, [⟨0, 24, .ro, 0⟩, ⟨31, 1, .ro, 0⟩]⟩,
  ⟨.yardSliceOwner, .yard, 0x100, 8, 4, .all, [⟨0, 32, .ro, 0x18181818⟩]⟩,
  ⟨.yardSliceNext, .yard, 0x120, 8, 4, .all, [⟨0, 32, .rw, 0x18181818⟩]⟩,
  ⟨.yardSliceCtl, .yard, 0x140, 1, 4, .all, [⟨0, 4, .rw, 0⟩, ⟨4, 1, .w1s, 0⟩]⟩,
  ⟨.yardCaseEcc, .yard, 0x150, 1, 4, .all, [⟨0, 16, .ro, 0⟩, ⟨16, 1, .w1c, 0⟩, ⟨17, 5, .ro, 0⟩, ⟨31, 1, .ro, 0⟩]⟩,
  ⟨.yardCaseEccAddr, .yard, 0x154, 1, 4, .all, [⟨0, 26, .ro, 0⟩]⟩,
  ⟨.yardCaseScrub, .yard, 0x158, 1, 4, .all, [⟨0, 32, .ro, 0⟩]⟩,
  ⟨.yardConflict, .yard, 0x200, 25, 4, .all, [⟨0, 32, .rw, 0⟩]⟩,
  ⟨.yardRtrStatus, .yard, 0x300, 1, 4, .all, [⟨0, 1, .ro, 0⟩, ⟨1, 1, .ro, 0⟩, ⟨2, 2, .ro, 0⟩]⟩,
  ⟨.yardRtrDrop, .yard, 0x304, 1, 4, .all, [⟨0, 32, .ro, 0⟩]⟩,
  ⟨.yardRtrRetry, .yard, 0x308, 1, 4, .all, [⟨0, 32, .ro, 0⟩]⟩,
  ⟨.yardRtrRed, .yard, 0x30c, 1, 4, .all, [⟨0, 16, .ro, 0⟩, ⟨16, 16, .ro, 0⟩]⟩,
  ⟨.yardRtrFlitsLo, .yard, 0x310, 1, 4, .all, [⟨0, 32, .ro, 0⟩]⟩,
  ⟨.yardRtrFlitsHi, .yard, 0x314, 1, 4, .all, [⟨0, 32, .ro, 0⟩]⟩,
  ⟨.yardSqState, .yard, 0x400, 1, 4, .all, [⟨0, 1, .ro, 1⟩, ⟨1, 7, .ro, 0⟩, ⟨8, 6, .ro, 0⟩, ⟨31, 1, .ro, 0⟩]⟩,
  ⟨.yardSqCfg, .yard, 0x404, 1, 4, .all, [⟨0, 5, .rwl, 0⟩]⟩,
  ⟨.yardSqVictim, .yard, 0x408, 1, 4, .all, [⟨0, 32, .rwl, 0⟩]⟩,
  ⟨.yardSqSlotBaseLo, .yard, 0x410, 1, 4, .all, [⟨0, 32, .rwl, 0⟩]⟩,
  ⟨.yardSqSlotBaseHi, .yard, 0x414, 1, 4, .all, [⟨0, 16, .rwl, 0⟩]⟩,
  ⟨.yardSqSlotSize, .yard, 0x418, 1, 4, .all, [⟨0, 20, .rwl, 0⟩]⟩,
  ⟨.yardSqSlotCount, .yard, 0x41c, 1, 4, .all, [⟨0, 11, .rwl, 0⟩]⟩,
  ⟨.yardSqWaveOpen, .yard, 0x420, 1, 4, .all, [⟨0, 16, .w1s, 0⟩]⟩,
  ⟨.yardSqWave, .yard, 0x440, 16, 4, .all, [⟨0, 16, .ro, 0⟩, ⟨16, 16, .ro, 0⟩]⟩]

def regsYard1 : List RegDef := [
  ⟨.yardSqStolen, .yard, 0x480, 1, 4, .all, [⟨0, 16, .ro, 0⟩, ⟨16, 16, .ro, 0⟩]⟩,
  ⟨.yardSqFault, .yard, 0x490, 1, 4, .all, [⟨0, 3, .ro, 0⟩, ⟨3, 5, .ro, 0⟩, ⟨8, 6, .ro, 0⟩, ⟨14, 16, .ro, 0⟩, ⟨30, 1, .ro, 0⟩, ⟨31, 1, .w1c, 0⟩]⟩]

def regsYard : List RegDef := regsYard0 ++ regsYard1

def regsTile0 : List RegDef := [
  ⟨.tileIdent, .tile, 0x0, 1, 4, .all, [⟨0, 2, .ro, 0⟩, ⟨2, 2, .ro, 0⟩, ⟨4, 11, .ro, 0⟩, ⟨16, 11, .ro, 0⟩]⟩,
  ⟨.tileMtStatus, .tile, 0x100, 1, 4, .mt, [⟨0, 8, .ro, 0⟩, ⟨8, 8, .ro, 0⟩, ⟨16, 3, .ro, 0⟩, ⟨19, 3, .ro, 0⟩, ⟨22, 2, .ro, 0⟩, ⟨24, 2, .ro, 0⟩, ⟨26, 4, .ro, 0⟩, ⟨31, 1, .ro, 0⟩]⟩,
  ⟨.tileMtGflags, .tile, 0x104, 1, 4, .mt, [⟨0, 8, .ro, 0⟩, ⟨8, 8, .ro, 0⟩, ⟨16, 8, .ro, 0⟩, ⟨24, 8, .ro, 0⟩]⟩,
  ⟨.tileMtSticky, .tile, 0x108, 1, 4, .mt, [⟨0, 1, .w1c, 0⟩, ⟨1, 1, .w1c, 0⟩, ⟨2, 1, .w1c, 0⟩, ⟨3, 1, .w1c, 0⟩, ⟨4, 1, .w1c, 0⟩]⟩,
  ⟨.tileMtFault, .tile, 0x10c, 1, 4, .mt, [⟨0, 4, .ro, 0⟩, ⟨4, 1, .ro, 0⟩, ⟨5, 3, .ro, 0⟩, ⟨8, 1, .ro, 0⟩, ⟨9, 3, .ro, 0⟩, ⟨12, 19, .ro, 0⟩, ⟨31, 1, .w1c, 0⟩]⟩,
  ⟨.tileMtEpamax, .tile, 0x120, 8, 4, .mt, [⟨0, 32, .rw, 0⟩]⟩,
  ⟨.tileMtBusyLo, .tile, 0x140, 1, 4, .mt, [⟨0, 32, .ro, 0⟩]⟩,
  ⟨.tileMtBusyHi, .tile, 0x144, 1, 4, .mt, [⟨0, 32, .ro, 0⟩]⟩,
  ⟨.tileMtDbgaddr, .tile, 0x180, 1, 4, .mt, [⟨0, 1, .rw, 0⟩, ⟨1, 3, .rw, 0⟩, ⟨4, 7, .rw, 0⟩, ⟨11, 6, .rw, 0⟩, ⟨17, 2, .rw, 0⟩]⟩,
  ⟨.tileMtDbgdata, .tile, 0x184, 1, 4, .mt, [⟨0, 32, .ro, 0⟩]⟩,
  ⟨.tileVecSticky, .tile, 0x200, 1, 4, .all, [⟨0, 1, .w1c, 0⟩, ⟨1, 1, .w1c, 0⟩, ⟨2, 1, .w1c, 0⟩, ⟨3, 1, .w1c, 0⟩, ⟨4, 1, .w1c, 0⟩]⟩,
  ⟨.tileVecBusyLo, .tile, 0x208, 1, 4, .all, [⟨0, 32, .ro, 0⟩]⟩,
  ⟨.tileVecBusyHi, .tile, 0x20c, 1, 4, .all, [⟨0, 32, .ro, 0⟩]⟩,
  ⟨.tileVtQstatus, .tile, 0x300, 1, 4, .vt, [⟨0, 3, .ro, 0⟩, ⟨3, 3, .ro, 0⟩, ⟨6, 3, .ro, 0⟩, ⟨16, 16, .ro, 0⟩]⟩,
  ⟨.tileCtCores, .tile, 0x400, 1, 4, .ct, [⟨0, 8, .ro, 0⟩, ⟨8, 2, .ro, 0⟩, ⟨31, 1, .ro, 0⟩]⟩,
  ⟨.tileCtDescStatus, .tile, 0x404, 1, 4, .ct, [⟨0, 20, .ro, 0⟩, ⟨20, 4, .ro, 0⟩, ⟨24, 4, .ro, 0⟩]⟩,
  ⟨.tileCtDescDone, .tile, 0x410, 4, 4, .ct, [⟨0, 32, .ro, 0⟩]⟩,
  ⟨.tileCtDescFault, .tile, 0x420, 1, 4, .ct, [⟨0, 2, .ro, 0⟩, ⟨2, 4, .ro, 0⟩, ⟨6, 2, .ro, 0⟩, ⟨31, 1, .w1c, 0⟩]⟩,
  ⟨.tileProgFault, .tile, 0x10, 1, 4, .all, [⟨0, 4, .ro, 0⟩, ⟨4, 2, .ro, 0⟩, ⟨6, 5, .ro, 0⟩, ⟨11, 7, .ro, 0⟩, ⟨30, 1, .ro, 0⟩, ⟨31, 1, .w1c, 0⟩]⟩,
  ⟨.tileProgPc, .tile, 0x14, 1, 4, .all, [⟨0, 19, .ro, 0⟩]⟩,
  ⟨.tileProgAddrLo, .tile, 0x18, 1, 4, .all, [⟨0, 32, .ro, 0⟩]⟩,
  ⟨.tileProgAddrHi, .tile, 0x1c, 1, 4, .all, [⟨0, 32, .ro, 0⟩]⟩,
  ⟨.tileDbgMark, .tile, 0x20, 1, 4, .all, [⟨0, 32, .ro, 0⟩]⟩,
  ⟨.tileFlags, .tile, 0x24, 1, 4, .all, [⟨0, 32, .ro, 0⟩]⟩]

def regsTile1 : List RegDef := [
  ⟨.tileCorePc, .tile, 0x30, 4, 4, .all, [⟨0, 19, .ro, 0⟩, ⟨30, 2, .ro, 0⟩]⟩,
  ⟨.tileIssueLo, .tile, 0x40, 1, 4, .all, [⟨0, 32, .ro, 0⟩]⟩,
  ⟨.tileIssueHi, .tile, 0x44, 1, 4, .all, [⟨0, 32, .ro, 0⟩]⟩,
  ⟨.tileStallLo, .tile, 0x48, 1, 4, .all, [⟨0, 32, .ro, 0⟩]⟩,
  ⟨.tileStallHi, .tile, 0x4c, 1, 4, .all, [⟨0, 32, .ro, 0⟩]⟩,
  ⟨.tileBankOwner, .tile, 0x500, 1, 4, .all, [⟨0, 32, .ro, 0⟩]⟩,
  ⟨.tileBankNext, .tile, 0x504, 1, 4, .all, [⟨0, 32, .rw, 0⟩]⟩,
  ⟨.tileEccStatus, .tile, 0x508, 1, 4, .all, [⟨0, 16, .ro, 0⟩, ⟨16, 1, .w1c, 0⟩, ⟨17, 4, .ro, 0⟩, ⟨31, 1, .ro, 0⟩]⟩,
  ⟨.tileEccAddr, .tile, 0x50c, 1, 4, .all, [⟨0, 19, .ro, 0⟩]⟩,
  ⟨.tileEccScrub, .tile, 0x510, 1, 4, .all, [⟨0, 32, .ro, 0⟩]⟩,
  ⟨.tileGalleyFault, .tile, 0x520, 1, 4, .all, [⟨0, 4, .ro, 0⟩, ⟨4, 4, .ro, 0⟩, ⟨8, 4, .ro, 0⟩, ⟨12, 4, .ro, 0⟩, ⟨16, 1, .ro, 0⟩, ⟨17, 8, .ro, 0⟩, ⟨31, 1, .w1c, 0⟩]⟩,
  ⟨.tileConflict, .tile, 0x540, 12, 4, .all, [⟨0, 32, .rw, 0⟩]⟩,
  ⟨.tileGstatLo, .tile, 0x600, 16, 8, .all, [⟨0, 8, .ro, 0⟩, ⟨8, 8, .ro, 0⟩, ⟨16, 8, .ro, 0⟩, ⟨24, 8, .ro, 0⟩]⟩,
  ⟨.tileGstatHi, .tile, 0x604, 16, 8, .all, [⟨0, 8, .ro, 0⟩, ⟨8, 8, .ro, 0⟩, ⟨16, 1, .ro, 0⟩, ⟨17, 1, .ro, 0⟩, ⟨18, 1, .ro, 0⟩]⟩,
  ⟨.tileXchStatus, .tile, 0x700, 1, 4, .all, [⟨0, 4, .ro, 0⟩, ⟨4, 2, .ro, 0⟩, ⟨6, 1, .ro, 0⟩, ⟨16, 16, .ro, 0⟩]⟩,
  ⟨.tileXchFault, .tile, 0x704, 1, 4, .all, [⟨0, 3, .ro, 0⟩, ⟨3, 9, .ro, 0⟩, ⟨12, 16, .ro, 0⟩, ⟨31, 1, .w1c, 0⟩]⟩,
  ⟨.tileXchSticky, .tile, 0x708, 1, 4, .all, [⟨0, 1, .w1c, 0⟩, ⟨1, 1, .w1c, 0⟩]⟩,
  ⟨.tileHalMember, .tile, 0x710, 1, 4, .all, [⟨0, 16, .rwl, 0⟩]⟩,
  ⟨.tileHalFlagdef, .tile, 0x714, 1, 4, .all, [⟨0, 32, .rwl, 0⟩]⟩,
  ⟨.tileHalFlagmap, .tile, 0x718, 3, 4, .all, [⟨0, 32, .rwl, 0⟩]⟩,
  ⟨.tileHalRflags, .tile, 0x724, 1, 4, .all, [⟨0, 32, .ro, 0⟩]⟩,
  ⟨.tileHalRbar, .tile, 0x728, 1, 4, .all, [⟨0, 4, .ro, 0⟩]⟩,
  ⟨.tileSqLand, .tile, 0x800, 1, 4, .mt, [⟨0, 19, .rwl, 0⟩]⟩,
  ⟨.tileSqHeld, .tile, 0x804, 1, 4, .mt, [⟨0, 2, .ro, 0⟩, ⟨2, 16, .ro, 0⟩]⟩]

def regsTile : List RegDef := regsTile0 ++ regsTile1

/-- The registers of a block. -/
def blockRegs : Block → List RegDef
  | .dev => regsDev
  | .bos => regsBos
  | .hal => regsHal
  | .hold => regsHold
  | .press => regsPress
  | .lnk => regsLnk
  | .hst => regsHst
  | .pwr => regsPwr
  | .yard => regsYard
  | .tile => regsTile

/-- Offset of a block's window from the start of control space, for instance `i` of it: a controller, port or yard number,
or a physical slot (R28). -/
def blockBase (b : Block) (i : Nat) : Nat :=
  match b with
  | .dev => 0
  | .bos => 0x100000
  | .hal => 0x200000
  | .hold => 0x300000 + i * 0x40000
  | .press => 0x300000 + i * 0x40000 + 0x20000
  | .lnk => 0x400000 + i * 0x10000
  | .hst => 0x500000
  | .pwr => 0x600000
  | .yard => 0x1000000 + i * 0x40000 + 0x30000
  | .tile => 0x1000000 + (i / 24) * 0x40000 + (i % 24) * 0x2000

/-- The register row a name stands for. -/
def RegName.row (n : RegName) (b : Block) : Option RegDef := (blockRegs b).find? (fun r => r.name = n)

/-! Offsets of the registers from the start of control space. -/

def Reg.devIdent : Nat := blockBase .dev 0 + 0x0
def Reg.devBoard : Nat := blockBase .dev 0 + 0x4
def Reg.devMap : Nat := blockBase .dev 0 + 0x8
def Reg.devTiles : Nat := blockBase .dev 0 + 0xc
def Reg.yardHarvest (y : Nat) : Nat := blockBase .yard y + 0x0
def Reg.yardFurlPending (y : Nat) : Nat := blockBase .yard y + 0x4
def Reg.tileIdent (p : Nat) : Nat := blockBase .tile p + 0x0
def Reg.devSeedLo : Nat := blockBase .dev 0 + 0x10
def Reg.devSeedHi : Nat := blockBase .dev 0 + 0x14
def Reg.devNumerics : Nat := blockBase .dev 0 + 0x18
def Reg.tileMtStatus (p : Nat) : Nat := blockBase .tile p + 0x100
def Reg.tileMtGflags (p : Nat) : Nat := blockBase .tile p + 0x104
def Reg.tileMtSticky (p : Nat) : Nat := blockBase .tile p + 0x108
def Reg.tileMtFault (p : Nat) : Nat := blockBase .tile p + 0x10c
def Reg.tileMtEpamax (p : Nat) (i : Nat) : Nat := blockBase .tile p + 0x120 + 4 * i
def Reg.tileMtBusyLo (p : Nat) : Nat := blockBase .tile p + 0x140
def Reg.tileMtBusyHi (p : Nat) : Nat := blockBase .tile p + 0x144
def Reg.tileMtDbgaddr (p : Nat) : Nat := blockBase .tile p + 0x180
def Reg.tileMtDbgdata (p : Nat) : Nat := blockBase .tile p + 0x184
def Reg.tileVecSticky (p : Nat) : Nat := blockBase .tile p + 0x200
def Reg.tileVecBusyLo (p : Nat) : Nat := blockBase .tile p + 0x208
def Reg.tileVecBusyHi (p : Nat) : Nat := blockBase .tile p + 0x20c
def Reg.tileVtQstatus (p : Nat) : Nat := blockBase .tile p + 0x300
def Reg.tileCtCores (p : Nat) : Nat := blockBase .tile p + 0x400
def Reg.tileCtDescStatus (p : Nat) : Nat := blockBase .tile p + 0x404
def Reg.tileCtDescDone (p : Nat) (i : Nat) : Nat := blockBase .tile p + 0x410 + 4 * i
def Reg.tileCtDescFault (p : Nat) : Nat := blockBase .tile p + 0x420
def Reg.tileProgFault (p : Nat) : Nat := blockBase .tile p + 0x10
def Reg.tileProgPc (p : Nat) : Nat := blockBase .tile p + 0x14
def Reg.tileProgAddrLo (p : Nat) : Nat := blockBase .tile p + 0x18
def Reg.tileProgAddrHi (p : Nat) : Nat := blockBase .tile p + 0x1c
def Reg.tileDbgMark (p : Nat) : Nat := blockBase .tile p + 0x20
def Reg.tileFlags (p : Nat) : Nat := blockBase .tile p + 0x24
def Reg.tileCorePc (p : Nat) (i : Nat) : Nat := blockBase .tile p + 0x30 + 4 * i
def Reg.tileIssueLo (p : Nat) : Nat := blockBase .tile p + 0x40
def Reg.tileIssueHi (p : Nat) : Nat := blockBase .tile p + 0x44
def Reg.tileStallLo (p : Nat) : Nat := blockBase .tile p + 0x48
def Reg.tileStallHi (p : Nat) : Nat := blockBase .tile p + 0x4c
def Reg.tileBankOwner (p : Nat) : Nat := blockBase .tile p + 0x500
def Reg.tileBankNext (p : Nat) : Nat := blockBase .tile p + 0x504
def Reg.tileEccStatus (p : Nat) : Nat := blockBase .tile p + 0x508
def Reg.tileEccAddr (p : Nat) : Nat := blockBase .tile p + 0x50c
def Reg.tileEccScrub (p : Nat) : Nat := blockBase .tile p + 0x510
def Reg.tileGalleyFault (p : Nat) : Nat := blockBase .tile p + 0x520
def Reg.tileConflict (p : Nat) (i : Nat) : Nat := blockBase .tile p + 0x540 + 4 * i
def Reg.tileGstatLo (p : Nat) (i : Nat) : Nat := blockBase .tile p + 0x600 + 8 * i
def Reg.tileGstatHi (p : Nat) (i : Nat) : Nat := blockBase .tile p + 0x604 + 8 * i
def Reg.yardSliceOwner (y : Nat) (i : Nat) : Nat := blockBase .yard y + 0x100 + 4 * i
def Reg.yardSliceNext (y : Nat) (i : Nat) : Nat := blockBase .yard y + 0x120 + 4 * i
def Reg.yardSliceCtl (y : Nat) : Nat := blockBase .yard y + 0x140
def Reg.yardCaseEcc (y : Nat) : Nat := blockBase .yard y + 0x150
def Reg.yardCaseEccAddr (y : Nat) : Nat := blockBase .yard y + 0x154
def Reg.yardCaseScrub (y : Nat) : Nat := blockBase .yard y + 0x158
def Reg.yardConflict (y : Nat) (i : Nat) : Nat := blockBase .yard y + 0x200 + 4 * i
def Reg.holdStatus (c : Nat) : Nat := blockBase .hold c + 0x0
def Reg.holdArb (c : Nat) : Nat := blockBase .hold c + 0x4
def Reg.holdEccLinkCe (c : Nat) : Nat := blockBase .hold c + 0x10
def Reg.holdEccRetry (c : Nat) : Nat := blockBase .hold c + 0x14
def Reg.holdEccUe (c : Nat) : Nat := blockBase .hold c + 0x18
def Reg.holdUeAddrLo (c : Nat) : Nat := blockBase .hold c + 0x20
def Reg.holdUeAddrHi (c : Nat) : Nat := blockBase .hold c + 0x24
def Reg.holdPathEcc (c : Nat) : Nat := blockBase .hold c + 0x28
def Reg.holdRetirePending (c : Nat) : Nat := blockBase .hold c + 0x30
def Reg.holdRepairLeft (c : Nat) : Nat := blockBase .hold c + 0x34
def Reg.holdRdBytesLo (c : Nat) : Nat := blockBase .hold c + 0x40
def Reg.holdRdBytesHi (c : Nat) : Nat := blockBase .hold c + 0x44
def Reg.holdWrBytesLo (c : Nat) : Nat := blockBase .hold c + 0x48
def Reg.holdWrBytesHi (c : Nat) : Nat := blockBase .hold c + 0x4c
def Reg.holdRfmCount (c : Nat) : Nat := blockBase .hold c + 0x50
def Reg.holdRgnBase (i : Nat) : Nat := blockBase .hold 0 + 0x10000 + 16 * i
def Reg.holdRgnSize (i : Nat) : Nat := blockBase .hold 0 + 0x10004 + 16 * i
def Reg.holdRgnAttr (i : Nat) : Nat := blockBase .hold 0 + 0x10008 + 16 * i
def Reg.halStatus : Nat := blockBase .hal 0 + 0x0
def Reg.halStep : Nat := blockBase .hal 0 + 0x4
def Reg.halDec : Nat := blockBase .hal 0 + 0x8
def Reg.halDecStep : Nat := blockBase .hal 0 + 0xc
def Reg.halDecFlags : Nat := blockBase .hal 0 + 0x10
def Reg.halStepCfg : Nat := blockBase .hal 0 + 0x20
def Reg.halSkipSet : Nat := blockBase .hal 0 + 0x24
def Reg.halFlagMode : Nat := blockBase .hal 0 + 0x28
def Reg.halBarScope : Nat := blockBase .hal 0 + 0x2c
def Reg.halCfg : Nat := blockBase .hal 0 + 0x30
def Reg.halJobBoard : Nat := blockBase .hal 0 + 0x34
def Reg.halJobTree : Nat := blockBase .hal 0 + 0x38
def Reg.halReleases : Nat := blockBase .hal 0 + 0x40
def Reg.halFault : Nat := blockBase .hal 0 + 0x50
def Reg.yardRtrStatus (y : Nat) : Nat := blockBase .yard y + 0x300
def Reg.yardRtrDrop (y : Nat) : Nat := blockBase .yard y + 0x304
def Reg.yardRtrRetry (y : Nat) : Nat := blockBase .yard y + 0x308
def Reg.yardRtrRed (y : Nat) : Nat := blockBase .yard y + 0x30c
def Reg.yardRtrFlitsLo (y : Nat) : Nat := blockBase .yard y + 0x310
def Reg.yardRtrFlitsHi (y : Nat) : Nat := blockBase .yard y + 0x314
def Reg.tileXchStatus (p : Nat) : Nat := blockBase .tile p + 0x700
def Reg.tileXchFault (p : Nat) : Nat := blockBase .tile p + 0x704
def Reg.tileXchSticky (p : Nat) : Nat := blockBase .tile p + 0x708
def Reg.tileHalMember (p : Nat) : Nat := blockBase .tile p + 0x710
def Reg.tileHalFlagdef (p : Nat) : Nat := blockBase .tile p + 0x714
def Reg.tileHalFlagmap (p : Nat) (i : Nat) : Nat := blockBase .tile p + 0x718 + 4 * i
def Reg.tileHalRflags (p : Nat) : Nat := blockBase .tile p + 0x724
def Reg.tileHalRbar (p : Nat) : Nat := blockBase .tile p + 0x728
def Reg.yardSqState (y : Nat) : Nat := blockBase .yard y + 0x400
def Reg.yardSqCfg (y : Nat) : Nat := blockBase .yard y + 0x404
def Reg.yardSqVictim (y : Nat) : Nat := blockBase .yard y + 0x408
def Reg.yardSqSlotBaseLo (y : Nat) : Nat := blockBase .yard y + 0x410
def Reg.yardSqSlotBaseHi (y : Nat) : Nat := blockBase .yard y + 0x414
def Reg.yardSqSlotSize (y : Nat) : Nat := blockBase .yard y + 0x418
def Reg.yardSqSlotCount (y : Nat) : Nat := blockBase .yard y + 0x41c
def Reg.yardSqWaveOpen (y : Nat) : Nat := blockBase .yard y + 0x420
def Reg.yardSqWave (y : Nat) (i : Nat) : Nat := blockBase .yard y + 0x440 + 4 * i
def Reg.yardSqStolen (y : Nat) : Nat := blockBase .yard y + 0x480
def Reg.yardSqFault (y : Nat) : Nat := blockBase .yard y + 0x490
def Reg.tileSqLand (p : Nat) : Nat := blockBase .tile p + 0x800
def Reg.tileSqHeld (p : Nat) : Nat := blockBase .tile p + 0x804
def Reg.pressStatus (c : Nat) : Nat := blockBase .press c + 0x0
def Reg.pressCfg : Nat := blockBase .press 0 + 0x4
def Reg.pressLtBaseLo : Nat := blockBase .press 0 + 0x8
def Reg.pressLtBaseHi : Nat := blockBase .press 0 + 0xc
def Reg.pressLtCount : Nat := blockBase .press 0 + 0x10
def Reg.pressRuleBaseLo : Nat := blockBase .press 0 + 0x14
def Reg.pressRuleBaseHi : Nat := blockBase .press 0 + 0x18
def Reg.pressRecOff : Nat := blockBase .press 0 + 0x1c
def Reg.pressScaleOff : Nat := blockBase .press 0 + 0x2c
def Reg.pressProgress (c : Nat) : Nat := blockBase .press c + 0x20
def Reg.pressReady : Nat := blockBase .press 0 + 0x24
def Reg.pressCopyIn : Nat := blockBase .press 0 + 0x28
def Reg.pressStepSize : Nat := blockBase .press 0 + 0x30
def Reg.pressStepTag : Nat := blockBase .press 0 + 0x34
def Reg.pressSsq : Nat := blockBase .press 0 + 0x38
def Reg.pressSsLatched : Nat := blockBase .press 0 + 0x3c
def Reg.pressSsStep : Nat := blockBase .press 0 + 0x40
def Reg.pressAgeDigest (c : Nat) : Nat := blockBase .press c + 0x44
def Reg.pressFault (c : Nat) : Nat := blockBase .press c + 0x50
def Reg.pressDiscard : Nat := blockBase .press 0 + 0x54
def Reg.pressStale (c : Nat) : Nat := blockBase .press c + 0x58
def Reg.pressElemsLo (c : Nat) : Nat := blockBase .press c + 0x60
def Reg.pressElemsHi (c : Nat) : Nat := blockBase .press c + 0x64
def Reg.pressProofStatus : Nat := blockBase .press 0 + 0x100
def Reg.pressProofStep : Nat := blockBase .press 0 + 0x104
def Reg.pressProofJobstep : Nat := blockBase .press 0 + 0x108
def Reg.pressProofSeqLo : Nat := blockBase .press 0 + 0x110
def Reg.pressProofSeqHi : Nat := blockBase .press 0 + 0x114
def Reg.pressMirrorCfg : Nat := blockBase .press 0 + 0x120
def Reg.pressMirrorCtl : Nat := blockBase .press 0 + 0x124
def Reg.pressMirrorHeld : Nat := blockBase .press 0 + 0x130
def Reg.pressMirrorHeldStep : Nat := blockBase .press 0 + 0x134
def Reg.pressMirrorRxLo : Nat := blockBase .press 0 + 0x138
def Reg.pressMirrorRxHi : Nat := blockBase .press 0 + 0x13c
def Reg.pressMirrorSpoiled : Nat := blockBase .press 0 + 0x140
def Reg.lnkStatus (n : Nat) : Nat := blockBase .lnk n + 0x0
def Reg.lnkCfg (n : Nat) : Nat := blockBase .lnk n + 0x4
def Reg.lnkCtl (n : Nat) : Nat := blockBase .lnk n + 0x8
def Reg.lnkPeer (n : Nat) : Nat := blockBase .lnk n + 0xc
def Reg.lnkPlevel (n : Nat) : Nat := blockBase .lnk n + 0x10
def Reg.lnkLanes (n : Nat) : Nat := blockBase .lnk n + 0x14
def Reg.lnkMargin (n : Nat) (i : Nat) : Nat := blockBase .lnk n + 0x20 + 4 * i
def Reg.lnkFecCeLo (n : Nat) : Nat := blockBase .lnk n + 0x50
def Reg.lnkFecCeHi (n : Nat) : Nat := blockBase .lnk n + 0x54
def Reg.lnkFecUe (n : Nat) : Nat := blockBase .lnk n + 0x58
def Reg.lnkReplay (n : Nat) : Nat := blockBase .lnk n + 0x5c
def Reg.lnkSwaps (n : Nat) : Nat := blockBase .lnk n + 0x60
def Reg.lnkTxFlitsLo (n : Nat) : Nat := blockBase .lnk n + 0x70
def Reg.lnkTxFlitsHi (n : Nat) : Nat := blockBase .lnk n + 0x74
def Reg.lnkRxFlitsLo (n : Nat) : Nat := blockBase .lnk n + 0x78
def Reg.lnkRxFlitsHi (n : Nat) : Nat := blockBase .lnk n + 0x7c
def Reg.lnkRed (n : Nat) : Nat := blockBase .lnk n + 0x80
def Reg.lnkFault (n : Nat) : Nat := blockBase .lnk n + 0x90
def Reg.lnkMap (i : Nat) : Nat := blockBase .lnk 0 + 0x8000 + 4 * i
def Reg.hstStatus : Nat := blockBase .hst 0 + 0x0
def Reg.hstJob : Nat := blockBase .hst 0 + 0x4
def Reg.hstCaps : Nat := blockBase .hst 0 + 0x8
def Reg.hstCmdBaseLo : Nat := blockBase .hst 0 + 0x10
def Reg.hstCmdBaseHi : Nat := blockBase .hst 0 + 0x14
def Reg.hstCmdSize : Nat := blockBase .hst 0 + 0x18
def Reg.hstCmdTail : Nat := blockBase .hst 0 + 0x1c
def Reg.hstCmdHead : Nat := blockBase .hst 0 + 0x20
def Reg.hstCplBaseLo : Nat := blockBase .hst 0 + 0x30
def Reg.hstCplBaseHi : Nat := blockBase .hst 0 + 0x34
def Reg.hstCplSize : Nat := blockBase .hst 0 + 0x38
def Reg.hstCplTail : Nat := blockBase .hst 0 + 0x3c
def Reg.hstCplHead : Nat := blockBase .hst 0 + 0x40
def Reg.hstErr : Nat := blockBase .hst 0 + 0x44
def Reg.hstIrqAddrLo : Nat := blockBase .hst 0 + 0x50
def Reg.hstIrqAddrHi : Nat := blockBase .hst 0 + 0x54
def Reg.hstIrqData : Nat := blockBase .hst 0 + 0x58
def Reg.hstIrqCtl : Nat := blockBase .hst 0 + 0x5c
def Reg.hstHb : Nat := blockBase .hst 0 + 0x60
def Reg.hstHbAddrLo : Nat := blockBase .hst 0 + 0x64
def Reg.hstHbAddrHi : Nat := blockBase .hst 0 + 0x68
def Reg.hstHbCount : Nat := blockBase .hst 0 + 0x6c
def Reg.hstCplStage (i : Nat) : Nat := blockBase .hst 0 + 0x80 + 4 * i
def Reg.hstCplPush : Nat := blockBase .hst 0 + 0xa0
def Reg.bosMbCmd (i : Nat) : Nat := blockBase .bos 0 + 0x0 + 4 * i
def Reg.bosMbRsp (i : Nat) : Nat := blockBase .bos 0 + 0x40 + 4 * i
def Reg.bosMbCtl : Nat := blockBase .bos 0 + 0x60
def Reg.bosMbStatus : Nat := blockBase .bos 0 + 0x64
def Reg.bosBootStatus : Nat := blockBase .bos 0 + 0x100
def Reg.bosFwVersion : Nat := blockBase .bos 0 + 0x104
def Reg.bosFwSvn : Nat := blockBase .bos 0 + 0x108
def Reg.bosSec : Nat := blockBase .bos 0 + 0x10c
def Reg.bosSerialLo : Nat := blockBase .bos 0 + 0x110
def Reg.bosSerialHi : Nat := blockBase .bos 0 + 0x114
def Reg.bosManifest : Nat := blockBase .bos 0 + 0x118
def Reg.bosBootMs : Nat := blockBase .bos 0 + 0x11c
def Reg.devFaultCfg : Nat := blockBase .dev 0 + 0x40
def Reg.devAbort : Nat := blockBase .dev 0 + 0x44
def Reg.devReplays : Nat := blockBase .dev 0 + 0x48
def Reg.devReplace : Nat := blockBase .dev 0 + 0x50
def Reg.devAgeSel : Nat := blockBase .dev 0 + 0x60
def Reg.devAgeData : Nat := blockBase .dev 0 + 0x64
def Reg.devAgeWorst : Nat := blockBase .dev 0 + 0x68
def Reg.bosBistStatus : Nat := blockBase .bos 0 + 0x120
def Reg.bosBistFails : Nat := blockBase .bos 0 + 0x124
def Reg.bosBistFirst : Nat := blockBase .bos 0 + 0x128
def Reg.bosSpareTest : Nat := blockBase .bos 0 + 0x130
def Reg.bosLogNewestLo : Nat := blockBase .bos 0 + 0x140
def Reg.bosLogNewestHi : Nat := blockBase .bos 0 + 0x144
def Reg.bosLogOldestLo : Nat := blockBase .bos 0 + 0x148
def Reg.bosLogOldestHi : Nat := blockBase .bos 0 + 0x14c
def Reg.pwrStatus : Nat := blockBase .pwr 0 + 0x0
def Reg.pwrLimit : Nat := blockBase .pwr 0 + 0x4
def Reg.pwrNow : Nat := blockBase .pwr 0 + 0x8
def Reg.pwrVin : Nat := blockBase .pwr 0 + 0xc
def Reg.pwrDip : Nat := blockBase .pwr 0 + 0x10
def Reg.pwrReefUs (i : Nat) : Nat := blockBase .pwr 0 + 0x20 + 4 * i
def Reg.pwrIslSel : Nat := blockBase .pwr 0 + 0x30
def Reg.pwrIslData : Nat := blockBase .pwr 0 + 0x34
def Reg.pwrTherm : Nat := blockBase .pwr 0 + 0x40
def Reg.pwrThermCfg : Nat := blockBase .pwr 0 + 0x44
def Reg.pwrAlert : Nat := blockBase .pwr 0 + 0x48
def Reg.clkLock (i : Nat) : Nat := blockBase .pwr 0 + 0x100 + 4 * i
def Reg.clkRef : Nat := blockBase .pwr 0 + 0x110
def Reg.clkTbLo : Nat := blockBase .pwr 0 + 0x120
def Reg.clkTbHi : Nat := blockBase .pwr 0 + 0x124
def Reg.clkTbLatchLo : Nat := blockBase .pwr 0 + 0x128
def Reg.clkTbLatchHi : Nat := blockBase .pwr 0 + 0x12c
def Reg.clkTbCfg : Nat := blockBase .pwr 0 + 0x130
def Reg.clkTbLoadLo : Nat := blockBase .pwr 0 + 0x138
def Reg.clkTbLoadHi : Nat := blockBase .pwr 0 + 0x13c

/-! Fields by name. -/

/-- A field's place: bits [lsb + width - 1 : lsb]. -/
structure Fld where
  lsb : Nat
  width : Nat
deriving DecidableEq, Repr

def F.devIdentPart : Fld := ⟨0, 16⟩
def F.devIdentStepping : Fld := ⟨16, 8⟩
def F.devBoardBoardPos : Fld := ⟨0, 3⟩
def F.devBoardSystemId : Fld := ⟨16, 12⟩
def F.devMapMapGen : Fld := ⟨0, 16⟩
def F.devMapYardsInService : Fld := ⟨16, 7⟩
def F.devMapPending : Fld := ⟨31, 1⟩
def F.devTilesMtInService : Fld := ⟨0, 11⟩
def F.devTilesVtInService : Fld := ⟨11, 9⟩
def F.devTilesCtInService : Fld := ⟨20, 7⟩
def F.yardHarvestSpareSlot : Fld := ⟨0, 5⟩
def F.yardHarvestYardState : Fld := ⟨5, 2⟩
def F.yardHarvestFurled : Fld := ⟨8, 24⟩
def F.yardFurlPendingSlots : Fld := ⟨0, 24⟩
def F.yardFurlPendingYard : Fld := ⟨31, 1⟩
def F.tileIdentKind : Fld := ⟨0, 2⟩
def F.tileIdentState : Fld := ⟨2, 2⟩
def F.tileIdentLogicalId : Fld := ⟨4, 11⟩
def F.tileIdentPhysId : Fld := ⟨16, 11⟩
def F.devNumericsNumGen : Fld := ⟨0, 8⟩
def F.devNumericsQuoinRev : Fld := ⟨8, 8⟩
def F.devNumericsSrSelftest : Fld := ⟨16, 1⟩
def F.tileMtStatusFOpen : Fld := ⟨0, 8⟩
def F.tileMtStatusAOpen : Fld := ⟨8, 8⟩
def F.tileMtStatusFQueue : Fld := ⟨16, 3⟩
def F.tileMtStatusAQueue : Fld := ⟨19, 3⟩
def F.tileMtStatusFEpq : Fld := ⟨22, 2⟩
def F.tileMtStatusAEpq : Fld := ⟨24, 2⟩
def F.tileMtStatusBanks : Fld := ⟨26, 4⟩
def F.tileMtStatusBusy : Fld := ⟨31, 1⟩
def F.tileMtGflagsSatF : Fld := ⟨0, 8⟩
def F.tileMtGflagsSatA : Fld := ⟨8, 8⟩
def F.tileMtGflagsNfF : Fld := ⟨16, 8⟩
def F.tileMtGflagsNfA : Fld := ⟨24, 8⟩
def F.tileMtStickyAccSat : Fld := ⟨0, 1⟩
def F.tileMtStickyAccNonfinite : Fld := ⟨1, 1⟩
def F.tileMtStickyEncSat : Fld := ⟨2, 1⟩
def F.tileMtStickyEncNonfinite : Fld := ⟨3, 1⟩
def F.tileMtStickyProgramFault : Fld := ⟨4, 1⟩
def F.tileMtFaultCause : Fld := ⟨0, 4⟩
def F.tileMtFaultArray : Fld := ⟨4, 1⟩
def F.tileMtFaultGroup : Fld := ⟨5, 3⟩
def F.tileMtFaultBank : Fld := ⟨8, 1⟩
def F.tileMtFaultEp : Fld := ⟨9, 3⟩
def F.tileMtFaultPc : Fld := ⟨12, 19⟩
def F.tileMtFaultValid : Fld := ⟨31, 1⟩
def F.tileMtDbgaddrArray : Fld := ⟨0, 1⟩
def F.tileMtDbgaddrGroup : Fld := ⟨1, 3⟩
def F.tileMtDbgaddrRow : Fld := ⟨4, 7⟩
def F.tileMtDbgaddrCol : Fld := ⟨11, 6⟩
def F.tileMtDbgaddrSel : Fld := ⟨17, 2⟩
def F.tileVecStickyEncSat : Fld := ⟨0, 1⟩
def F.tileVecStickyEncNonfinite : Fld := ⟨1, 1⟩
def F.tileVecStickyRedNonfinite : Fld := ⟨2, 1⟩
def F.tileVecStickyQSat : Fld := ⟨3, 1⟩
def F.tileVecStickyQNonfinite : Fld := ⟨4, 1⟩
def F.tileVtQstatusSfuQ : Fld := ⟨0, 3⟩
def F.tileVtQstatusRedQ : Fld := ⟨3, 3⟩
def F.tileVtQstatusQntQ : Fld := ⟨6, 3⟩
def F.tileVtQstatusRows : Fld := ⟨16, 16⟩
def F.tileCtCoresState : Fld := ⟨0, 8⟩
def F.tileCtCoresFaultCore : Fld := ⟨8, 2⟩
def F.tileCtCoresStepCt : Fld := ⟨31, 1⟩
def F.tileCtDescStatusQueue : Fld := ⟨0, 20⟩
def F.tileCtDescStatusBusy : Fld := ⟨20, 4⟩
def F.tileCtDescStatusStopped : Fld := ⟨24, 4⟩
def F.tileCtDescFaultEngine : Fld := ⟨0, 2⟩
def F.tileCtDescFaultSlot : Fld := ⟨2, 4⟩
def F.tileCtDescFaultSide : Fld := ⟨6, 2⟩
def F.tileCtDescFaultValid : Fld := ⟨31, 1⟩
def F.tileProgFaultCause : Fld := ⟨0, 4⟩
def F.tileProgFaultCore : Fld := ⟨4, 2⟩
def F.tileProgFaultClass : Fld := ⟨6, 5⟩
def F.tileProgFaultFn : Fld := ⟨11, 7⟩
def F.tileProgFaultMore : Fld := ⟨30, 1⟩
def F.tileProgFaultValid : Fld := ⟨31, 1⟩
def F.tileProgPcPc : Fld := ⟨0, 19⟩
def F.tileCorePcPc : Fld := ⟨0, 19⟩
def F.tileCorePcState : Fld := ⟨30, 2⟩
def F.tileEccStatusCeCount : Fld := ⟨0, 16⟩
def F.tileEccStatusUe : Fld := ⟨16, 1⟩
def F.tileEccStatusUeMaster : Fld := ⟨17, 4⟩
def F.tileEccStatusUeMore : Fld := ⟨31, 1⟩
def F.tileEccAddrAddr : Fld := ⟨0, 19⟩
def F.tileGalleyFaultGalley : Fld := ⟨0, 4⟩
def F.tileGalleyFaultKind : Fld := ⟨4, 4⟩
def F.tileGalleyFaultProd : Fld := ⟨8, 4⟩
def F.tileGalleyFaultCons : Fld := ⟨12, 4⟩
def F.tileGalleyFaultSide : Fld := ⟨16, 1⟩
def F.tileGalleyFaultNfull : Fld := ⟨17, 8⟩
def F.tileGalleyFaultValid : Fld := ⟨31, 1⟩
def F.tileGstatLoHead : Fld := ⟨0, 8⟩
def F.tileGstatLoTail : Fld := ⟨8, 8⟩
def F.tileGstatLoNfull : Fld := ⟨16, 8⟩
def F.tileGstatLoNfree : Fld := ⟨24, 8⟩
def F.tileGstatHiNres : Fld := ⟨0, 8⟩
def F.tileGstatHiNacq : Fld := ⟨8, 8⟩
def F.tileGstatHiInit : Fld := ⟨16, 1⟩
def F.tileGstatHiPstall : Fld := ⟨17, 1⟩
def F.tileGstatHiCstall : Fld := ⟨18, 1⟩
def F.yardSliceCtlBarrier : Fld := ⟨0, 4⟩
def F.yardSliceCtlArm : Fld := ⟨4, 1⟩
def F.yardCaseEccCeCount : Fld := ⟨0, 16⟩
def F.yardCaseEccUe : Fld := ⟨16, 1⟩
def F.yardCaseEccUeMaster : Fld := ⟨17, 5⟩
def F.yardCaseEccUeMore : Fld := ⟨31, 1⟩
def F.yardCaseEccAddrOffset : Fld := ⟨0, 26⟩
def F.holdStatusTrained : Fld := ⟨0, 1⟩
def F.holdStatusClearing : Fld := ⟨1, 1⟩
def F.holdStatusRepairing : Fld := ⟨2, 1⟩
def F.holdStatusSelfRefresh : Fld := ⟨3, 1⟩
def F.holdStatusChanOk : Fld := ⟨16, 16⟩
def F.holdArbFabricWt : Fld := ⟨0, 5⟩
def F.holdArbPressWt : Fld := ⟨5, 5⟩
def F.holdEccUeCount : Fld := ⟨0, 16⟩
def F.holdEccUeLayer : Fld := ⟨16, 2⟩
def F.holdEccUeUe : Fld := ⟨31, 1⟩
def F.holdPathEccCeCount : Fld := ⟨0, 16⟩
def F.holdPathEccUe : Fld := ⟨31, 1⟩
def F.holdRetirePendingPages : Fld := ⟨0, 8⟩
def F.holdRepairLeftMinRows : Fld := ⟨0, 8⟩
def F.holdRgnBaseBase : Fld := ⟨0, 23⟩
def F.holdRgnSizeSize : Fld := ⟨0, 24⟩
def F.holdRgnAttrWrite : Fld := ⟨0, 8⟩
def F.holdRgnAttrRead : Fld := ⟨8, 8⟩
def F.holdRgnAttrKind : Fld := ⟨16, 4⟩
def F.holdRgnAttrRetain : Fld := ⟨20, 1⟩
def F.holdRgnAttrValid : Fld := ⟨31, 1⟩
def F.halStatusTreeOk : Fld := ⟨0, 1⟩
def F.halStatusAbort : Fld := ⟨1, 1⟩
def F.halStatusJobLinks : Fld := ⟨2, 1⟩
def F.halDecDecision : Fld := ⟨0, 2⟩
def F.halStepCfgRelBar : Fld := ⟨0, 4⟩
def F.halStepCfgDecBar : Fld := ⟨4, 4⟩
def F.halStepCfgCommitBar : Fld := ⟨8, 4⟩
def F.halSkipSetFixed : Fld := ⟨0, 6⟩
def F.halSkipSetForme : Fld := ⟨8, 24⟩
def F.halFlagModeMode : Fld := ⟨8, 24⟩
def F.halCfgLimitExp : Fld := ⟨0, 5⟩
def F.halCfgBcScope : Fld := ⟨5, 1⟩
def F.halJobBoardPorts : Fld := ⟨0, 16⟩
def F.halJobTreeParent : Fld := ⟨0, 5⟩
def F.halJobTreeChildren : Fld := ⟨16, 16⟩
def F.halFaultKind : Fld := ⟨0, 2⟩
def F.halFaultNode : Fld := ⟨2, 7⟩
def F.halFaultValid : Fld := ⟨31, 1⟩
def F.yardRtrStatusRouterDead : Fld := ⟨0, 1⟩
def F.yardRtrStatusFailed : Fld := ⟨1, 1⟩
def F.yardRtrStatusCause : Fld := ⟨2, 2⟩
def F.yardRtrRedSat : Fld := ⟨0, 16⟩
def F.yardRtrRedNf : Fld := ⟨16, 16⟩
def F.tileXchStatusActive : Fld := ⟨0, 4⟩
def F.tileXchStatusQueued : Fld := ⟨4, 2⟩
def F.tileXchStatusAbandoned : Fld := ⟨6, 1⟩
def F.tileXchStatusPhase : Fld := ⟨16, 16⟩
def F.tileXchFaultKind : Fld := ⟨0, 3⟩
def F.tileXchFaultEntry : Fld := ⟨3, 9⟩
def F.tileXchFaultPhase : Fld := ⟨12, 16⟩
def F.tileXchFaultValid : Fld := ⟨31, 1⟩
def F.tileXchStickyRedSat : Fld := ⟨0, 1⟩
def F.tileXchStickyRedNonfinite : Fld := ⟨1, 1⟩
def F.tileHalMemberMember : Fld := ⟨0, 16⟩
def F.tileHalRbarBarrier : Fld := ⟨0, 4⟩
def F.yardSqStateClosed : Fld := ⟨0, 1⟩
def F.yardSqStateRecords : Fld := ⟨1, 7⟩
def F.yardSqStateChannels : Fld := ⟨8, 6⟩
def F.yardSqStateOutstanding : Fld := ⟨31, 1⟩
def F.yardSqCfgLimitExp : Fld := ⟨0, 5⟩
def F.yardSqSlotBaseHiBase : Fld := ⟨0, 16⟩
def F.yardSqSlotSizeUnits : Fld := ⟨0, 20⟩
def F.yardSqSlotCountCount : Fld := ⟨0, 11⟩
def F.yardSqWaveOpenOpen : Fld := ⟨0, 16⟩
def F.yardSqWavePosted : Fld := ⟨0, 16⟩
def F.yardSqWaveDone : Fld := ⟨16, 16⟩
def F.yardSqStolenLocal : Fld := ⟨0, 16⟩
def F.yardSqStolenRemote : Fld := ⟨16, 16⟩
def F.yardSqFaultKind : Fld := ⟨0, 3⟩
def F.yardSqFaultSlot : Fld := ⟨3, 5⟩
def F.yardSqFaultEntry : Fld := ⟨8, 6⟩
def F.yardSqFaultTaskId : Fld := ⟨14, 16⟩
def F.yardSqFaultMore : Fld := ⟨30, 1⟩
def F.yardSqFaultValid : Fld := ⟨31, 1⟩
def F.tileSqLandAddr : Fld := ⟨0, 19⟩
def F.tileSqHeldCount : Fld := ⟨0, 2⟩
def F.tileSqHeldTaskId : Fld := ⟨2, 16⟩
def F.pressStatusState : Fld := ⟨0, 3⟩
def F.pressStatusLayer : Fld := ⟨3, 12⟩
def F.pressStatusWait : Fld := ⟨15, 3⟩
def F.pressCfgStrict : Fld := ⟨0, 1⟩
def F.pressCfgRelLimitExp : Fld := ⟨1, 5⟩
def F.pressLtBaseHiBase : Fld := ⟨0, 7⟩
def F.pressLtCountCount : Fld := ⟨0, 13⟩
def F.pressRuleBaseHiBase : Fld := ⟨0, 7⟩
def F.pressRecOffOffset : Fld := ⟨0, 23⟩
def F.pressScaleOffOffset : Fld := ⟨0, 23⟩
def F.pressProgressADone : Fld := ⟨0, 13⟩
def F.pressProgressBDone : Fld := ⟨16, 13⟩
def F.pressReadyLayer : Fld := ⟨0, 12⟩
def F.pressCopyInLayer : Fld := ⟨0, 12⟩
def F.pressSsqCount : Fld := ⟨0, 3⟩
def F.pressSsqDropped : Fld := ⟨8, 8⟩
def F.pressSsqRejected : Fld := ⟨16, 8⟩
def F.pressSsqTimeouts : Fld := ⟨24, 8⟩
def F.pressFaultKind : Fld := ⟨0, 4⟩
def F.pressFaultLayer : Fld := ⟨4, 12⟩
def F.pressFaultPass : Fld := ⟨16, 2⟩
def F.pressFaultMore : Fld := ⟨30, 1⟩
def F.pressFaultValid : Fld := ⟨31, 1⟩
def F.pressProofStatusLive : Fld := ⟨0, 1⟩
def F.pressProofStatusRecValid : Fld := ⟨1, 1⟩
def F.pressProofStatusPrevValid : Fld := ⟨2, 1⟩
def F.pressProofStatusMirrorDue : Fld := ⟨3, 1⟩
def F.pressProofStatusRetain : Fld := ⟨4, 1⟩
def F.pressProofStatusLevel : Fld := ⟨8, 8⟩
def F.pressMirrorCfgEvery : Fld := ⟨0, 8⟩
def F.pressMirrorCfgPartner : Fld := ⟨8, 12⟩
def F.pressMirrorCtlOpen : Fld := ⟨0, 1⟩
def F.pressMirrorCtlSlot : Fld := ⟨1, 1⟩
def F.pressMirrorHeldVerified : Fld := ⟨0, 1⟩
def F.pressMirrorHeldState : Fld := ⟨1, 2⟩
def F.pressMirrorHeldSrcBoardPos : Fld := ⟨3, 3⟩
def F.pressMirrorHeldSrcSystemId : Fld := ⟨6, 12⟩
def F.lnkStatusUp : Fld := ⟨0, 1⟩
def F.lnkStatusState : Fld := ⟨1, 3⟩
def F.lnkStatusFec : Fld := ⟨4, 1⟩
def F.lnkStatusSpareOk : Fld := ⟨5, 1⟩
def F.lnkStatusWiring : Fld := ⟨6, 1⟩
def F.lnkStatusDownCause : Fld := ⟨8, 4⟩
def F.lnkCfgEnable : Fld := ⟨0, 1⟩
def F.lnkCfgFecAllow : Fld := ⟨1, 2⟩
def F.lnkCfgCalEn : Fld := ⟨3, 1⟩
def F.lnkCfgMarginMv : Fld := ⟨4, 8⟩
def F.lnkCfgErrLimit : Fld := ⟨12, 12⟩
def F.lnkCtlRetrain : Fld := ⟨0, 1⟩
def F.lnkCtlWide : Fld := ⟨1, 1⟩
def F.lnkPeerBoardPos : Fld := ⟨0, 3⟩
def F.lnkPeerSystemId : Fld := ⟨3, 12⟩
def F.lnkPeerPort : Fld := ⟨15, 4⟩
def F.lnkPeerValid : Fld := ⟨31, 1⟩
def F.lnkPlevelSupported : Fld := ⟨0, 16⟩
def F.lnkPlevelChosen : Fld := ⟨16, 8⟩
def F.lnkLanesFailed : Fld := ⟨0, 9⟩
def F.lnkLanesStruck : Fld := ⟨9, 9⟩
def F.lnkLanesSpare : Fld := ⟨18, 4⟩
def F.lnkLanesCarries : Fld := ⟨22, 4⟩
def F.lnkLanesCal : Fld := ⟨26, 4⟩
def F.lnkMarginEyeMv : Fld := ⟨0, 8⟩
def F.lnkMarginEyeUi : Fld := ⟨8, 8⟩
def F.lnkMarginCe10ms : Fld := ⟨16, 16⟩
def F.lnkSwapsSwaps : Fld := ⟨0, 16⟩
def F.lnkSwapsPasses : Fld := ⟨16, 16⟩
def F.lnkRedSat : Fld := ⟨0, 16⟩
def F.lnkRedNf : Fld := ⟨16, 16⟩
def F.lnkFaultKind : Fld := ⟨0, 4⟩
def F.lnkFaultPool : Fld := ⟨4, 3⟩
def F.lnkFaultValid : Fld := ⟨31, 1⟩
def F.lnkMapP0 : Fld := ⟨0, 5⟩
def F.lnkMapP1 : Fld := ⟨8, 5⟩
def F.lnkMapP2 : Fld := ⟨16, 5⟩
def F.lnkMapP3 : Fld := ⟨24, 5⟩
def F.hstStatusUp : Fld := ⟨0, 1⟩
def F.hstStatusHbActive : Fld := ⟨1, 1⟩
def F.hstStatusHostLost : Fld := ⟨2, 1⟩
def F.hstStatusMisses : Fld := ⟨3, 2⟩
def F.hstJobState : Fld := ⟨0, 4⟩
def F.hstJobEndCause : Fld := ⟨4, 4⟩
def F.hstJobDetail : Fld := ⟨8, 8⟩
def F.hstJobRetained : Fld := ⟨16, 1⟩
def F.hstCapsFeature : Fld := ⟨0, 8⟩
def F.hstCapsTileFeature : Fld := ⟨8, 8⟩
def F.hstCapsFormeLevel : Fld := ⟨16, 8⟩
def F.hstCmdBaseHiBase : Fld := ⟨0, 7⟩
def F.hstCmdSizeCmdLog2 : Fld := ⟨0, 4⟩
def F.hstCmdTailTail : Fld := ⟨0, 12⟩
def F.hstCmdHeadHead : Fld := ⟨0, 12⟩
def F.hstCplBaseHiBase : Fld := ⟨0, 7⟩
def F.hstCplSizeCplLog2 : Fld := ⟨0, 4⟩
def F.hstCplTailTail : Fld := ⟨0, 14⟩
def F.hstCplHeadHead : Fld := ⟨0, 14⟩
def F.hstErrBadDoorbell : Fld := ⟨0, 16⟩
def F.hstErrMbBusy : Fld := ⟨16, 16⟩
def F.hstIrqCtlMask : Fld := ⟨0, 4⟩
def F.hstIrqCtlHoldoff : Fld := ⟨8, 8⟩
def F.hstHbCountReceived : Fld := ⟨0, 16⟩
def F.hstHbCountSent : Fld := ⟨16, 16⟩
def F.hstCplPushPush : Fld := ⟨0, 1⟩
def F.bosMbCtlGo : Fld := ⟨0, 1⟩
def F.bosMbStatusAck : Fld := ⟨0, 1⟩
def F.bosMbStatusDone : Fld := ⟨1, 1⟩
def F.bosMbStatusBusy : Fld := ⟨2, 1⟩
def F.bosBootStatusStage : Fld := ⟨0, 4⟩
def F.bosBootStatusBosunReady : Fld := ⟨4, 1⟩
def F.bosBootStatusSlot : Fld := ⟨5, 1⟩
def F.bosBootStatusSlotAFail : Fld := ⟨6, 1⟩
def F.bosBootStatusIdentityOk : Fld := ⟨7, 1⟩
def F.bosBootStatusSelftestRun : Fld := ⟨8, 1⟩
def F.bosBootStatusSelftestPass : Fld := ⟨9, 1⟩
def F.bosBootStatusWarm : Fld := ⟨10, 1⟩
def F.bosBootStatusCause : Fld := ⟨12, 4⟩
def F.bosFwSvnSvn : Fld := ⟨0, 16⟩
def F.bosFwSvnMinSvn : Fld := ⟨16, 16⟩
def F.bosSecOwner : Fld := ⟨0, 1⟩
def F.bosSecRequireSigned : Fld := ⟨1, 1⟩
def F.bosSecDebug : Fld := ⟨2, 1⟩
def F.bosSecScope : Fld := ⟨3, 4⟩
def F.bosSecServiceSigner : Fld := ⟨7, 1⟩
def F.bosSecNonceValid : Fld := ⟨8, 1⟩
def F.bosManifestHalf : Fld := ⟨0, 1⟩
def F.bosManifestAppends : Fld := ⟨1, 15⟩
def F.bosManifestFreeKib : Fld := ⟨16, 16⟩
def F.devFaultCfgReplayLimit : Fld := ⟨0, 8⟩
def F.devAbortBlock : Fld := ⟨0, 8⟩
def F.devAbortKind : Fld := ⟨8, 8⟩
def F.devAbortInstance : Fld := ⟨16, 12⟩
def F.devAbortPeer : Fld := ⟨28, 1⟩
def F.devAbortValid : Fld := ⟨31, 1⟩
def F.devReplaysTotal : Fld := ⟨0, 16⟩
def F.devReplaysConsec : Fld := ⟨16, 8⟩
def F.devReplaceCauses : Fld := ⟨0, 7⟩
def F.devReplaceCausesBoot : Fld := ⟨7, 2⟩
def F.devReplaceAsserted : Fld := ⟨31, 1⟩
def F.devAgeSelIsland : Fld := ⟨0, 7⟩
def F.devAgeDataSlackMin : Fld := ⟨0, 8⟩
def F.devAgeDataVSteps : Fld := ⟨8, 8⟩
def F.devAgeDataBinsLost : Fld := ⟨16, 4⟩
def F.devAgeDataGuardHit : Fld := ⟨20, 1⟩
def F.devAgeDataMarginOut : Fld := ⟨21, 1⟩
def F.devAgeWorstIsland : Fld := ⟨0, 7⟩
def F.devAgeWorstSlack : Fld := ⟨8, 8⟩
def F.devAgeWorstSamples : Fld := ⟨16, 16⟩
def F.bosBistStatusState : Fld := ⟨0, 2⟩
def F.bosBistStatusScope : Fld := ⟨2, 2⟩
def F.bosBistStatusIndex : Fld := ⟨4, 6⟩
def F.bosBistStatusQueued : Fld := ⟨10, 4⟩
def F.bosBistStatusLastPass : Fld := ⟨14, 1⟩
def F.bosBistFailsFailed : Fld := ⟨0, 16⟩
def F.bosBistFailsTested : Fld := ⟨16, 16⟩
def F.bosBistFirstUnit : Fld := ⟨0, 12⟩
def F.bosSpareTestRounds : Fld := ⟨0, 16⟩
def F.bosSpareTestLastYard : Fld := ⟨16, 6⟩
def F.bosSpareTestDeferred : Fld := ⟨22, 1⟩
def F.pwrStatusReef : Fld := ⟨0, 2⟩
def F.pwrStatusSrc : Fld := ⟨2, 4⟩
def F.pwrStatusWarn : Fld := ⟨6, 1⟩
def F.pwrStatusHold : Fld := ⟨7, 1⟩
def F.pwrStatusPwrGood : Fld := ⟨8, 1⟩
def F.pwrLimitSustainedW : Fld := ⟨0, 10⟩
def F.pwrLimitPeakW : Fld := ⟨16, 10⟩
def F.pwrNowW10ms : Fld := ⟨0, 10⟩
def F.pwrNowW1ms : Fld := ⟨16, 10⟩
def F.pwrVinMv : Fld := ⟨0, 12⟩
def F.pwrVinAmps : Fld := ⟨16, 10⟩
def F.pwrDipLastMin : Fld := ⟨0, 4⟩
def F.pwrDipMinMv : Fld := ⟨4, 12⟩
def F.pwrDipTotal : Fld := ⟨16, 16⟩
def F.pwrIslSelIsland : Fld := ⟨0, 7⟩
def F.pwrIslDataMv : Fld := ⟨0, 10⟩
def F.pwrIslDataMhz : Fld := ⟨10, 12⟩
def F.pwrIslDataLevel : Fld := ⟨22, 2⟩
def F.pwrIslDataLock : Fld := ⟨24, 1⟩
def F.pwrThermTjMax : Fld := ⟨0, 8⟩
def F.pwrThermSensor : Fld := ⟨8, 7⟩
def F.pwrThermTripped : Fld := ⟨15, 1⟩
def F.pwrThermTjPeak : Fld := ⟨16, 8⟩
def F.pwrThermCfgStart : Fld := ⟨0, 8⟩
def F.pwrAlertSupplyQuality : Fld := ⟨0, 1⟩
def F.pwrAlertThermWarn : Fld := ⟨1, 1⟩
def F.pwrAlertPowerCap : Fld := ⟨2, 1⟩
def F.pwrAlertRefLoss : Fld := ⟨3, 1⟩
def F.pwrAlertMask : Fld := ⟨8, 4⟩
def F.clkRefRefOk : Fld := ⟨0, 1⟩
def F.clkRefPpm : Fld := ⟨8, 8⟩
def F.clkRefLosses : Fld := ⟨16, 16⟩
def F.clkTbCfgAlign : Fld := ⟨0, 1⟩
def F.clkTbCfgEdges : Fld := ⟨16, 16⟩

end Sys2Proof
end

