-- ==== Sys2Proof/Machine/Sparse.lean ====
section
/-! DEFINITION. Sys2Proof/Machine/Sparse.lean: sparse data by number, a list of pairs in ONE canonical form:
keys strictly rising, and no entry equal to what an unlisted key reads as. Memory, register files and per-unit state
are all held this way. -/

namespace Sys2Proof

/-- Pairs of a key and a value. -/
abbrev Sparse (α : Type) := List (Nat × α)

namespace Sparse
variable {α : Type}

/-- The value at key `k`; `d k` where the key is unlisted. -/
def get (d : Nat → α) : Sparse α → Nat → α
  | [], k => d k
  | (a, v) :: m, k => if a = k then v else get d m k

/-- The list with key `k` given the listed value `v`. -/
def insert : Sparse α → Nat → α → Sparse α
  | [], k, v => [(k, v)]
  | (a, w) :: m, k, v =>
    if a < k then (a, w) :: insert m k v else if a = k then (k, v) :: m else (k, v) :: (a, w) :: m

/-- The list without key `k`. -/
def erase (m : Sparse α) (k : Nat) : Sparse α := m.filter (fun e => e.1 != k)

/-- Writing the value an unlisted key reads as takes the entry away. -/
def set [DecidableEq α] (d : Nat → α) (m : Sparse α) (k : Nat) (v : α) : Sparse α :=
  if v = d k then erase m k else insert m k v

/-- Every key of the list is above `lo` (none: no bound), rising, and its value is not the unlisted one. -/
def wfFrom [DecidableEq α] (d : Nat → α) : Option Nat → Sparse α → Bool
  | _, [] => true
  | lo, (a, v) :: m => (match lo with | none => true | some l => decide (l < a)) && decide (v ≠ d a) && wfFrom d (some a) m

/-- The canonical form. -/
def wf [DecidableEq α] (d : Nat → α) (m : Sparse α) : Bool := wfFrom d none m

/-- The list with every key for which `p` holds taken away. -/
def drop (p : Nat → Bool) (m : Sparse α) : Sparse α := m.filter (fun e => !p e.1)

/-- The canonical list of the same pairs; a list in canonical form is left as it is. -/
def canon [DecidableEq α] (d : Nat → α) (m : Sparse α) : Sparse α :=
  if wf d m then m else m.foldr (fun e acc => set d acc e.1 e.2) []

end Sparse
end Sys2Proof
end

