-- ==== Sys2Proof/Machine/State.lean ====
section
/-! DEFINITION. Sys2Proof/Machine/State.lean: the state of the device, plain data. Control registers have ONE home, `regs`,
by their offset from the start of control space; a register that shows what another part holds (a queue's length, a core's
state) is computed from that part when it is read. Memories are one list of bytes by global address (R24). -/

namespace Sys2Proof.Machine

/-! ## A tile -/

/-- TILE_CORE_PC.STATE. -/
inductive Run where
  | halted | running | stalled | stopped
deriving DecidableEq, Repr

/-- An outstanding global access of a core (R142): its order, its PC, the address as formed, how many bytes, where the
result goes (d: scalar, or vector when `vec`), the bytes that a local load or atomic read, whether a local access went well,
and whether only the answer brings its outcome (`remote`: another device, or the hold's packages). -/
structure GAcc where
  seq : Nat
  pc : Nat
  cls : Nat
  fn : Nat
  addr : DWord
  n : Nat
  atomic : Bool
  vec : Bool
  d : R5
  data : List Byte
  ok : Bool
  remote : Bool
deriving DecidableEq, Repr

/-- An issue core (R126). -/
structure Core where
  s : Sparse DWord
  v : Sparse Vec
  p : Sparse Pred
  pc : Nat
  run : Run
  stalled : Option Instr
  loads : List GAcc
  stores : List GAcc
  seq : Nat
  /-- Broadcasts not yet received, oldest first, at most 16 (R254). -/
  bq : List DWord
  /-- Barriers at which the core has arrived and that have not released since (R152). -/
  arrived : Half
  /-- Barriers that have released since the core's last arrival at them (R152). -/
  released : Half
  /-- Barriers that released while the core, which had made no arrival there, waited for them in hwait (R152). -/
  woken : Half
  /-- The core's hsync has made its arrival and waits. -/
  synced : Bool
  /-- The phases that the core's xwait waits for: how many the tile had queued when it issued (R155). -/
  xwaits : Option Nat
deriving DecidableEq, Repr

def Core.idle : Core := ⟨[], [], [], 0, .halted, none, [], [], 0, [], 0, 0, 0, false, none⟩

/-- A galley (R179, R182). `units` is the slot size in 64 B. -/
structure Galley where
  init : Bool
  base : Nat
  units : Nat
  nslots : Nat
  prod : Nat
  cons : Nat
  limitExp : Nat
  head : Nat
  tail : Nat
  nres : Nat
  nfull : Nat
  nacq : Nat
  pstall : Bool
  cstall : Bool
deriving DecidableEq, Repr

def Galley.empty : Galley := ⟨false, 0, 0, 0, 0, 0, 0, 0, 0, 0, 0, 0, false, false⟩

/-- A weight bank (R81): codes by 48 k + n, column code sums by n. -/
structure Bank where
  valid : Bool
  fmt : Nat
  kv : Nat
  turned : Bool
  codes : Sparse Nat
  colsum : Sparse Word
deriving DecidableEq, Repr

def Bank.empty : Bank := ⟨false, 0, 0, false, [], []⟩

/-- R87. -/
inductive GroupSt where
  | closed | open_ | closing
deriving DecidableEq, Repr

/-- An accumulation group: accumulators by 48 i + j, code sums, class (is it INT32?) and row count once fixed (R87, R88). -/
structure Group where
  st : GroupSt
  acc : Sparse Word
  rowsum : Sparse Word
  colsum : Sparse Word
  kcount : Word
  int : Option Bool
  rows : Option Nat
  sat : Bool
  nf : Bool
deriving DecidableEq, Repr

def Group.closed : Group := ⟨.closed, [], [], [], 0, none, none, false, false⟩
/-- A group that closes or is dropped loses its contents and keeps its flags, which only mopen clears (R87, R91). -/
def Group.dropped (g : Group) : Group := { Group.closed with sat := g.sat, nf := g.nf }

/-- A queued matrix instruction: its kind (the MOP of R148), fields, scalar operands, PC, whether it has begun, and the rows
it has taken so far. -/
structure MEnt where
  mop : Nat
  f : MFields
  rowBase : DWord
  cb : DWord
  core : Fin 4
  pc : Nat
  begun : Bool
  row : Nat
deriving DecidableEq, Repr

/-- A queued instruction of a VT unit: function, guard, format bits, operands (R147). -/
structure VEnt where
  fn : Nat
  g : Pred
  d : R5
  a : DWord
  b : DWord
  vin : Vec
  vec : Bool
  bin16 : Bool
  hi : Word
  pc : Nat
deriving DecidableEq, Repr

/-- A descriptor of R218, its eight words, with the requests made so far: row and byte within it, and the requests that are
outstanding (row, byte, count). -/
structure DescRun where
  w : List Word
  row : Nat
  off : Nat
  out : List (Nat × Nat × Nat)
  slotAt : Option Nat
  /-- A request has failed: the galley slot of its row is neither committed nor released (R219). -/
  failed : Bool
deriving DecidableEq, Repr

/-- A descriptor engine (R121). `posted` numbers its queue entries. -/
structure Engine where
  q : List DescRun
  stopped : Bool
  posted : Nat
deriving DecidableEq, Repr

def Engine.idle : Engine := ⟨[], false, 0⟩
/-- A stopped engine keeps only the descriptor whose requests are out: they still complete (R120, R122). -/
def Engine.halt (e : Engine) : Engine := { e with stopped := true, q := (e.q.take 1).filter (fun r => r.out ≠ []) }

/-- A task taken by an MT: its handle, queue yard, wave, landing area and channel (R272, R275). -/
structure Held where
  handle : DWord
  yard : Nat
  wave : Nat
  area : Bool
  ch : Nat
deriving DecidableEq, Repr

/-- A take whose landing write is not complete: the handle, where in its store the taker's landing lies, the 256-byte
record, the core's destination. -/
structure Landing where
  held : Held
  at_ : Nat
  record : List Byte
  paired : Bool
  core : Fin 4
  d : R5
deriving DecidableEq, Repr

/-- An entry of the running phase (R230, R231): index, units sent, credits held (of a sender) or granted to another device
(of a receiver), units complete. -/
structure XEnt where
  idx : Nat
  sent : Nat
  credits : Nat
  granted : Nat
  done : Nat
deriving DecidableEq, Repr

/-- The running phase: its directory index, the entries active and the next to start. -/
structure XRun where
  phase : Nat
  active : List XEnt
  next : Nat
deriving DecidableEq, Repr

/-- Queued phases, by their place in the directory, oldest first (R155). -/
abbrev XQueue := List Nat

/-- What the loaded image fixes for a tile (R159). -/
structure Image where
  loaded : Bool
  addr : Nat
  loadBytes : Nat
  codeEnd : Nat
  start : List Nat
  replay : List Nat
  galMask : Nat
  epMask : Nat
  galInit : Nat
  epInit : Nat
deriving DecidableEq, Repr

def Image.none : Image := ⟨false, 0, 0, 0, [], [], 0, 0, 0, 0⟩

/-- A tile slot. -/
structure Tile where
  cores : Sparse Core
  gal : Sparse Galley
  image : Image
  flags : Word
  step : Word
  replayed : Bool
  banks : Sparse Bank
  groups : Sparse Group
  eps : Sparse (BitVec 256)
  mq : List MEnt
  sfu : List VEnt
  red : List VEnt
  qnt : List VEnt
  qrows : Half
  engines : Sparse Engine
  held : List Held
  landing : List Landing
  phases : List (BitVec 128)
  entries : List (BitVec 256)
  xq : XQueue
  xcur : Option XRun
  xlast : Half
  xaband : Bool
  /-- Phases that xgo has queued (R155). -/
  xposted : Nat
  /-- Barriers at which the tile has arrived in the open instance, and the flags each arrival carried. -/
  arrived : Half
  arrFlags : Sparse Word
  /-- The decisions delivered, newest first: step and whether it commits (R152, hdec). -/
  decs : List (Word × Bool)
deriving DecidableEq, Repr

def Tile.idle : Tile :=
  ⟨[], [], .none, 0, 0xFFFFFFFF#32, false, [], [], [], [], [], [], [], 0, [], [], [], [], [], [], none, 0, false, 0, 0, [], []⟩

/-! ## A yard, its router, the network -/

/-- A record in a steal queue: entry number, its 256 bytes. -/
structure QRec where
  entry : Nat
  bytes : List Byte
deriving DecidableEq, Repr

/-- A task channel (R276): the handle, taker's slot, queue yard, wave, the descriptors that run, whether sdone came. -/
structure Channel where
  handle : DWord
  slot : Nat
  yard : Nat
  wave : Nat
  descs : List DescRun
  sdone : Bool
  stopped : Bool
deriving DecidableEq, Repr

/-- A packet in a mesh router: virtual channel, route set, destination (yards 0 to 63, controllers 64 to 67, ports 68 to 83,
host port 84: the 85 of R235), the device and tile it goes to, the sending slot and its entry, and the unit it carries. -/
structure Pkt where
  vc : Fin 3
  rset : Nat
  dest : Nat
  dev : BitVec 12
  tile : Nat
  tag : Nat
  src : Nat
  ent : Nat
  body : List Byte
deriving DecidableEq, Repr

structure YardS where
  recs : List QRec
  slotsUsed : List Nat
  tasksUsed : List Nat
  chans : Sparse Channel
  pkts : List Pkt
  /-- Case master granted last, per slice (R193). -/
  last : Sparse Nat
  /-- The present cycle's beats, by slice, and the masters that it has cost a cycle so far (R193). -/
  cycle : Sparse Nat
  lost : List Nat
deriving DecidableEq, Repr

def YardS.idle : YardS := ⟨[], [], [], [], [], [], [], []⟩

/-- A unit at its receiving tile, waiting to be committed (R232). -/
structure XUnit where
  slot : Nat
  tag : Nat
  src : Nat
  ent : Nat
  body : List Byte
deriving DecidableEq, Repr

/-- Where a reduction chunk is (R240, R364): at an input of a router (24 to 28 as R240 codes it) or of a port's node, or at
the tile of its RRECV. -/
inductive ChunkAt where
  | router (y input : Nat)
  | port (n input : Nat)
  | tile (slot : Nat)
deriving DecidableEq, Repr

/-- A chunk (R241): its route set, destination, device and tile as for a packet, reduction, ordinal of the node that sent it,
sequence number, ROP, RND, RFMT, quoin tensor and the index of each lane, flags, 128 lanes. -/
structure Chunk where
  pos : ChunkAt
  rset : Nat
  dest : Nat
  dev : BitVec 12
  tile : Nat
  rid : Nat
  ord : Nat
  q : Nat
  rop : Nat
  rnd : Nat
  rfmt : Nat
  tensor : Half
  index : List Word
  sat : Bool
  nf : Bool
  lanes : List Half
deriving DecidableEq, Repr

/-- A chunk that waits at a node (routers 0 to 63, ports 64 to 79) for its partners, by entry and input. -/
structure NodeBuf where
  node : Nat
  ent : Nat
  k : Nat
  c : Chunk
deriving DecidableEq, Repr

/-! ## Halyard, presses, hold, links -/

/-- A broadcast at the root (R254): sender (none: the device itself, to the step CT only), data. -/
structure Bcast where
  src : Option Nat
  data : DWord
deriving DecidableEq, Repr

/-- A fault notice (R433): block and kind of R438, instance, class. -/
structure Notice where
  block : Nat
  kind : Nat
  inst : Nat
deriving DecidableEq, Repr

structure Hal where
  bcq : List Bcast
  /-- Flags the presses bring to the open decision barrier (R248, R309). -/
  pressFlags : Word
  hrel : Option Word
  first : Bool
  decGiven : Bool
  notices : List Notice
  /-- From the release of the commit barrier until the record is on every device (R329). -/
  holding : Bool
  heldAbort : Option Notice
  /-- Between an abort and its restore (R435). -/
  aborting : Bool
  /-- The step whose release a replay waits for; 0xFFFF_FFFF: none. -/
  restoreStep : Word
  lastStep : Option Word
  heldStep : Option Word
  heldDev : BitVec 12
  recorded : List (BitVec 12)
  /-- The held abort came from another device. -/
  heldPeer : Bool
  /-- Job-scope barriers whose open instance has had this device's combined arrival (R258). -/
  sentArr : Half
deriving DecidableEq, Repr

/-- A layer descriptor (R295). -/
structure Layer where
  id : Nat
  rule : Nat
  frozen : Bool
  fmt : Nat
  wcFmt : Nat
  axis : Bool
  rows : Nat
  rowLen : Nat
  chFirst : Nat
  chCount : Nat
  stride : Nat
  shardsM1 : Nat
  shardPos : Nat
  relExpect : Nat
  readyExpect : Nat
  inExpect : Nat
  tiedN : Nat
  tW : Nat
  tM1 : Nat
  tM2 : Nat
  tV : Nat
  tied : List Nat
  wOff : Nat
  m1Off : Nat
  m2Off : Nat
  vOff : Nat
  gAddr : Nat
  wcAddr : Nat
  qpeAddr : Nat
  absBound : Word
  trMax : Word
  avgDecay : Word
  lk0 : Word
  lk1 : Word
deriving DecidableEq, Repr

/-- A rule entry (R301). -/
structure Rule where
  lenA : Nat
  lenB : Nat
  trMode : Nat
  beta1 : Word
  beta2 : Word
  k : List Word
  progA : List Word
  progB : List Word
deriving DecidableEq, Repr

/-- What a combination brings to every press (R305, R306): the eight sums, the non-finite mark, BC1, BC2, PHI. -/
structure Comb where
  sums : List Word
  nf : Bool
  bc1 : Word
  bc2 : Word
  phi : Word
deriving DecidableEq, Repr

/-- A press: the layer in hand, the layers it has ended in each pass, its accumulators of a layer with their non-finite
mark, and where it stands in the step. -/
structure Press where
  cur : Option Nat
  aDone : List Nat
  bDone : List Nat
  acc : Sparse (List Word × Bool)
  decArr : Bool
  comArr : Bool
  digest : Word
  worked : Bool
deriving DecidableEq, Repr

def Press.idle : Press := ⟨none, [], [], [], false, false, 0, false⟩

/-- The presses' shared state. -/
structure PressS where
  layers : List Layer
  rules : List Rule
  p : Sparse Press
  ready : Sparse Nat
  readyQ : List Nat
  rel : Sparse Nat
  /-- Release counts of the step before, which its pass B still uses (log entry 43). -/
  relOld : Sparse Nat
  copyIn : Sparse Nat
  comb : Sparse Comb
  bsum : Sparse Word
  /-- Channels of a layer whose codes are written, bit i for the i-th of the shard (R312). -/
  regen : Sparse Nat
  /-- WNORM2 as the last preparation recombined it, until a record supersedes it (R318). -/
  wn : Sparse Word
  prep : Bool
  /-- The VERSION the copies are to take, and the layers that have it (R314, R318). -/
  ver : Option Word
  verDone : List Nat
  ssq : List (Word × Word)
  stepTimedOut : Bool
  frozenStrict : Bool
  /-- The decision delivered to the presses and not yet acted out: step, commit. -/
  dec : Option (Word × Bool)
  hdrOpen : Bool
  spoilWait : Bool
  lastFault6 : Option (Word × Nat)
  recWait : Bool
  /-- The mirror held for a partner has taken an uncorrectable error since it opened (R211, R342). -/
  mirrorUe : Bool
  /-- Scale-table entries as they were before the commit work of the step in hand, by address: an abort puts them back (R69). -/
  scaleUndo : List (Nat × List Byte)
deriving DecidableEq, Repr

/-- A request scheduled at a hold controller (R206). `taken`: it has its place in the order of its bursts ahead of its
completion, because a later access to one of them has gone by (R207): the bytes it read, and whether the read was stale. -/
structure HoldReqS where
  press : Bool
  path : Fin 8
  op : HoldOp
  taken : Option (List Byte)
  stale : Bool
deriving DecidableEq, Repr

structure HoldC where
  q : List HoldReqS
  /-- Reads that passed only on retry in this job, by page (R214). -/
  retries : Sparse Nat
  /-- Pages scheduled for retirement. -/
  retire : List Nat
  refreshed : List Nat
  tracked : Nat
  /-- Slots given to the fabric side and to the press in the present round of 16 (R206). -/
  given : Nat × Nat
deriving DecidableEq, Repr

def HoldC.idle : HoldC := ⟨[], [], [], [], 0, (0, 0)⟩

/-- A fabric port's link layer (R352 to R361) and lane history. -/
structure LinkP where
  tx : List (List Byte)
  pools : Sparse (List Byte)
  replay : List (List Byte)
  resend : List (List Byte)
  seq : Nat
  expect : Nat
  sendAck : Bool
  nak : Bool
  awaiting : Bool
  rx : Sparse (List Byte)
  credits : Sparse Nat
  freed : Sparse Nat
  rr : Nat
  lastHal : Bool
  wait4 : Nat
  fails : Nat
  failPool0 : Bool
  /-- Compact writes not acknowledged yet, per pool: sent from here, and received here (acknowledged at the target?). -/
  cwOut : Sparse Nat
  cwIn : Sparse (List Bool)
  strikes : Sparse Nat
  retry : Option Nat
  calNext : Nat
  edgeDead : Bool
  /-- Bytes at the head of a pool's stream that belong to a packet already sent in part. -/
  cut : Sparse Nat
deriving DecidableEq, Repr

def LinkP.idle : LinkP :=
  ⟨[], [], [], [], 0, 0, false, false, false, [], [], [], 0, false, 0, 0, false, [], [], [], none, 0, false, []⟩

/-! ## Host, bosun, power -/

/-- A command entry as read from the ring or the mailbox (R388): source and ring index, opcode, flags, tag, the 56 argument
bytes. -/
structure HostEntry where
  q : CmdHdr
  opcode : Nat
  args : List Byte
deriving DecidableEq, Repr

/-- The job in hand. -/
structure Job where
  formeId : DWord
  formeAddr : Nat
  firstStep : Word
  retain : Bool
  tokenDigest : BitVec 512
  layers : Nat
  scaleCount : Nat
  scaleAt : Nat
  initAt : Nat × Nat
  stashAt : Nat × Nat
  caseImgs : List (Nat × List Byte)
  fallback : List Nat
  debug : Bool
  mapFrozen : Bool
  /-- Slots of the job that were furl-pending at its start: they keep the power-on state (R107, R125, R163; log entry 111). -/
  heldOut : List Nat
deriving DecidableEq, Repr

/-- The retained-range record in logbook memory (R222): token digest, and per region base, size (64 KiB units) and ATTR. -/
structure Retained where
  digest : BitVec 512
  regions : List (Nat × Nat × Word)
deriving DecidableEq, Repr

/-- A logbook entry (R438). -/
structure LogEntry where
  seq : Nat
  time : Nat
  step : Word
  cls : Nat
  block : Nat
  inst : Nat
  kind : Nat
  count : Nat
  first : Bool
  data : List Word
deriving DecidableEq, Repr

/-- What the manifest holds beyond the registers it loads (R411): the firmware floor, the owner, the boot policy, failed
lanes per port, spare rows used per bank, the ageing record and dead routers. -/
structure Manifest where
  half : Bool
  appends : Nat
  blocks : Nat
  mapGen : Nat
  harvest : Sparse Word
  dead : List Nat
  minSvn : Nat
  owner : Option (List Byte)
  requireSigned : Bool
  quickTest : Bool
  failedLanes : Sparse (BitVec 9)
  rowsUsed : Sparse Nat
  vSteps : Sparse Nat
  bins : Sparse Nat
  marginOut : List Nat
  serial : DWord
  /-- The part identity's stepping (R1, R411). -/
  stepping : Byte
  /-- SLACK_MIN per island as the latest ageing record holds it (R447). -/
  slack : List (Nat × Int)
deriving DecidableEq, Repr

/-- Host-link state beside its registers. -/
structure HostS where
  waiting : List HostEntry
  cur : Option HostEntry
  mbWaiting : Option HostEntry
  mbCur : Option HostEntry
  loadWait : Option HostEntry
  cplWait : List (List Word)
  cplPhase : Bool
  holdoff : Sparse Bool
  beatSinceLost : Bool
  stStart : Option HostEntry
  /-- The registers that START set, as they were, while it may still be refused (R497). -/
  stRegs : Sparse Word
deriving DecidableEq, Repr

/-- Bosun state beside its registers. -/
structure Bosun where
  man : Manifest
  fwA : FwImage
  fwB : FwImage
  slotB : Sparse Byte
  raiseSvn : Bool
  log : List LogEntry
  pinned : List LogEntry
  seq : Nat
  retained : Option Retained
  nonce : Option (BitVec 128)
  formeDigest : List Byte
  romDigest : Bool
  keks : Bool
  keysUnwrapped : Bool
  recovery : Bool
  halted : Bool
  btq : List (Nat × Nat)
  btCur : Option (Nat × Nat × Option HostEntry)
  boundaryTests : List (Nat × Nat)
  /-- Slots of idle spares under test (R451). -/
  spare : List Nat
  spareNext : Nat
  spareFails : Sparse Nat
  ueSeen : Sparse Nat
  debugClear : Bool
  debugScope : Nat
  debugSigner : Bool
  endCause : Nat
  endReq : Option HostEntry
  slack : Sparse Int
  guardHit : List Nat
  ageReef : List Nat
  tb : Bool
  /-- The image that runs (R409, R420). -/
  running : FwImage
deriving DecidableEq, Repr

/-- Power, clock and thermal state beside its registers. -/
structure Power where
  samples : List Nat
  lvl : Nat
  quiet : Nat
  at3 : Nat
  therm : Nat
  thermPeakNow : Int
  supply : Bool
  warn : Bool
  dip : Bool
  dipMin : Nat
  dips : List Nat
  stretch : List Nat
  brownout : Bool
  refLost : Bool
  stopped : Bool
  tripped : Bool
  thermtrip : Bool
  temps : List Int
deriving DecidableEq, Repr

/-- The input balls of R482. -/
structure Pins where
  rstN : Bool
  pwrGood : Bool
  vaux : Bool
  vinCore : Bool
deriving DecidableEq, Repr

/-- The TAP's current instruction and boundary register (R485). -/
inductive TapIr where
  | bypass | extest | samplePreload | extestPulse | extestTrain | priv (code : Nat)
deriving DecidableEq, Repr

structure Tap where
  ir : TapIr
  boundary : Nat
  drive : Option Nat
deriving DecidableEq, Repr

/-- R7: the upper half captured by a read of _LO, and the value held by a write of _HI, per master and pair. -/
structure Cap where
  m : Master
  off : Nat
  hi : Option Word
  held : Option Word
deriving DecidableEq, Repr

/-- What the device sends out. -/
inductive Msg where
  | hostWrite (addr : Nat) (data : List Byte)
  | hostData (ok : Bool) (data : List Byte)
  | regData (ok : Bool) (v : Word)
  | killNotice | endNotice (last : Word) | heldNotice (dev : BitVec 12) (step : Word) | resumeNotice
  | withdrawRelease (step : Word)
  | recorded (step : Word)
  | abort (n : Notice)
  | arrival (b : Nat) (orF andF : Word) (step : Option Word) (digest : Option (Word × Word))
  | broadcast (data : DWord)
  | hwcr (layer : Nat)
  | sums (layer : Nat) (acc : List Word) (nf : Bool)
  | spoil (partner : BitVec 12)
  | unitAck (dev : BitVec 12) (tile : Nat) (tag : Nat)
  | redCredit (root tag n : Nat)
  | flit (port : Nat) (bytes : List Byte)
  | holdData (c : Nat) (ok : Bool) (data : List Byte) (stale : Bool)
  | caseData (y slice m : Nat) (ok : Bool) (data : List Byte)
  | spdm (data : List Byte)
  | pldmState (v : Nat)
  | debugger (slot core : Nat)
  | mapSysId (port : Nat) (v : BitVec 12)
  | exportData (addr : Nat) (data : List Byte)
  | mirrorImage (dev : BitVec 12) (rec_ hdr image : List Byte)
  | reply (dev : BitVec 12) (ok : Bool) (data : List Byte)
deriving DecidableEq, Repr

/-- The device: everything but the queue. -/
structure Dev where
  regs : Sparse Word
  caps : List Cap
  mem : List Host.Cell
  /-- Words of the protected memories that hold errors: 1 correctable, 2 not, 3 not and counted for R440; by global address
  (R167). -/
  ecc : Sparse Nat
  /-- Corrected words whose write-back waits for a free cycle (R168, R196). -/
  wb : List Nat
  tiles : Sparse Tile
  yards : Sparse YardS
  routes : Sparse Nat
  nodes : Sparse (List (BitVec 128))
  bufs : List NodeBuf
  chunks : List Chunk
  units : List XUnit
  hal : Hal
  press : PressS
  hold : Sparse HoldC
  links : Sparse LinkP
  job : Job
  host : HostS
  bos : Bosun
  pwr : Power
  pins : Pins
  tap : Tap
  out : List Msg
  freeCtr : Nat
deriving DecidableEq, Repr

/-- The state: the commands that wait, first in, first out, and the device. -/
structure State where
  pending : List Instr
  dev : Dev
deriving DecidableEq, Repr

/-- Why the machine stops. Raised by a tile instruction, a resume, a poll, a limit or a completion that names core 1, 2 or 3
of an MT or VT slot: there is no such core (R118, R126). Safe: the spec gives such a command no sender. -/
inductive Fault where
  | noSuchCore (slot core : Nat)
deriving DecidableEq, Repr

/-- Raised by the arm of a command that has no meaning yet. Safe. -/
inductive Refusal where
  | notModelled (mnemonic : String)
deriving DecidableEq, Repr

/-! ## Reset -/

/-- An empty firmware slot. -/
def fwNone : FwImage := ⟨0, 0, 0, 0, 0, 0, false, 0⟩
/-- The firmware a factory leaves in slot A (log entry 5): version 1, feature, proof and link levels of this manual. -/
def fwFactory : FwImage := ⟨1, 0, 1, 1, 1, 0x10000, true, 0⟩

/-- The harvest word of a yard with spare slot 16 and nothing furled (R19; log entry 5). -/
def harvestFactory : Word := 16

/-- The factory manifest (log entry 5). -/
def Manifest.factory : Manifest := ⟨false, 0, 1, 1, [], [], 0, none, false, false, [], [], [], [], [], 0, 0xB0, []⟩

def Hal.idle : Hal :=
  ⟨[], 0, none, true, false, [], false, none, false, 0xFFFFFFFF#32, none, none, 0, [], false, 0⟩
def PressS.idle : PressS :=
  ⟨[], [], [], [], [], [], [], [], [], [], [], [], false, none, [], [], false, false, none, false, false, none, false, false, []⟩
def Job.none : Job := ⟨0, 0, 0, false, 0, 0, 0, 0, (0, 0), (0, 0), [], [], false, false, []⟩
def HostS.idle : HostS := ⟨[], none, none, none, none, [], true, [], false, none, []⟩
def Bosun.powerOn (man : Manifest) (a b : FwImage) : Bosun :=
  ⟨man, a, b, [], false, [], [], 0, none, none, [], false, false, false, false, false, [], none, [], [], 0, [], [], false, 0,
    false, 0, none, [], [], [], false, fwNone⟩
def Power.idle : Power := ⟨[], 0, 0, 0, 0, 0, false, false, false, 0xFFF, [], [], false, false, false, false, false, []⟩

/-- The device with VAUX just up and RST_N held low: registers at their reset values, nothing running. -/
def Dev.powerOn (man : Manifest) (a b : FwImage) : Dev :=
  { regs := [], caps := [], mem := [], ecc := [], wb := [], tiles := [], yards := [], routes := [], nodes := [], bufs := [],
    chunks := [], units := [], hal := .idle, press := .idle, hold := [], links := [], job := .none, host := .idle,
    bos := .powerOn man a b, pwr := .idle, pins := ⟨false, true, true, true⟩, tap := ⟨.bypass, 0, none⟩, out := [],
    freeCtr := 0 }

/-- After power-on, with RST_N still low: RST_N_DEASSERT then boots the device (R414, R459). -/
def State.reset : State := ⟨[], Dev.powerOn .factory fwFactory fwNone⟩

end Sys2Proof.Machine
end

