-- ==== Sys2Proof/WellFormed.lean ====
section
/-! DEFINITION. Sys2Proof/WellFormed.lean: which commands a sender of the spec can form at all: a core that the slot's tile
kind has (R118, R126), an offset of control space (R28), a flit of 256 bytes (R352), a case write of one slice beat
(R192), a mirror head burst of 64 bytes (R205, R332), a message body that fits its entry (R388). -/

namespace Sys2Proof

/-- Does physical slot `p` hold a CT (R16)? -/
def slotIsCt (p : Nat) : Bool := p % 24 == 23
def slotIsVt (p : Nat) : Bool := decide (17 ≤ p % 24) && decide (p % 24 ≤ 22)
def slotIsMt (p : Nat) : Bool := decide (p % 24 ≤ 16)

/-- A CT has four issue cores, an MT and a VT one (R118, R126). -/
def coreExists (slot core : Nat) : Bool := core == 0 || slotIsCt slot

def Iss.wf (h : Iss) : Bool := coreExists h.slot h.core

def Master.wf : Master → Bool
  | .tile p c => coreExists p c
  | _ => true

/-- Every list, core, offset and index of the command lies within what the spec gives it. -/
def Instr.wf : Instr → Bool
  | .add h .. => h.wf
  | .sub h .. => h.wf
  | .and h .. => h.wf
  | .or h .. => h.wf
  | .xor h .. => h.wf
  | .shl h .. => h.wf
  | .shr h .. => h.wf
  | .sra h .. => h.wf
  | .mul h .. => h.wf
  | .mulhu h .. => h.wf
  | .min h .. => h.wf
  | .max h .. => h.wf
  | .minu h .. => h.wf
  | .maxu h .. => h.wf
  | .cmpeq h .. => h.wf
  | .cmpne h .. => h.wf
  | .cmplt h .. => h.wf
  | .cmple h .. => h.wf
  | .cmpltu h .. => h.wf
  | .cmpleu h .. => h.wf
  | .addi h .. => h.wf
  | .andi h .. => h.wf
  | .ori h .. => h.wf
  | .xori h .. => h.wf
  | .shli h .. => h.wf
  | .shri h .. => h.wf
  | .srai h .. => h.wf
  | .movh h .. => h.wf
  | .cmpeqi h .. => h.wf
  | .cmpnei h .. => h.wf
  | .cmplti h .. => h.wf
  | .cmpltui h .. => h.wf
  | .bra h .. => h.wf
  | .call h .. => h.wf
  | .jr h .. => h.wf
  | .nopInstruction h .. => h.wf
  | .halt h .. => h.wf
  | .fence h .. => h.wf
  | .srd h .. => h.wf
  | .pand h .. => h.wf
  | .por h .. => h.wf
  | .pxor h .. => h.wf
  | .pnot h .. => h.wf
  | .pany h .. => h.wf
  | .pall h .. => h.wf
  | .ldU8 h .. => h.wf
  | .ldS8 h .. => h.wf
  | .ldU16 h .. => h.wf
  | .ldS16 h .. => h.wf
  | .ldU32 h .. => h.wf
  | .ldS32 h .. => h.wf
  | .ld64 h .. => h.wf
  | .st8 h .. => h.wf
  | .st16 h .. => h.wf
  | .st32 h .. => h.wf
  | .st64 h .. => h.wf
  | .lxadd32 h .. => h.wf
  | .lxadd64 h .. => h.wf
  | .ldg32 h .. => h.wf
  | .ldg64 h .. => h.wf
  | .stg32 h .. => h.wf
  | .stg64 h .. => h.wf
  | .gadd32 h .. => h.wf
  | .gadd64 h .. => h.wf
  | .vldg h .. => h.wf
  | .vstg h .. => h.wf
  | .vadd h .. => h.wf
  | .vsub h .. => h.wf
  | .vmul h .. => h.wf
  | .vfma h .. => h.wf
  | .vmin h .. => h.wf
  | .vmax h .. => h.wf
  | .vabs h .. => h.wf
  | .vneg h .. => h.wf
  | .vcmpeq h .. => h.wf
  | .vcmpne h .. => h.wf
  | .vcmplt h .. => h.wf
  | .vcmple h .. => h.wf
  | .vcmpun h .. => h.wf
  | .vsel h .. => h.wf
  | .vmov h .. => h.wf
  | .vbcast h .. => h.wf
  | .vext h .. => h.wf
  | .vins h .. => h.wf
  | .vidx h .. => h.wf
  | .vcvt h .. => h.wf
  | .vquoin h .. => h.wf
  | .vld16 h .. => h.wf
  | .vld8 h .. => h.wf
  | .vld4 h .. => h.wf
  | .vldW h .. => h.wf
  | .vst16 h .. => h.wf
  | .vst8 h .. => h.wf
  | .vst4 h .. => h.wf
  | .vstW h .. => h.wf
  | .vrcp h .. => h.wf
  | .vrsqrt h .. => h.wf
  | .vexp h .. => h.wf
  | .vexp2 h .. => h.wf
  | .vlog h .. => h.wf
  | .vlog2 h .. => h.wf
  | .vsigm h .. => h.wf
  | .vtanh h .. => h.wf
  | .vsilu h .. => h.wf
  | .verf h .. => h.wf
  | .vredSum h .. => h.wf
  | .vredSumsq h .. => h.wf
  | .vredMin h .. => h.wf
  | .vredMax h .. => h.wf
  | .vredAmax h .. => h.wf
  | .qrow h .. => h.wf
  | .qmerge h .. => h.wf
  | .vtUnitResult .. => true
  | .mload h .. => h.wf
  | .mopen h .. => h.wf
  | .mstream h .. => h.wf
  | .mpair h .. => h.wf
  | .mclose h .. => h.wf
  | .mdrop h .. => h.wf
  | .mepl h .. => h.wf
  | .mwait h .. => h.wf
  | .matrixOpStart .. => true
  | .matrixOpComplete .. => true
  | .gset h .. => h.wf
  | .gacq h .. => h.wf
  | .gacqNb h .. => h.wf
  | .grel h .. => h.wf
  | .gres h .. => h.wf
  | .gresNb h .. => h.wf
  | .gcom h .. => h.wf
  | .gstat h .. => h.wf
  | .galleyStallLimit .. => true
  | .stake h .. => h.wf
  | .stakeW h .. => h.wf
  | .stakeWPoll p c => coreExists p c
  | .stakeWLimit p c => coreExists p c
  | .sdone h .. => h.wf
  | .spost h .. => h.wf
  | .sctlOpen h .. => h.wf
  | .sctlClose h .. => h.wf
  | .sctlDrain h .. => h.wf
  | .taskLanding .. => true
  | .channelRequestIssue .. => true
  | .taskComplete .. => true
  | .dpost h .. => h.wf
  | .dwait h .. => h.wf
  | .dstat h .. => h.wf
  | .descRequestIssue .. => true
  | .descRequestComplete .. => true
  | .hbar h .. => h.wf
  | .hwait h .. => h.wf
  | .hsync h .. => h.wf
  | .hflagSet h .. => h.wf
  | .hflagClr h .. => h.wf
  | .hbc h .. => h.wf
  | .hrx h .. => h.wf
  | .hdec h .. => h.wf
  | .hrel h .. => h.wf
  | .hwcr h .. => h.wf
  | .xgo h .. => h.wf
  | .xwait h .. => h.wf
  | .xstat h .. => h.wf
  | .brk h .. => h.wf
  | .dmark h .. => h.wf
  | .issueResume p c => coreExists p c
  | .globalLoadResponse p c .. => coreExists p c
  | .postedWriteAck p c .. => coreExists p c
  | .storeEccWriteback .. => true
  | .storeScrub .. => true
  | .caseSliceBeat _ _ rs => rs.all (fun r => match r.wr with | none => true | some d => decide (d.length ≤ 64))
  | .caseEccWriteback .. => true
  | .caseScrub .. => true
  | .holdRequest .. => true
  | .holdReadComplete .. => true
  | .holdWriteComplete .. => true
  | .holdPatrol .. => true
  | .perBankRefresh .. => true
  | .rfm .. => true
  | .oscillatorTracking .. => true
  | .phaseStart .. => true
  | .exchCreditArrive .. => true
  | .exchUnitSend .. => true
  | .exchUnitCommit .. => true
  | .phaseLimit .. => true
  | .routerHop .. => true
  | .routerCreditSilence .. => true
  | .reductionChunkArrive .. => true
  | .barrierRelease .. => true
  | .releaseBarrierRelease .. => true
  | .decisionBarrierRelease .. => true
  | .commitBarrierRelease .. => true
  | .halyardFrame .. => true
  | .halyardStallLimit p c => coreExists p c
  | .broadcastDeliver .. => true
  | .faultNotice => true
  | .abortFromPeer .. => true
  | .replayRestore => true
  | .yardSqWaveOpen m .. => m.wf
  | .tileBankNext m .. => m.wf
  | .yardSliceArm m .. => m.wf
  | .pairLoRead m off => m.wf && decide (off < 0x2000000)
  | .pairHiRead m off => m.wf && decide (off < 0x2000000)
  | .pairHiWrite m off _ => m.wf && decide (off < 0x2000000)
  | .pairLoWrite m off _ => m.wf && decide (off < 0x2000000)
  | .dbgdataRead m .. => m.wf
  | .registerWrite m off _ => m.wf && decide (off < 0x2000000)
  | .pressReady m .. => m.wf
  | .passALayerStart .. => true
  | .passALayerEnd .. => true
  | .combinationReturn .. => true
  | .stepSizePush m .. => m.wf
  | .stepSizeLatch => true
  | .stepSizeTimeout => true
  | .pressDecisionArrival .. => true
  | .passBLayerStart .. => true
  | .mirrorSpoilAck => true
  | .releaseCountLimit .. => true
  | .channelRegen .. => true
  | .passBLayerEnd .. => true
  | .pressCopyIn m .. => m.wf
  | .pressCommitWork .. => true
  | .recordAck .. => true
  | .recordedNotice .. => true
  | .mirrorCtlOpen m .. => m.wf
  | .mirrorCtlClose m .. => m.wf
  | .mirrorHeadOpening b => decide (b.length = 64)
  | .mirrorHeadComplete b => decide (b.length = 64)
  | .mirrorHeadSpoiled b => decide (b.length = 64)
  | .mirrorImageWrite .. => true
  | .mirrorRestoreComplete .. => true
  | .flitSend .. => true
  | .flitReceive _ f _ _ => decide (f.length = 256)
  | .compactAckRelease .. => true
  | .creditReturn .. => true
  | .fullTraining .. => true
  | .fastRetrain .. => true
  | .signalDetectRetry .. => true
  | .capabilityTimeout .. => true
  | .lnkRetrain m .. => m.wf
  | .lnkWide m .. => m.wf
  | .lnkCfgEnable m .. => m.wf
  | .calibrationLane .. => true
  | .hitlessSwap .. => true
  | .swapRetry .. => true
  | .laneErrorWindow .. => true
  | .lossOfLock .. => true
  | .hostPortRequest .. => true
  | .doorbell m .. => m.wf
  | .ringCommandDispatch .. => true
  | .bosMbGo m .. => m.wf
  | .commandComplete .. => true
  | .cplPush m .. => m.wf
  | .cplRingFullTimeout => true
  | .hstHb m .. => m.wf
  | .heartbeatWindow => true
  | .deviceHeartbeat => true
  | .irqHoldoffEnd .. => true
  | .nop .. => true
  | .status .. => true
  | .load .. => true
  | .pendingLoadStart .. => true
  | .start .. => true
  | .endJob .. => true
  | .endEvent .. => true
  | .kill .. => true
  | .killNotice .. => true
  | .resume .. => true
  | .heldEvent .. => true
  | .resumeEvent => true
  | .hostmsg _ b => decide (b.length ≤ 56)
  | .proofQuery .. => true
  | .proofExport .. => true
  | .clearsComplete .. => true
  | .holdRepairComplete .. => true
  | .fwInfo .. => true
  | .fwWrite .. => true
  | .fwVerify .. => true
  | .fwActivate .. => true
  | .warmReset .. => true
  | .manifestRead .. => true
  | .spdm .. => true
  | .ownerEnrol .. => true
  | .ownerRelease .. => true
  | .debugNonce .. => true
  | .debugOpen .. => true
  | .debugClose .. => true
  | .selftest .. => true
  | .selftestComplete .. => true
  | .selftestStatus .. => true
  | .logInfo .. => true
  | .logRead .. => true
  | .replaceStatus .. => true
  | .ageRead .. => true
  | .spareTestRound => true
  | .spareTestEnd .. => true
  | .ageingSample .. => true
  | .getVersion .. => true
  | .getCapabilities .. => true
  | .negotiateAlgorithms .. => true
  | .getDigests .. => true
  | .getCertificate .. => true
  | .challenge .. => true
  | .getMeasurements .. => true
  | .pldmStateSensorRead => true
  | .pldmFirmwareUpdate .. => true
  | .rstNDeassert .. => true
  | .rstNAssert => true
  | .vauxFall => true
  | .pwrGoodDeassert .. => true
  | .vinCoreWarning .. => true
  | .dipDebounce => true
  | .vinCoreRecovery .. => true
  | .supplyHoldEnd => true
  | .vinCoreResetTrip .. => true
  | .brownoutRecovery .. => true
  | .droopDetect .. => true
  | .droopClear .. => true
  | .refclkLoss => true
  | .refclkHoldoverEnd => true
  | .tpulseEdge => true
  | .alignTb m .. => m.wf
  | .powerSample .. => true
  | .powerEvaluate => true
  | .pwrLimit m .. => m.wf
  | .pwrThermCfg m .. => m.wf
  | .thermalSample .. => true
  | .thermalRequestDrop => true
  | .thermalTrip .. => true
  | .tapReset => true
  | .bypass => true
  | .extestPulse .. => true
  | .extestTrain .. => true
  | .tapPrivateInstruction .. => true
  | .vauxRise => true
  | .vinCoreRemoved => true
  | .refclkReturn => true
  | .nonceExpiry => true
  | .extest .. => true
  | .samplePreload .. => true

end Sys2Proof
end

