-- ==== Sys2Proof/Machine/Ops.lean ====
section
/-! DEFINITION. Sys2Proof/Machine/Ops.lean: the named operations over registers, memory, tiles, logbook, host events and
faults that every meaning is written with. -/

namespace Sys2Proof.Machine
open Sys2Proof.Num (crc32)

/-! ## Byte order (R5) -/

def toBytes (n : Nat) (v : Nat) : List Byte := (List.range n).map (fun i => BitVec.ofNat 8 (v / 256 ^ i))
def ofBytes (bs : List Byte) : Nat := bs.foldr (fun b acc => b.toNat + 256 * acc) 0
/-- `n` bytes of a list from byte `o`, as a number; bytes past the end read 0. -/
def natAt (bs : List Byte) (o n : Nat) : Nat := ofBytes ((bs.drop o).take n)
/-- Bits [lsb + w − 1 : lsb] of a number. -/
def bitsAt (v lsb w : Nat) : Nat := v / 2 ^ lsb % 2 ^ w
def w32 (n : Nat) : Word := BitVec.ofNat 32 n
def w64 (n : Nat) : DWord := BitVec.ofNat 64 n
def noStep : Word := 0xFFFFFFFF#32

/-! ## Registers -/

/-- Which register an offset names: its row, the block's instance (controller, port, yard or slot) and its index. -/
structure RegAt where
  d : RegDef
  inst : Nat
  idx : Nat
deriving DecidableEq, Repr

/-- Block, instance and offset within the window (R28). -/
def windowOf (off : Nat) : Option (Block × Nat × Nat) :=
  if off < 0x10000 then some (.dev, 0, off)
  else if 0x100000 ≤ off ∧ off < 0x110000 then some (.bos, 0, off - 0x100000)
  else if 0x200000 ≤ off ∧ off < 0x210000 then some (.hal, 0, off - 0x200000)
  else if 0x300000 ≤ off ∧ off < 0x400000 then
    let o := (off - 0x300000) % 0x40000
    let c := (off - 0x300000) / 0x40000
    if o < 0x20000 then some (.hold, c, o) else some (.press, c, o - 0x20000)
  else if 0x400000 ≤ off ∧ off < 0x500000 then some (.lnk, (off - 0x400000) / 0x10000, off % 0x10000)
  else if 0x500000 ≤ off ∧ off < 0x510000 then some (.hst, 0, off - 0x500000)
  else if 0x600000 ≤ off ∧ off < 0x610000 then some (.pwr, 0, off - 0x600000)
  else if 0x1000000 ≤ off ∧ off < 0x2000000 then
    let y := (off - 0x1000000) / 0x40000
    let o := off % 0x40000
    if o < 0x30000 then some (.tile, 24 * y + o / 0x2000, o % 0x2000) else some (.yard, y, o - 0x30000)
  else none

/-- In which windows a register exists (R28). -/
def inScope (sc : Scope) (inst : Nat) : Bool :=
  match sc with
  | .all => true
  | .mt => slotIsMt inst
  | .vt => slotIsVt inst
  | .ct => slotIsCt inst
  | .ctl0 => inst == 0
  | .port0 => inst == 0

def regCovers (d : RegDef) (o : Nat) : Bool :=
  decide (d.off ≤ o) && decide ((o - d.off) % d.stride = 0) && decide ((o - d.off) / d.stride < d.count)

/-- The register at an offset of control space; none: an unpopulated access (R9, R28). -/
def regAt (off : Nat) : Option RegAt :=
  match windowOf off with
  | none => none
  | some (b, inst, o) =>
    match (blockRegs b).find? (fun d => regCovers d o && inScope d.scope inst) with
    | none => none
    | some d => some ⟨d, inst, (o - d.off) / d.stride⟩

def fieldsReset (fs : List RegField) : Nat := fs.foldl (fun acc f => acc + f.rst * 2 ^ f.lsb) 0

/-- The reset value of the register at an offset (R10); TILE_IDENT carries its slot's number in silicon. -/
def regReset (off : Nat) : Word :=
  match regAt off with
  | none => 0
  | some r => w32 (fieldsReset r.d.fields + if r.d.name = .tileIdent then r.inst * 2 ^ 16 else 0)

def Dev.reg (d : Dev) (off : Nat) : Nat := (Sparse.get regReset d.regs off).toNat
def Dev.setReg (d : Dev) (off v : Nat) : Dev := { d with regs := Sparse.set regReset d.regs off (w32 v) }
def Dev.fld (d : Dev) (off : Nat) (f : Fld) : Nat := bitsAt (d.reg off) f.lsb f.width
def putBits (v lsb w x : Nat) : Nat := v - bitsAt v lsb w * 2 ^ lsb + x % 2 ^ w * 2 ^ lsb
def Dev.setFld (d : Dev) (off : Nat) (f : Fld) (x : Nat) : Dev := d.setReg off (putBits (d.reg off) f.lsb f.width x)
def Dev.flag (d : Dev) (off : Nat) (f : Fld) : Bool := d.fld off f == 1
def Dev.setFlag (d : Dev) (off : Nat) (f : Fld) (b : Bool) : Dev := d.setFld off f (b2n b)
/-- Counters: saturating and modulo (field width). -/
def Dev.satFld (d : Dev) (off : Nat) (f : Fld) (n : Nat) : Dev := d.setFld off f (satAdd f.width (d.fld off f) n)
def Dev.incFld (d : Dev) (off : Nat) (f : Fld) (n : Nat) : Dev := d.setFld off f (d.fld off f + n)
def fld32 : Fld := ⟨0, 32⟩
/-- A 64-bit count kept in a _LO and _HI pair. -/
def Dev.reg64 (d : Dev) (lo hi : Nat) : Nat := d.reg lo + d.reg hi * 2 ^ 32
def Dev.setReg64 (d : Dev) (lo hi v : Nat) : Dev := (d.setReg lo (v % 2 ^ 32)).setReg hi (v / 2 ^ 32 % 2 ^ 32)
def Dev.inc64 (d : Dev) (lo hi n : Nat) : Dev := d.setReg64 lo hi (d.reg64 lo hi + n)
/-- Writing masters, as a logbook entry names them. -/
def masterCode : Master → Nat
  | .tile p c => p.val + c.val * 2 ^ 12
  | .host => 2 ^ 16
  | .remote x => 2 * 2 ^ 16 + x.toNat
  | .bosun => 3 * 2 ^ 16
/-- Every register whose name satisfies `p` goes back to its reset value. -/
def Dev.dropRegs (d : Dev) (p : RegName → Bool) : Dev :=
  { d with regs := Sparse.drop (fun off => match regAt off with | some r => p r.d.name | none => false) d.regs }

/-! ## Memory (R24) -/

def holdTop : Nat := 0x8000000000
def caseLo : Nat := 0x010000000000
def storeLo : Nat := 0x011000000000
def ctlLo : Nat := 0x012000000000
def storeBytes : Nat := 0x60000
def tileBase (p : Nat) : Nat := storeLo + p * 0x80000
def caseBase (y : Nat) : Nat := caseLo + y * 0x4000000

/-- What a byte that is not listed reads as: the clears of R190, R220 and R221 leave zeros, and nothing reads a memory before
its first clear. -/
def memReset (_ : Nat) : Byte := 0
def Memory.wf (m : List Host.Cell) : Bool := Sparse.wf memReset m
def Dev.byte (d : Dev) (a : Nat) : Byte := Sparse.get memReset d.mem a
def Dev.bytes (d : Dev) (a n : Nat) : List Byte := (List.range n).map (fun i => d.byte (a + i))
def Dev.nat (d : Dev) (a n : Nat) : Nat := ofBytes (d.bytes a n)
def storeBytesAt (m : List Host.Cell) (a : Nat) : List Byte → List Host.Cell
  | [] => m
  | b :: bs => storeBytesAt (Sparse.set memReset m a b) (a + 1) bs
/-- The bytes that share check bits at `a`: a burst of the hold, a word elsewhere (R168, R210). -/
def eccUnit (a : Nat) : Nat := if a < holdTop then 64 else 8
/-- Words of which every byte from `a` on for `n` bytes is written hold fresh check bits (R169), and so do the bursts of the
hold that a write touches, which go back whole (R205, R210); a narrower write of a word with a correctable error corrects it. -/
def eccAfter (ecc : Sparse Nat) (a n : Nat) : Sparse Nat :=
  ecc.filter (fun e => !(decide (e.1 < a + n) && decide (a < e.1 + eccUnit e.1)
    && (e.2 == 1 || decide (e.1 < holdTop) || (decide (a ≤ e.1) && decide (e.1 + 8 ≤ a + n)))))
def Dev.store (d : Dev) (a : Nat) (bs : List Byte) : Dev :=
  { d with mem := storeBytesAt d.mem a bs, ecc := eccAfter d.ecc a bs.length }
def Dev.storeNat (d : Dev) (a n v : Nat) : Dev := d.store a (toBytes n v)
def Dev.dropMem (d : Dev) (p : Nat → Bool) : Dev :=
  { d with mem := Sparse.drop p d.mem, ecc := Sparse.drop p d.ecc, wb := d.wb.filter (fun w => !p w) }
/-- The worst error among the words of a range: 0 none, 1 correctable, 2 not, 3 not and counted (R440). -/
def Dev.eccWorst (d : Dev) (a n : Nat) : Nat :=
  d.ecc.foldl (fun acc e => if e.1 < a + n ∧ a < e.1 + eccUnit e.1 then max acc e.2 else acc) 0
/-- The words of the range with an uncorrectable error. -/
def Dev.eccAll (d : Dev) (a n : Nat) : List Nat :=
  (d.ecc.filter (fun e => decide (e.1 < a + n) && decide (a < e.1 + eccUnit e.1) && decide (2 ≤ e.2))).map (·.1)
/-- The first word of the range with an uncorrectable error. -/
def Dev.eccFirst (d : Dev) (a n : Nat) : Option Nat :=
  (d.ecc.find? (fun e => decide (e.1 < a + n) && decide (a < e.1 + eccUnit e.1) && decide (2 ≤ e.2))).map (·.1)

/-! ## How a command acts on the state -/

/-- The device with its memory and registers in canonical form, as every operation leaves them. -/
def Dev.canon (d : Dev) : Dev :=
  { d with mem := Sparse.canon memReset d.mem, regs := Sparse.canon regReset d.regs }

/-- A command that always has its effect: the queue stays as it is. -/
def onDev (f : Dev → Dev) (s : State) : Host.Outcome State Fault Refusal := .next { s with dev := (f s.dev).canon }

/-- A command of one issue core; there is no core 1, 2 or 3 in an MT or VT slot (R118, R126). -/
def onCore (slot core : Nat) (f : Dev → Dev) (s : State) : Host.Outcome State Fault Refusal :=
  if coreExists slot core then onDev f s else .fault (.noSuchCore slot core)

def inStore (a : Nat) : Bool := decide (storeLo ≤ a) && decide (a < storeLo + 1536 * 0x80000)
def inCase (a : Nat) : Bool := decide (caseLo ≤ a) && decide (a < caseLo + 64 * 0x4000000)
def inHold (a : Nat) : Bool := decide (a < holdTop)

/-! ## Tiles, yards, controllers, ports -/

def Dev.tile (d : Dev) (p : Nat) : Tile := Sparse.get (fun _ => Tile.idle) d.tiles p
def Dev.setTile (d : Dev) (p : Nat) (t : Tile) : Dev := { d with tiles := Sparse.set (fun _ => Tile.idle) d.tiles p t }
def Dev.modTile (d : Dev) (p : Nat) (f : Tile → Tile) : Dev := d.setTile p (f (d.tile p))
def Tile.core (t : Tile) (c : Nat) : Core := Sparse.get (fun _ => Core.idle) t.cores c
def Tile.setCore (t : Tile) (c : Nat) (k : Core) : Tile := { t with cores := Sparse.set (fun _ => Core.idle) t.cores c k }
def Dev.core (d : Dev) (p c : Nat) : Core := (d.tile p).core c
def Dev.setCore (d : Dev) (p c : Nat) (k : Core) : Dev := d.modTile p (fun t => t.setCore c k)
def Dev.modCore (d : Dev) (p c : Nat) (f : Core → Core) : Dev := d.setCore p c (f (d.core p c))
def Dev.modCores (d : Dev) (p : Nat) (f : Core → Core) : Dev :=
  [0, 1, 2, 3].foldl (fun d c => d.modCore p c f) d
def Tile.galley (t : Tile) (g : Nat) : Galley := Sparse.get (fun _ => Galley.empty) t.gal g
def Tile.setGalley (t : Tile) (g : Nat) (x : Galley) : Tile := { t with gal := Sparse.set (fun _ => Galley.empty) t.gal g x }
def Dev.galley (d : Dev) (p g : Nat) : Galley := (d.tile p).galley g
def Dev.setGalley (d : Dev) (p g : Nat) (x : Galley) : Dev := d.modTile p (fun t => t.setGalley g x)
def Tile.engine (t : Tile) (e : Nat) : Engine := Sparse.get (fun _ => Engine.idle) t.engines e
def Dev.setEngine (d : Dev) (p e : Nat) (x : Engine) : Dev :=
  d.modTile p (fun t => { t with engines := Sparse.set (fun _ => Engine.idle) t.engines e x })
def Dev.yard (d : Dev) (y : Nat) : YardS := Sparse.get (fun _ => YardS.idle) d.yards y
def Dev.setYard (d : Dev) (y : Nat) (x : YardS) : Dev := { d with yards := Sparse.set (fun _ => YardS.idle) d.yards y x }
def Dev.modYard (d : Dev) (y : Nat) (f : YardS → YardS) : Dev := d.setYard y (f (d.yard y))
def Dev.ctl (d : Dev) (c : Nat) : HoldC := Sparse.get (fun _ => HoldC.idle) d.hold c
def Dev.setCtl (d : Dev) (c : Nat) (x : HoldC) : Dev := { d with hold := Sparse.set (fun _ => HoldC.idle) d.hold c x }
def Dev.link (d : Dev) (n : Nat) : LinkP := Sparse.get (fun _ => LinkP.idle) d.links n
def Dev.setLink (d : Dev) (n : Nat) (x : LinkP) : Dev := { d with links := Sparse.set (fun _ => LinkP.idle) d.links n x }
def Dev.modLink (d : Dev) (n : Nat) (f : LinkP → LinkP) : Dev := d.setLink n (f (d.link n))
def Dev.pr (d : Dev) (c : Nat) : Press := Sparse.get (fun _ => Press.idle) d.press.p c
def Dev.setPr (d : Dev) (c : Nat) (x : Press) : Dev :=
  { d with press := { d.press with p := Sparse.set (fun _ => Press.idle) d.press.p c x } }
def Dev.modPr (d : Dev) (c : Nat) (f : Press → Press) : Dev := d.setPr c (f (d.pr c))
def Dev.send (d : Dev) (m : Msg) : Dev := { d with out := d.out ++ [m] }
/-- A fresh value of a quantity the spec leaves open. -/
def Dev.free (d : Dev) : DWord × Dev := (Config.free d.freeCtr, { d with freeCtr := d.freeCtr + 1 })

def allSlots : List Nat := List.range 1536
def allYards : List Nat := List.range 64

/-- In service under the published map (R16, R17): TILE_IDENT.STATE 0 once the manifest is loaded. -/
def Dev.inService (d : Dev) (p : Nat) : Bool :=
  decide (p < 1536) && d.fld Reg.devMap F.devMapMapGen != 0 && d.fld (Reg.tileIdent p) F.tileIdentState == 0
    && d.fld (Reg.tileIdent p) F.tileIdentLogicalId != 0x7FF
def Dev.logical (d : Dev) (p : Nat) : Nat := d.fld (Reg.tileIdent p) F.tileIdentLogicalId
/-- The physical slot of a logical tile (R16). -/
def Dev.slotOf (d : Dev) (t : Nat) : Option Nat :=
  ((List.range 24).map (fun s => 24 * (t / 23) + s)).find? (fun p => d.inService p && d.logical p == t)
def Dev.yardFurled (d : Dev) (y : Nat) : Bool := d.fld (Reg.yardHarvest y) F.yardHarvestYardState != 0
/-- Is the slot fenced and not yet furled? Its bit of YARD_FURL_PENDING.SLOTS says so; YARD alone makes no slot of the yard one (R20,
R25; log entry 112). -/
def Dev.pendingFurl (d : Dev) (p : Nat) : Bool := (d.fld (Reg.yardFurlPending (p / 24)) F.yardFurlPendingSlots) / 2 ^ (p % 24) % 2 == 1
/-- The slots whose tiles are in service. -/
def Dev.served (d : Dev) : List Nat := allSlots.filter d.inService
/-- The step CT: the CT of the lowest-numbered yard in service (R123). -/
def Dev.stepCt (d : Dev) : Option Nat := (allYards.find? (fun y => d.inService (24 * y + 23))).map (fun y => 24 * y + 23)

/-! ## Job state (R396) -/

namespace JobSt
def boot : Nat := 0
def idle : Nat := 1
def loading : Nat := 2
def loaded : Nat := 3
def running : Nat := 4
def held : Nat := 5
def draining : Nat := 6
def failed : Nat := 7
def clearing : Nat := 8
def debug : Nat := 9
end JobSt

def Dev.jst (d : Dev) : Nat := d.fld Reg.hstJob F.hstJobState
/-- From job start until the clear completes (R8, R497). -/
def Dev.started (d : Dev) : Bool := d.job.mapFrozen
def Dev.jobLoaded (d : Dev) : Bool := decide (2 ≤ d.jst) && decide (d.jst ≤ 8)
def Dev.runningJob (d : Dev) : Bool := d.started && (d.jst == 4 || d.jst == 5 || d.jst == 6)
def Dev.debugOpen (d : Dev) (scope : Nat) : Bool :=
  d.flag Reg.bosSec F.bosSecDebug && d.fld Reg.bosSec F.bosSecScope / 2 ^ scope % 2 == 1
def Dev.timebase (d : Dev) : Nat := d.reg64 Reg.clkTbLo Reg.clkTbHi
def Dev.step (d : Dev) : Word := w32 (d.reg Reg.halStep)
def Dev.ownDev (d : Dev) : Nat := d.fld Reg.devBoard F.devBoardSystemId

/-! ## Logbook (R438, R439) -/

def logRing : Nat := 65280
def pinMax : Nat := 256

/-- Does a corrected event fall into this entry: same instance and kind, within 10 s of the timebase (R439)? -/
def LogEntry.merges (e : LogEntry) (now block inst kind : Nat) : Bool :=
  e.cls == 1 && e.block == block && e.inst == inst && e.kind == kind && decide (now < e.time + 12500000000)

def mergeLog (now block inst kind : Nat) : List LogEntry → List LogEntry
  | [] => []
  | e :: es =>
    if e.merges now block inst kind then { e with count := satAdd 16 e.count 1 } :: es
    else e :: mergeLog now block inst kind es

/-- The logbook's newest and oldest sequence numbers as the registers show them. -/
def Dev.showLog (d : Dev) : Dev :=
  let nw := match d.bos.log.getLast? with | some e => e.seq | none => 0
  let ol := match d.bos.log.head? with | some e => e.seq | none => 0
  (d.setReg64 Reg.bosLogNewestLo Reg.bosLogNewestHi nw).setReg64 Reg.bosLogOldestLo Reg.bosLogOldestHi ol

def Dev.logEv (d : Dev) (cls block inst kind : Nat) (data : List Word) (first : Bool := false) : Dev :=
  if cls = 1 ∧ d.bos.log.any (fun e => e.merges d.timebase block inst kind) then
    { d with bos := { d.bos with log := mergeLog d.timebase block inst kind d.bos.log } }
  else
    let e : LogEntry := ⟨d.bos.seq + 1, d.timebase, d.step, cls, block, inst % 4096, kind, 1, first, data⟩
    let ring := d.bos.log ++ [e]
    let pin := if cls = 3 ∨ cls = 4 then d.bos.pinned ++ [e] else d.bos.pinned
    { d with bos := { d.bos with seq := d.bos.seq + 1, log := ring.drop (ring.length - logRing),
                                  pinned := pin.drop (pin.length - pinMax) } }.showLog

/-- A refused write to YARD_SQ_WAVE_OPEN is logged with its writing master (R287): `off` in control space. -/
def Dev.logWave (d : Dev) (m : Master) (off : Nat) (bs : List Byte) : Dev :=
  match (List.range 64).find? (fun y => decide (off ≤ Reg.yardSqWaveOpen y) && decide (Reg.yardSqWaveOpen y + 4 ≤ off + bs.length)) with
  | some y => d.logEv 0 2 y 1 [w32 (natAt bs (Reg.yardSqWaveOpen y - off) 4), w32 (masterCode m)]
  | none => d

/-- The 64 bytes of an entry. -/
def LogEntry.bytes (e : LogEntry) (pinned : Bool) : List Byte :=
  let b := toBytes 8 e.seq ++ toBytes 8 e.time ++ toBytes 4 e.step.toNat ++ toBytes 1 e.cls ++ toBytes 1 e.block
    ++ toBytes 2 e.inst ++ toBytes 2 e.kind ++ toBytes 2 e.count ++ toBytes 4 (b2n e.first + 2 * b2n pinned)
    ++ ((List.range 7).map (fun i => toBytes 4 (e.data.getD i 0).toNat)).flatten
  b ++ toBytes 4 (crc32 b).toNat

/-! ## Interrupts and completions (R385, R386, R389) -/

/-- A cause on vector `v`: sent at once, merged while the holdoff runs, or masked. -/
def Dev.irq (d : Dev) (v : Nat) : Dev :=
  if d.fld Reg.hstIrqCtl F.hstIrqCtlMask / 2 ^ v % 2 = 1 then d
  else match (d.host.holdoff.find? (fun e => e.1 = v)) with
    | some _ => { d with host := { d.host with holdoff := Sparse.insert d.host.holdoff v true } }
    | none =>
      let d := { d with host := { d.host with holdoff := Sparse.insert d.host.holdoff v false } }
      d.send (.hostWrite (d.reg64 Reg.hstIrqAddrLo Reg.hstIrqAddrHi) (toBytes 4 (d.reg Reg.hstIrqData / 4 * 4 + v)))

def Dev.cplSize (d : Dev) : Nat := 2 ^ d.fld Reg.hstCplSize F.hstCplSizeCplLog2
def Dev.cplBase (d : Dev) : Nat := d.reg64 Reg.hstCplBaseLo Reg.hstCplBaseHi
def Dev.cplFull (d : Dev) : Bool :=
  (d.fld Reg.hstCplTail F.hstCplTailTail + 1) % d.cplSize == d.fld Reg.hstCplHead F.hstCplHeadHead

/-- One 32-byte entry into the completion ring, with its PHASE; a full ring stalls the source (R385): the entry waits, with
its NO_IRQ behind it. -/
def Dev.pushCpl (d : Dev) (e : List Word) (noIrq : Bool) : Dev :=
  if d.cplFull then { d with host := { d.host with cplWait := d.host.cplWait ++ [e ++ [w32 (b2n noIrq)]] } }
  else
    let t := d.fld Reg.hstCplTail F.hstCplTailTail
    let w0 := putBits ((e.getD 0 0).toNat) 16 8 (b2n d.host.cplPhase)
    let bs := toBytes 4 w0 ++ ((e.drop 1).map (fun w => toBytes 4 w.toNat)).flatten
    let t' := (t + 1) % d.cplSize
    let d := (d.store (d.cplBase + 32 * t) bs).setFld Reg.hstCplTail F.hstCplTailTail t'
    let d := if t' = 0 then { d with host := { d.host with cplPhase := !d.host.cplPhase } } else d
    if noIrq then d else d.irq 0

/-- Waiting completions move into the ring once it has room. -/
def Dev.drainCpl (d : Dev) : Dev :=
  d.host.cplWait.foldl (fun d e => d.pushCpl (e.take 8) ((e.getD 8 0).getLsbD 0)) { d with host := { d.host with cplWait := [] } }

def cplWords (opcode status : Nat) (tag step detail : Word) (res : List Word) : List Word :=
  [w32 (opcode + status * 2 ^ 24), tag, step, detail, res.getD 0 0, res.getD 1 0, res.getD 2 0, res.getD 3 0]

/-- Events carry TAG 0xFFFF_FFFF (R389, R390). -/
def Dev.event (d : Dev) (opcode status : Nat) (step detail : Word) : Dev :=
  d.pushCpl (cplWords opcode status 0xFFFFFFFF#32 step detail []) false

/-- The completion of a host command, in the ring or the mailbox (R383, R389). -/
def Dev.complete (d : Dev) (q : CmdHdr) (opcode status : Nat) (detail : Nat) (res : List Word) (step : Word := noStep) : Dev :=
  let d := if status = 1 then d.setFld Reg.hstJob F.hstJobDetail detail else d
  let e := cplWords opcode status q.tag step (w32 detail) res
  match q.src with
  | .ring => d.pushCpl e q.noIrq
  | .mailbox =>
    let d := (List.range 8).foldl (fun d i => d.setReg (Reg.bosMbRsp i) (e.getD i 0).toNat) d
    ((d.setFlag Reg.bosMbStatus F.bosMbStatusDone true).setFlag Reg.bosMbStatus F.bosMbStatusBusy false).irq 1

def Dev.setJst (d : Dev) (st : Nat) : Dev :=
  ((d.setFld Reg.hstJob F.hstJobState st).logEv 0 0x0E 0 st [w32 (d.reg Reg.hstJob)]).irq 2

/-! ## The manifest (R410, R413) -/

/-- One append record of one 4 KiB block; with the half full, a consolidation goes before it (log entry 49). -/
def Manifest.append (m : Manifest) : Manifest :=
  if m.blocks < 1024 then { m with appends := m.appends + 1, blocks := m.blocks + 1 }
  else { m with half := !m.half, appends := 2, blocks := 3 }

def Dev.showManifest (d : Dev) : Dev :=
  let m := d.bos.man
  d.setReg Reg.bosManifest (b2n m.half + m.appends % 2 ^ 15 * 2 + (1024 - m.blocks) * 4 % 2 ^ 16 * 2 ^ 16)

/-- A record with the manifest's new content. -/
def Dev.append (d : Dev) (man : Manifest) : Dev := { d with bos := { d.bos with man := man.append } }.showManifest

/-! ## Replacement request and alerts (R448, R463, R473) -/

def Dev.replaceCause (d : Dev) (i : Nat) : Dev :=
  let cur := d.reg Reg.devReplace
  if cur / 2 ^ i % 2 = 1 then d
  else ((d.setReg Reg.devReplace (putBits (cur + 2 ^ i) 31 1 1)).logEv 4 0x10 0 i []).irq 3

def Dev.alert (d : Dev) (i : Nat) : Dev :=
  d.setReg Reg.pwrAlert (putBits (d.reg Reg.pwrAlert) i 1 1)

/-! ## Faults (R157, R188, R433, R434) -/

def Dev.notice (d : Dev) (block kind inst : Nat) : Dev :=
  { d with hal := { d.hal with notices := d.hal.notices ++ [⟨block, kind, inst⟩] } }

/-- Every core of the tile stops; the units of an MT or VT discard their queues, a CT's engines stop (R106, R120, R157). -/
def Dev.stopTile (d : Dev) (p : Nat) : Dev :=
  let d := d.modCores p (fun k => if k.run = .halted then k else { k with run := .stopped, stalled := none })
  d.modTile p (fun t => { t with
    mq := [], groups := t.groups.map (fun g => (g.1, g.2.dropped)), sfu := [], red := [], qnt := [],
    engines := if slotIsCt p then [0, 1, 2, 3].map (fun i => (i, ((Sparse.get (fun _ => Engine.idle) t.engines i).halt))) else t.engines })

/-- A program fault of core `c` (R157, R158): recorded when VALID is 0, else MORE. -/
def Dev.progFault (d : Dev) (p c cls fn pc cause : Nat) (addr : DWord) : Dev :=
  let r := Reg.tileProgFault p
  let d :=
    if d.flag r F.tileProgFaultValid then d.setFlag r F.tileProgFaultMore true
    else
      let v := cause + c * 2 ^ 4 + cls * 2 ^ 6 + fn * 2 ^ 11 + 2 ^ 31
      ((d.setReg r v).setReg (Reg.tileProgPc p) pc).setReg64 (Reg.tileProgAddrLo p) (Reg.tileProgAddrHi p) addr.toNat
  let d := if slotIsCt p ∧ d.flag r F.tileProgFaultMore = false then d.setFld (Reg.tileCtCores p) F.tileCtCoresFaultCore c else d
  (d.stopTile p).notice 1 cause p

/-- A galley fault of R188 at galley `g`, and its program fault, cause 0x5: neither is recorded while an earlier fault stands
(R158). -/
def Dev.galleyFault (d : Dev) (p c cls fn pc g kind : Nat) (consumer : Bool) (addr : DWord) : Dev :=
  let x := d.galley p g
  let r := Reg.tileGalleyFault p
  let d := if d.flag r F.tileGalleyFaultValid || d.flag (Reg.tileProgFault p) F.tileProgFaultValid then d
    else d.setReg r (g + kind * 2 ^ 4 + x.prod * 2 ^ 8 + x.cons * 2 ^ 12 + b2n consumer * 2 ^ 16 + x.nfull * 2 ^ 17 + 2 ^ 31)
  d.progFault p c cls fn pc 5 addr

/-- A matrix fault (R106), recorded as R158 has it. -/
def Dev.matrixFault (d : Dev) (p pc mop cause : Nat) (arr grp bank ep : Nat) : Dev :=
  let r := Reg.tileMtFault p
  let d := if d.flag r F.tileMtFaultValid || d.flag (Reg.tileProgFault p) F.tileProgFaultValid then d
    else d.setReg r (cause + arr * 2 ^ 4 + grp * 2 ^ 5 + bank * 2 ^ 8 + ep * 2 ^ 9 + pc * 2 ^ 12 + 2 ^ 31)
  (d.setFlag (Reg.tileMtSticky p) F.tileMtStickyProgramFault true).progFault p 0 0x0F mop pc 0xA 0

/-- A steal fault's register (R279), and its notice. -/
def Dev.sqFault (d : Dev) (y kind slot entry task : Nat) : Dev :=
  let r := Reg.yardSqFault y
  if d.flag r F.yardSqFaultValid then d.setFlag r F.yardSqFaultMore true
  else d.setReg r (kind + slot * 2 ^ 3 + entry * 2 ^ 8 + task * 2 ^ 14 + 2 ^ 31)

/-- A press fault (R320), class step-recoverable. -/
def Dev.pressFault (d : Dev) (c kind layer pass : Nat) : Dev :=
  let r := Reg.pressFault c
  let d := if d.flag r F.pressFaultValid then d.setFlag r F.pressFaultMore true
    else d.setReg r (kind + layer * 2 ^ 4 + pass * 2 ^ 16 + 2 ^ 31)
  (d.setFld (Reg.pressStatus c) F.pressStatusState 6).notice 5 kind c

/-- The device-fatal state (R399, R434): FAILED, event, alert, kill notice, logbook, and the self-test its scope asks for at
the boundary. -/
def Dev.fatal (d : Dev) (block kind inst : Nat) (endCause : Nat) (test : Option (Nat × Nat)) : Dev :=
  if d.jst = JobSt.failed ∨ d.jst = JobSt.clearing then d.logEv 3 block inst kind []
  else
    let d := (d.logEv 3 block inst kind []).setJst JobSt.failed
    let d := { d with
      bos := { d.bos with endCause := endCause,
                          boundaryTests := match test with | some t => d.bos.boundaryTests ++ [t] | none => d.bos.boundaryTests },
      hal := { d.hal with aborting := false, heldAbort := none, notices := [] } }
    ((d.setFld Reg.hstJob F.hstJobEndCause endCause).event 0x0103 0x06 d.step (w32 endCause)).irq 3 |>.send .killNotice

end Sys2Proof.Machine
end

