-- ==== Sys2Proof/Machine/Imposition.lean ====
section
/-! DEFINITION. Sys2Proof/Machine/Imposition.lean: the fields of phase headers (R227), entries (R228) and node entries
(R240), and the way through the mesh (R14, R15, R235). -/

namespace Sys2Proof.Machine

/-! ## Phase headers (R227) -/

def phNum (h : BitVec 128) : Nat := bitsAt h.toNat 0 16
def phClose (h : BitVec 128) : Nat := bitsAt h.toNat 16 4
def phRset (h : BitVec 128) : Nat := bitsAt h.toNat 20 4
def phLimit (h : BitVec 128) : Nat := bitsAt h.toNat 24 5
def phFirst (h : BitVec 128) : Nat := bitsAt h.toNat 32 9
def phCount (h : BitVec 128) : Nat := bitsAt h.toNat 41 10

/-! ## Entries (R228) -/

def xeF (e : BitVec 256) (word lsb w : Nat) : Nat := bitsAt (e.toNat / 2 ^ (32 * word)) lsb w
def xeOp (e : BitVec 256) : Nat := xeF e 0 0 4
def xeGal (e : BitVec 256) : Nat := xeF e 0 4 4
def xeSrcMem (e : BitVec 256) : Bool := xeF e 0 8 1 == 1
def xeDstMem (e : BitVec 256) : Bool := xeF e 0 9 1 == 1
def xeLane (e : BitVec 256) : Nat := xeF e 0 10 2
def xeRop (e : BitVec 256) : Nat := xeF e 0 12 2
def xeRnd (e : BitVec 256) : Nat := xeF e 0 14 2
def xeTag (e : BitVec 256) : Nat := xeF e 0 16 16
def xePeer (e : BitVec 256) : Nat := xeF e 1 0 11
def xePeerDev (e : BitVec 256) : Nat := xeF e 1 11 12
def xeRemote (e : BitVec 256) : Bool := xeF e 1 23 1 == 1
def xeRfmt (e : BitVec 256) : Nat := xeF e 1 24 4
def xeUnits (e : BitVec 256) : Nat := xeF e 2 0 16
def xeUnitBytes (e : BitVec 256) : Nat := 64 * xeF e 2 16 12
def xeTensor (e : BitVec 256) : Nat := xeF e 3 0 16
def xeIndex (e : BitVec 256) : Nat := xeF e 4 0 32
def xeLaddr (e : BitVec 256) : Nat := xeF e 5 0 19
def xeAddr (e : BitVec 256) : Nat := xeF e 6 0 64
def xeRowLen (e : BitVec 256) : Nat := xeF e 6 0 32
def xeCols (e : BitVec 256) : Nat := xeF e 7 0 16
def xeUrows (e : BitVec 256) : Nat := xeF e 7 16 16

def opSend : Nat := 1
def opRecv : Nat := 2
def opRsend : Nat := 3
def opRrecv : Nat := 4
def opRwrite : Nat := 5

/-- Does the entry use its galley field? -/
def xeUsesGal (e : BitVec 256) : Bool :=
  (xeOp e == opSend && !xeSrcMem e) || (xeOp e == opRsend && !xeSrcMem e) || xeOp e == opRecv || (xeOp e == opRrecv && !xeDstMem e)
    || (xeOp e == opRwrite && !xeSrcMem e)

/-! ## Node entries (R240) -/

def neF (e : BitVec 128) (word lsb w : Nat) : Nat := bitsAt (e.toNat / 2 ^ (32 * word)) lsb w
def neRid (e : BitVec 128) : Nat := neF e 0 0 10
def neOrd (e : BitVec 128) : Nat := neF e 0 10 15
def neInputs (e : BitVec 128) : List Nat :=
  (List.range (neF e 0 25 3 + 1)).map (fun i => if i < 4 then neF e 1 (5 * i) 5 else neF e 2 (5 * (i - 4)) 5)
def neOut (e : BitVec 128) : Nat := neF e 1 20 5

/-! ## The mesh -/

/-- Directions as R240 codes them: 24 N, 25 E, 26 S, 27 W; 28 the attachment. -/
def dirN : Nat := 24
def dirE : Nat := 25
def dirS : Nat := 26
def dirW : Nat := 27
def dirOut : Nat := 28

/-- The neighbouring yard in a direction (R14). -/
def neighbour (y dir : Nat) : Option Nat :=
  if dir = dirN then (if y < 8 then none else some (y - 8))
  else if dir = dirS then (if 56 ≤ y then none else some (y + 8))
  else if dir = dirE then (if y % 8 = 7 then none else some (y + 1))
  else if dir = dirW then (if y % 8 = 0 then none else some (y - 1))
  else none

def opposite (dir : Nat) : Nat := if dir = dirN then dirS else if dir = dirS then dirN else if dir = dirE then dirW else dirE

/-- Yards of the fabric ports, in port order, the host port and the controllers (R15). -/
def portYards : List Nat := [1, 2, 5, 6, 15, 23, 47, 55, 62, 61, 58, 57, 48, 40, 16, 8]
def hostYard : Nat := 3
def ctlYards : List Nat := [0, 7, 63, 56]

/-- The yard whose router a destination of R235 hangs on. -/
def destYard (dest : Nat) : Nat :=
  if dest < 64 then dest else if dest < 68 then ctlYards.getD (dest - 64) 0 else if dest < 84 then portYards.getD (dest - 68) 0 else hostYard

/-- Route set 0: columns first, then rows (R235). None: the destination's own router. -/
def route0 (y dest : Nat) : Option Nat :=
  let t := destYard dest
  if y % 8 < t % 8 then some dirE else if t % 8 < y % 8 then some dirW
  else if y / 8 < t / 8 then some dirS else if t / 8 < y / 8 then some dirN else none

/-- Key of a compiled route: set, router, destination. -/
def routeKey (rset y dest : Nat) : Nat := (rset * 64 + y) * 128 + dest

/-- The output a router gives a packet: a direction, or none at its destination's router. -/
def Dev.routeOf (d : Dev) (rset y dest : Nat) : Option Nat :=
  if rset = 0 then route0 y dest
  else
    let o := Sparse.get (fun _ => 31) d.routes (routeKey rset y dest)
    if dirN ≤ o ∧ o ≤ dirW then some o else none

end Sys2Proof.Machine
end

