-- ==== Sys2Proof/Machine/Store.lean ====
section
/-! DEFINITION. Sys2Proof/Machine/Store.lean: reads and writes of a tile's own store: check bits (R167 to R169), banks and
their owners (R164, R175, R176), the code region (R130, R161). -/

namespace Sys2Proof.Machine

/-- The words of a list that hold a correctable error. -/
def Dev.ceOf (d : Dev) (sel : Nat → Bool) : List Nat := (d.ecc.filter (fun e => sel e.1 && e.2 == 1)).map (·.1)
/-- Is a word among those that `n` bytes from `g` on touch? -/
def touches (g n w : Nat) : Bool := decide (w < g + n) && decide (g < w + 8)
/-- The write-back of a corrected word waits for a free cycle. -/
def Dev.queueBack (d : Dev) (w : Nat) : Dev := { d with wb := if d.wb.contains w then d.wb else d.wb ++ [w] }

/-- Correctable errors of the words that `sel` picks: the data are delivered corrected, CE_COUNT rises (R168). -/
def Dev.noteCeAt (d : Dev) (p : Nat) (sel : Nat → Bool) : Dev :=
  (d.ceOf sel).foldl (fun d w => (d.satFld (Reg.tileEccStatus p) F.tileEccStatusCeCount 1).queueBack w) d
def Dev.noteCe (d : Dev) (p g n : Nat) : Dev := d.noteCeAt p (touches g n)

/-- A slot or a yard is fenced while a job is loaded: it becomes furl-pending (R20, R440). -/
def Dev.fenceSlot (d : Dev) (p : Nat) : Dev :=
  let r := Reg.yardFurlPending (p / 24)
  let d := d.setReg r (Nat.lor (d.reg r) (2 ^ (p % 24)))
  (if slotIsCt p then d.setFlag r F.yardFurlPendingYard true else d).setFlag Reg.devMap F.devMapPending true
def Dev.fenceYard (d : Dev) (y : Nat) : Dev :=
  (d.setFlag (Reg.yardFurlPending y) F.yardFurlPendingYard true).setFlag Reg.devMap F.devMapPending true

/-- An occurrence of an uncorrectable error at the word at global address `g` is counted once, until the word is rewritten;
the second in one job fences its unit (R169, R440). -/
def Dev.countUe (d : Dev) (g : Nat) (fence : Dev → Dev) : Dev :=
  if Sparse.get (fun _ => 0) d.ecc g ≠ 2 then d
  else
    let n := Sparse.get (fun _ => 0) d.bos.ueSeen g + 1
    let d := { d with ecc := Sparse.set (fun _ => 0) d.ecc g 3, bos := { d.bos with ueSeen := Sparse.set (fun _ => 0) d.bos.ueSeen g n } }
    if 2 ≤ n ∧ d.jobLoaded then fence d else d

/-- An uncorrectable error at word `w` of the tile's store, found by master `m` of R171 (R169). -/
def Dev.noteUe (d : Dev) (p w m : Nat) : Dev :=
  let d := d.countUe (tileBase p + w) (fun d => d.fenceSlot p)
  let r := Reg.tileEccStatus p
  if d.flag r F.tileEccStatusUe then d.setFlag r F.tileEccStatusUeMore true
  else ((d.setFlag r F.tileEccStatusUe true).setFld r F.tileEccStatusUeMaster m).setFld (Reg.tileEccAddr p) F.tileEccAddrAddr w

/-- Words of the store at the global addresses `ws`, found beyond correction by master `m`: each is an error of its own. -/
def Dev.noteUes (d : Dev) (p m : Nat) (ws : List Nat) : Dev := ws.foldl (fun d w => d.noteUe p (w - tileBase p) m) d

/-- A read of `n` bytes at local address `a` by master `m`: false when a word of it is beyond correction. -/
def Dev.readStore (d : Dev) (p a n m : Nat) : Dev × Bool :=
  let g := tileBase p + a
  let d := d.noteCe p g n
  match d.eccAll g n with
  | [] => (d, true)
  | ws => (d.noteUes p m ws, false)

/-- Owner classes (R175). -/
def ownTile : Nat := 0
def ownExch : Nat := 1
def ownPort : Nat := 2

/-- Two-bit fields, the first lowest. -/
def ofBits2 (l : List Nat) : Nat := l.foldr (fun x acc => x % 4 + 4 * acc) 0

def Dev.bankOwner (d : Dev) (p b : Nat) : Nat := bitsAt (d.reg (Reg.tileBankOwner p)) (2 * b) 2

/-- May a writer of owner class `cls` write the bytes? Ownership binds while a job runs (R175). -/
def Dev.mayWrite (d : Dev) (p a n cls : Nat) : Bool :=
  !d.runningJob || n == 0 ||
    (List.range ((a + n - 1) / 0x6000 + 1 - a / 0x6000)).all (fun i => d.bankOwner p (a / 0x6000 + i) == cls)

/-- Inside the store, and a multiple of the access size (R130). -/
def localOk (a : DWord) (align n : Nat) : Bool := decide (a.toNat + n ≤ storeBytes) && decide (a.toNat % align = 0)

/-- The bytes of a partial write, one by one: each word's other bytes are read and written back (R169). -/
def Dev.storeBytewise (d : Dev) (a : Nat) (ws : List (Nat × Byte)) : Dev :=
  ws.foldl (fun d w => d.store (a + w.1) [w.2]) d

/-- Is a word among those that hold the bytes `ws`, listed from `a` on? -/
def rmwTouches (a : Nat) (ws : List (Nat × Byte)) (w : Nat) : Bool := ws.any (fun x => decide ((a + x.1) / 8 * 8 = w))
/-- The words beyond correction that a read-modify-write of these bytes meets. -/
def Dev.rmwUes (d : Dev) (a : Nat) (ws : List (Nat × Byte)) : List Nat :=
  (d.ecc.filter (fun e => rmwTouches a ws e.1 && decide (2 ≤ e.2))).map (·.1)

end Sys2Proof.Machine
end

