-- ==== Sys2Proof/Machine/Words.lean ====
section
/-! DEFINITION. Sys2Proof/Machine/Words.lean: the words of the tile instruction set (R135 to R156): the fields of a first
word, the layouts W, I, J and M, and the instruction that one or two words spell. Whether the tile's kind accepts the class,
and the rules on register numbers, are checked at issue (R137). -/

namespace Sys2Proof.Machine

/-! ## The fields (R135) -/

/-- Bits [lsb + n − 1 : lsb] of a word. -/
def wbits (w : Word) (lsb n : Nat) : Nat := w.toNat / 2 ^ lsb % 2 ^ n
def wLong (w : Word) : Bool := wbits w 0 1 == 1
def wClass (w : Word) : Nat := wbits w 1 5
def wPg (w : Word) : Fin 8 := Fin.ofNat 8 (wbits w 6 3)
def wPn (w : Word) : Bool := wbits w 9 1 == 1
def wD (w : Word) : R5 := Fin.ofNat 32 (wbits w 10 5)
def wA (w : Word) : R5 := Fin.ofNat 32 (wbits w 15 5)
def wB (w : Word) : R5 := Fin.ofNat 32 (wbits w 20 5)
/-- FN of layout W, and of layout I. -/
def wFn (w : Word) : Nat := wbits w 25 7
def wFnI (w : Word) : Nat := wbits w 20 4
def wImm8 (w : Word) : BitVec 8 := BitVec.ofNat 8 (wbits w 24 8)
def wOff22 (w : Word) : BitVec 22 := BitVec.ofNat 22 (wbits w 10 22)

/-- The issuing core and the guard that the word names. -/
def wIss (slot : Slot) (core : Fin 4) (w : Word) : Iss := ⟨slot, core, wPg w, wPn w⟩

/-- The immediate of layout I: a long one has IMM8 0 and IMM32 in its high word. -/
def wImm (w0 w1 : Word) : Option Imm :=
  if wLong w0 then (if wImm8 w0 = 0 then some (.long w1) else none) else some (.short (wImm8 w0))

/-- The fields of a matrix instruction (R148). -/
def wMatrix (w0 w1 : Word) : MFields :=
  ⟨Fin.ofNat 4 (wbits w0 15 2), wbits w0 17 1 == 1, wbits w0 18 1 == 1, Fin.ofNat 8 (wbits w0 19 3), Fin.ofNat 8 (wbits w0 22 3),
    Fin.ofNat 16 (wbits w0 25 4), Fin.ofNat 8 (wbits w0 29 3), Fin.ofNat 16 (wbits w1 0 4), BitVec.ofNat 8 (wbits w1 4 8),
    wbits w1 12 1 == 1, Fin.ofNat 32 (wbits w1 13 5), Fin.ofNat 32 (wbits w1 18 5)⟩

/-- The function that TILE_PROG_FAULT names: by layout FN of four or seven bits, MOP, none of a branch; of a reserved class as
in layout W (log entry 24). -/
def wFunction (w : Word) : Nat :=
  match wClass w with
  | 2 | 6 | 0xB => wFnI w
  | 3 | 4 => 0
  | 0xF => wbits w 10 5
  | _ => wFn w

/-- Which lengths a class allows: one word, two (R136). -/
def classLength (cls : Nat) (long : Bool) : Bool :=
  match cls with
  | 2 | 6 | 8 | 0xB => true
  | 0xA | 0xE | 0xF => long
  | _ => !long

/-! ## The classes -/

/-- Class 0x01 (R139). -/
def decScalar (h : Iss) (d a b : R5) : Nat → Option Instr
  | 0x00 => some (.add h d a b) | 0x01 => some (.sub h d a b) | 0x02 => some (.and h d a b) | 0x03 => some (.or h d a b)
  | 0x04 => some (.xor h d a b) | 0x05 => some (.shl h d a b) | 0x06 => some (.shr h d a b) | 0x07 => some (.sra h d a b)
  | 0x08 => some (.mul h d a b) | 0x09 => some (.mulhu h d a b) | 0x0A => some (.min h d a b) | 0x0B => some (.max h d a b)
  | 0x0C => some (.minu h d a b) | 0x0D => some (.maxu h d a b) | 0x10 => some (.cmpeq h d a b) | 0x11 => some (.cmpne h d a b)
  | 0x12 => some (.cmplt h d a b) | 0x13 => some (.cmple h d a b) | 0x14 => some (.cmpltu h d a b) | 0x15 => some (.cmpleu h d a b)
  | _ => none

/-- Class 0x02 (R139). -/
def decScalarImm (h : Iss) (d a : R5) (i : Imm) : Nat → Option Instr
  | 0x0 => some (.addi h d a i) | 0x1 => some (.andi h d a i) | 0x2 => some (.ori h d a i) | 0x3 => some (.xori h d a i)
  | 0x4 => some (.shli h d a i) | 0x5 => some (.shri h d a i) | 0x6 => some (.srai h d a i) | 0x7 => some (.movh h d a i)
  | 0x8 => some (.cmpeqi h d a i) | 0x9 => some (.cmpnei h d a i) | 0xA => some (.cmplti h d a i) | 0xB => some (.cmpltui h d a i)
  | _ => none

/-- Class 0x05 (R140). -/
def decControl (h : Iss) (d a b : R5) : Nat → Option Instr
  | 0x00 => some (.nopInstruction h) | 0x01 => some (.halt h) | 0x02 => some (.fence h) | 0x03 => some (.jr h a)
  | 0x04 => some (.srd h d b) | 0x05 => some (.pand h d a b) | 0x06 => some (.por h d a b) | 0x07 => some (.pxor h d a b)
  | 0x08 => some (.pnot h d a) | 0x09 => some (.pany h d a) | 0x0A => some (.pall h d a)
  | _ => none

/-- Class 0x06 (R141). -/
def decLocal (h : Iss) (d a : R5) (i : Imm) : Nat → Option Instr
  | 0x0 => some (.ldU8 h d a i) | 0x1 => some (.ldS8 h d a i) | 0x2 => some (.ldU16 h d a i) | 0x3 => some (.ldS16 h d a i)
  | 0x4 => some (.ldU32 h d a i) | 0x5 => some (.ldS32 h d a i) | 0x6 => some (.ld64 h d a i) | 0x8 => some (.st8 h d a i)
  | 0x9 => some (.st16 h d a i) | 0xA => some (.st32 h d a i) | 0xB => some (.st64 h d a i) | 0xC => some (.lxadd32 h d a i)
  | 0xD => some (.lxadd64 h d a i)
  | _ => none

/-- Class 0x07 (R142). -/
def decGlobal (h : Iss) (d a b : R5) : Nat → Option Instr
  | 0x00 => some (.ldg32 h d a) | 0x01 => some (.ldg64 h d a) | 0x02 => some (.stg32 h a b) | 0x03 => some (.stg64 h a b)
  | 0x04 => some (.gadd32 h d a b) | 0x05 => some (.gadd64 h d a b) | 0x06 => some (.vldg h d a) | 0x07 => some (.vstg h d a)
  | _ => none

/-- Class 0x08: OP[2:0], LF[4:3], RND[6:5]; B is 0 in vabs and vneg (R143). -/
def decVector (h : Iss) (d a b : R5) (fn : Nat) (hi : Option Word) : Option Instr :=
  let lf : Fin 4 := Fin.ofNat 4 (fn / 8)
  let rnd : Fin 4 := Fin.ofNat 4 (fn / 32)
  match fn % 8 with
  | 0 => some (.vadd h d a b lf rnd hi) | 1 => some (.vsub h d a b lf rnd hi) | 2 => some (.vmul h d a b lf rnd hi)
  | 3 => some (.vfma h d a b lf rnd hi) | 4 => some (.vmin h d a b lf rnd hi) | 5 => some (.vmax h d a b lf rnd hi)
  | 6 => if b = 0 then some (.vabs h d a lf rnd hi) else none
  | _ => if b = 0 then some (.vneg h d a lf rnd hi) else none

/-- Class 0x09: OP[4:0], LF[6:5] (R144). -/
def decMove (h : Iss) (d a b : R5) (fn : Nat) : Option Instr :=
  let lf : Fin 4 := Fin.ofNat 4 (fn / 32)
  match fn % 32 with
  | 0 => some (.vcmpeq h d a b lf) | 1 => some (.vcmpne h d a b lf) | 2 => some (.vcmplt h d a b lf) | 3 => some (.vcmple h d a b lf)
  | 4 => some (.vcmpun h d a b lf) | 5 => some (.vsel h d a b lf) | 6 => some (.vmov h d a lf) | 7 => some (.vbcast h d a lf)
  | 8 => some (.vext h d a b lf) | 9 => some (.vins h d a b lf) | 10 => some (.vidx h d a lf)
  | _ => none

/-- Class 0x0B (R146). -/
def decVectorMem (h : Iss) (d a : R5) (i : Imm) : Nat → Option Instr
  | 0x0 => some (.vld16 h d a i) | 0x1 => some (.vld8 h d a i) | 0x2 => some (.vld4 h d a i) | 0x3 => some (.vldW h d a i)
  | 0x4 => some (.vst16 h d a i) | 0x5 => some (.vst8 h d a i) | 0x6 => some (.vst4 h d a i) | 0x7 => some (.vstW h d a i)
  | _ => none

/-- Class 0x0C: FN[3:0], FN[4] the format; FN[6:5] is 0 (R147). -/
def decSpecial (h : Iss) (d a : R5) (fn : Nat) : Option Instr :=
  let f := fn / 16 == 1
  if 32 ≤ fn then none
  else match fn % 16 with
  | 0 => some (.vrcp h d a f) | 1 => some (.vrsqrt h d a f) | 2 => some (.vexp h d a f) | 3 => some (.vexp2 h d a f)
  | 4 => some (.vlog h d a f) | 5 => some (.vlog2 h d a f) | 6 => some (.vsigm h d a f) | 7 => some (.vtanh h d a f)
  | 8 => some (.vsilu h d a f) | 9 => some (.verf h d a f)
  | _ => none

/-- Class 0x0D: FN[2:0], FN[3] the source, FN[4] the format; FN[6:5] is 0 (R147). -/
def decReduce (h : Iss) (d a b : R5) (fn : Nat) : Option Instr :=
  let v := fn / 8 % 2 == 1
  let f := fn / 16 == 1
  if 32 ≤ fn then none
  else match fn % 8 with
  | 0 => some (.vredSum h d a b v f) | 1 => some (.vredSumsq h d a b v f) | 2 => some (.vredMin h d a b v f)
  | 3 => some (.vredMax h d a b v f) | 4 => some (.vredAmax h d a b v f)
  | _ => none

/-- Class 0x0F: MOP, bits 31:23 of the high word 0 (R148). -/
def decMatrix (h : Iss) (w0 w1 : Word) : Option Instr :=
  let f := wMatrix w0 w1
  if wbits w1 23 9 ≠ 0 then none
  else match wbits w0 10 5 with
  | 0 => some (.mload h f) | 1 => some (.mopen h f) | 2 => some (.mstream h f) | 3 => some (.mpair h f)
  | 4 => some (.mclose h f) | 5 => some (.mdrop h f) | 6 => some (.mepl h f) | 7 => some (.mwait h f)
  | _ => none

/-- Class 0x10 (R149). -/
def decGalley (h : Iss) (d a b : R5) : Nat → Option Instr
  | 0x00 => some (.gset h a b) | 0x01 => some (.gacq h d b) | 0x02 => some (.gacqNb h d b) | 0x03 => some (.grel h b)
  | 0x04 => some (.gres h d b) | 0x05 => some (.gresNb h d b) | 0x06 => some (.gcom h b) | 0x07 => some (.gstat h d b)
  | _ => none

/-- Class 0x11 (R150). -/
def decTake (h : Iss) (d a : R5) : Nat → Option Instr
  | 0 => some (.stake h d) | 1 => some (.stakeW h d) | 2 => some (.sdone h a)
  | _ => none

/-- Class 0x12: B selects what sctl sets (R150). -/
def decPost (h : Iss) (a b : R5) : Nat → Option Instr
  | 0 => some (.spost h a)
  | 1 => if b = 0 then some (.sctlOpen h) else if b = 1 then some (.sctlClose h) else if b = 2 then some (.sctlDrain h) else none
  | _ => none

/-- Class 0x13 (R151). -/
def decDesc (h : Iss) (d a b : R5) : Nat → Option Instr
  | 0 => some (.dpost h a b) | 1 => some (.dwait h a b) | 2 => some (.dstat h d b)
  | _ => none

/-- Class 0x14 (R152). -/
def decHalyard (h : Iss) (d a b : R5) : Nat → Option Instr
  | 0 => some (.hbar h b) | 1 => some (.hwait h b) | 2 => some (.hsync h b) | 3 => some (.hflagSet h a) | 4 => some (.hflagClr h a)
  | 5 => some (.hbc h a) | 6 => some (.hrx h d) | 7 => some (.hdec h d a) | 8 => some (.hrel h a) | 9 => some (.hwcr h a)
  | _ => none

/-- Class 0x15 (R155). -/
def decHandoff (h : Iss) (d a : R5) : Nat → Option Instr
  | 0 => some (.xgo h a) | 1 => some (.xwait h) | 2 => some (.xstat h d)
  | _ => none

/-- The instruction that a first word and the word behind it spell for a core; none: an illegal one (R135 to R137). Fields that
an instruction of layout W does not use are not read (log entry 24). -/
def decodeInsn (slot : Slot) (core : Fin 4) (w0 w1 : Word) : Option Instr :=
  let h := wIss slot core w0
  let d := wD w0
  let a := wA w0
  let b := wB w0
  let fn := wFn w0
  if !classLength (wClass w0) (wLong w0) then none
  else match wClass w0 with
  | 0x01 => decScalar h d a b fn
  | 0x02 => (wImm w0 w1).bind (fun i => decScalarImm h d a i (wFnI w0))
  | 0x03 => some (.bra h (wOff22 w0))
  | 0x04 => some (.call h (wOff22 w0))
  | 0x05 => decControl h d a b fn
  | 0x06 => (wImm w0 w1).bind (fun i => decLocal h d a i (wFnI w0))
  | 0x07 => decGlobal h d a b fn
  | 0x08 => decVector h d a b fn (if wLong w0 then some w1 else none)
  | 0x09 => decMove h d a b fn
  | 0x0A => if fn = 0 then some (.vcvt h d a w1) else if fn = 1 then some (.vquoin h d a w1) else none
  | 0x0B => (wImm w0 w1).bind (fun i => decVectorMem h d a i (wFnI w0))
  | 0x0C => decSpecial h d a fn
  | 0x0D => decReduce h d a b fn
  | 0x0E => if fn = 0 then some (.qrow h a b w1) else if fn = 1 then some (.qmerge h a b w1) else none
  | 0x0F => decMatrix h w0 w1
  | 0x10 => decGalley h d a b fn
  | 0x11 => decTake h d a fn
  | 0x12 => decPost h a b fn
  | 0x13 => decDesc h d a b fn
  | 0x14 => decHalyard h d a b fn
  | 0x15 => decHandoff h d a fn
  | 0x16 => if fn = 0 then some (.brk h) else if fn = 1 then some (.dmark h a) else none
  | _ => none

end Sys2Proof.Machine
end

