-- ==== Sys2Proof/Machine/Operands.lean ====
section
/-! DEFINITION. Sys2Proof/Machine/Operands.lean: registers of an issue core, guards, immediates, vector lanes, and how an
instruction issues: the words at the PC, class check, encoding check, squashing, stalls, the program counter and program
faults (R126 to R137, R157). -/

namespace Sys2Proof.Machine

/-! ## Registers (R126, R127) -/

def Core.sreg (k : Core) (r : R5) : DWord := if r = 0 then 0 else Sparse.get (fun _ => (0 : DWord)) k.s r
def Core.setS (k : Core) (r : R5) (v : DWord) : Core :=
  if r = 0 then k else { k with s := Sparse.set (fun _ => (0 : DWord)) k.s r v }
def Core.vreg (k : Core) (r : Nat) : Vec := Sparse.get (fun _ => (0 : Vec)) k.v r
def Core.setV (k : Core) (r : Nat) (v : Vec) : Core := { k with v := Sparse.set (fun _ => (0 : Vec)) k.v r v }
def allOnes : Pred := BitVec.allOnes 128
def Core.preg (k : Core) (r : Nat) : Pred := if r = 0 then allOnes else Sparse.get (fun _ => (0 : Pred)) k.p r
def Core.setP (k : Core) (r : Nat) (v : Pred) : Core :=
  if r = 0 then k else { k with p := Sparse.set (fun _ => (0 : Pred)) k.p r v }

/-- The guard of an instruction, bit i for lane i (R128). -/
def Core.guard (k : Core) (h : Iss) : Pred := if h.pn then ~~~ k.preg h.pg else k.preg h.pg

/-! ## Immediates and addresses (R135, R141, R146) -/

def immSext : Imm → DWord
  | .short v => v.signExtend 64
  | .long v => v.signExtend 64
def immLong : Imm → Bool
  | .short _ => false
  | .long _ => true
/-- sA + IMM8 × size, or sA + IMM32 in the long form; IMM32 is sign-extended, as IMM8 is (DESIGN CHOICE, log entry 102). -/
def immAddr (i : Imm) (a : DWord) (size : Nat) : DWord :=
  match i with
  | .short v => a + v.signExtend 64 * w64 size
  | .long v => a + v.signExtend 64

/-! ## Lanes (R108) -/

def lane (v : Vec) (i : Nat) : Half := v.extractLsb' (16 * i) 16
def vecOf (f : Nat → Nat) : Vec := BitVec.ofNat 2048 ((List.range 128).foldr (fun i acc => acc * 2 ^ 16 + f (127 - i) % 2 ^ 16) 0)
/-- FP32 lane i of the pair v(r), v(r + 1). -/
def Core.wide (k : Core) (r : Nat) (i : Nat) : Word := lane (k.vreg (r + 1)) i ++ lane (k.vreg r) i
def Core.setWide (k : Core) (r : Nat) (f : Nat → Nat) : Core :=
  (k.setV r (vecOf (fun i => f i % 2 ^ 16))).setV (r + 1) (vecOf (fun i => f i / 2 ^ 16))
/-- Guarded lanes of a destination: the others keep their values (R128). -/
def Core.putLanes (k : Core) (g : Pred) (r : Nat) (f : Nat → Nat) : Core :=
  let old := k.vreg r
  k.setV r (vecOf (fun i => if g.getLsbD i then f i else (lane old i).toNat))
def Core.putWide (k : Core) (g : Pred) (r : Nat) (f : Nat → Nat) : Core :=
  k.setWide r (fun i => if g.getLsbD i then f i else (k.wide r i).toNat)

/-! ## Issue -/

/-- What an instruction's own work comes to. `raised`: the fault is recorded already. `halted`: it ends its core's issue. -/
inductive Res where
  | done (d : Dev)
  | jump (d : Dev) (pc : Nat)
  | stall (d : Dev)
  | fault (d : Dev) (cause : Nat) (addr : DWord)
  | raised (d : Dev)

/-- Which tile kinds accept a class (R124, R136): slot number and class. -/
def accepts (p cls : Nat) : Bool :=
  match cls with
  | 0x0C | 0x0D | 0x0E => slotIsVt p
  | 0x0F | 0x11 => slotIsMt p
  | 0x12 | 0x13 => slotIsCt p
  | _ => decide (1 ≤ cls) && decide (cls ≤ 0x16)

/-- The vector instructions of R128, which act lane by lane under the guard: arithmetic, compare and move, convert, vector
load and store, special functions (DESIGN CHOICE, log entry 20); vldg, vstg, reductions and quantise execute as a whole. -/
def isVector (cls : Nat) : Bool := cls == 8 || cls == 9 || cls == 0xA || cls == 0xB || cls == 0xC

/-- Registers with a write outstanding (R134): results of loads and atomics, of takes that have not landed, of the VT units. -/
def Dev.busyS (d : Dev) (p : Nat) (c : Fin 4) : List R5 :=
  ((d.core p c).loads.filter (fun l => !l.vec)).map (·.d) ++ ((d.tile p).landing.filter (fun l => l.core = c)).map (·.d)
    ++ (d.tile p).red.map (·.d)
/-- Global loads whose outcome only their answer brings: to another device, or of the hold. A fault of such a load is precise
(R157), so the core issues nothing before it is known (log entry 48). -/
def Dev.unresolved (d : Dev) (p : Nat) (c : Fin 4) : Bool :=
  (d.core p c).loads.any (fun l => !l.atomic && l.ok && l.remote)
def Dev.busyV (d : Dev) (p : Nat) (c : Fin 4) : List R5 :=
  ((d.core p c).loads.filter (·.vec)).map (·.d) ++ (d.tile p).sfu.map (·.d)

/-- What an instruction is at issue: class, function (FN or MOP), whether two words, its encoding's validity, whether
the guard is its selector (vsel, R128), and the scalar and vector registers it reads or writes. -/
structure Enc where
  cls : Nat
  fn : Nat
  long : Bool := false
  legal : Bool := true
  sel : Bool := false
  s : List R5 := []
  v : List R5 := []

def Core.advance (k : Core) (long : Bool) : Core :=
  { k with pc := (k.pc + if long then 8 else 4) % 2 ^ 19, run := .running, stalled := none }

def Dev.counted (d : Dev) (p : Nat) : Dev := d.inc64 (Reg.tileIssueLo p) (Reg.tileIssueHi p) 1

/-- The word at local address `a` of the tile's store (R135). -/
def Dev.insnWord (d : Dev) (p a : Nat) : Word := w32 (d.nat (tileBase p + a) 4)

/-- The instruction that lies at the PC of a core; none: an illegal one (R135 to R137). -/
def Dev.insnAtPc (d : Dev) (h : Iss) : Option Instr :=
  let pc := (d.core h.slot h.core).pc
  decodeInsn h.slot h.core (d.insnWord h.slot pc) (d.insnWord h.slot (pc + 4))

/-- Do the words at the PC spell an instruction? Only a tile with an image runs a program; an instruction that waits is not
fetched again (R134, R137, log entry 24). -/
def Dev.spelled (d : Dev) (h : Iss) : Bool :=
  (d.core h.slot h.core).stalled.isSome || !(d.tile h.slot).image.loaded || (d.insnAtPc h).isSome

/-- Words at the PC that spell no instruction: cause 0x1 (R137). -/
def Dev.illegalWord (d : Dev) (h : Iss) : Dev :=
  let pc := (d.core h.slot h.core).pc
  let w := d.insnWord h.slot pc
  d.progFault h.slot h.core (wClass w) (wFunction w) pc 1 0

/-- A core issues one instruction: only a running core does. A squashed instruction waits for nothing but its guard (R128), and
no predicate has a write outstanding. Where registers or the instruction's own waits stall it, the instruction stays with the
core until ISSUE_RESUME (R134), which fetches nothing again. -/
def issue (h : Iss) (i : Instr) (e : Enc) (body : Dev → Core → Pred → Res) (d : Dev) : Dev :=
  let p := h.slot.val
  let c := h.core.val
  let k := d.core p c
  let f := if k.stalled.isSome then (d, true) else d.readStore p k.pc (if e.long then 8 else 4) 0
  if k.run ≠ .running then d
  else if !f.2 then f.1.progFault p c e.cls e.fn k.pc 4 0
  else
  let d := f.1
  if !d.spelled h then d.illegalWord h
  else if !accepts p e.cls || !e.legal then d.progFault p c e.cls e.fn k.pc 1 0
  else
    let g := k.guard h
    if !e.sel && (if isVector e.cls then g == 0 else !g.getLsbD 0) then
      (d.setCore p c (k.advance e.long)).counted p
    else if d.unresolved p h.core || e.s.any (fun r => (d.busyS p h.core).contains r) || e.v.any (fun r => (d.busyV p h.core).contains r) then
      d.setCore p c { k with run := .stalled, stalled := some i }
    else
      match body d k g with
      | .done d' => (d'.modCore p c (fun k => k.advance e.long)).counted p
      | .jump d' pc => (d'.modCore p c (fun k => { k with pc := pc, run := .running, stalled := none })).counted p
      | .stall d' => d'.modCore p c (fun k => { k with run := .stalled, stalled := some i })
      | .fault d' cause addr => d'.progFault p c e.cls e.fn k.pc cause addr
      | .raised d' => d'

/-- A tile instruction as a command. -/
def tileInstr (h : Iss) (i : Instr) (e : Enc) (body : Dev → Core → Pred → Res) (s : State) : Host.Outcome State Fault Refusal :=
  onCore h.slot h.core (issue h i e body) s

/-- The instruction's result goes to the core that issued it. -/
def Dev.putS (d : Dev) (h : Iss) (r : R5) (v : DWord) : Dev := d.modCore h.slot h.core (fun k => k.setS r v)
def Dev.putP (d : Dev) (h : Iss) (r : Nat) (v : Pred) : Dev := d.modCore h.slot h.core (fun k => k.setP r v)

/-- A predicate operand's register field: bits [4:3] must be 0 (R139, R140). -/
def isP (r : R5) : Bool := decide (r.val < 8)
def isEven (r : R5) : Bool := decide (r.val % 2 = 0)

end Sys2Proof.Machine
end

