-- ==== Sys2Proof/Machine/LocalMem.lean ====
section
/-! DEFINITION. Sys2Proof/Machine/LocalMem.lean: local loads, stores and lxadd, vector loads and stores (R130, R141,
R146). -/

namespace Sys2Proof.Machine

/-- The store's master ID of an issue core (R171). -/
def coreMaster (h : Iss) : Nat := 1 + h.core.val

/-- A load of `n` bytes with alignment `align`: the local-address fault, the store error, or what `k` makes of them. -/
def loadLocal (d : Dev) (h : Iss) (a : DWord) (align n : Nat) (k : Dev → Res) : Res :=
  if !localOk a align n then .fault d 2 a
  else
    let r := d.readStore h.slot a.toNat n (coreMaster h)
    if r.2 then k r.1 else .fault r.1 4 a

/-- A program store of whole words or of listed bytes (`rmw`: each word is read first), into neither the code region nor a
bank of another owner (R130, R169, R176). -/
def storeLocal (d : Dev) (h : Iss) (a : DWord) (align n : Nat) (rmw : Bool) (ws : List (Nat × Byte)) : Res :=
  let p := h.slot.val
  if !localOk a align n || decide (a.toNat < (d.tile p).image.codeEnd) || !d.mayWrite p a.toNat n ownTile then .fault d 2 a
  else
    let g := tileBase p + a.toNat
    if rmw then
      match d.rmwUes g ws with
      | [] => .done ((d.noteCeAt p (rmwTouches g ws)).storeBytewise g ws)
      | us => .fault ((d.noteCeAt p (rmwTouches g ws)).noteUes p (coreMaster h) us) 4 a
    else .done (d.store g (ws.map (·.2)))

def listed (bs : List Byte) : List (Nat × Byte) := bs.zipIdx.map (fun e => (e.2, e.1))

/-- sD = the value of `n` bytes, extended by `ext` (R141). -/
def scalarLoad (h : Iss) (i : Instr) (fn n : Nat) (signed : Bool) (d a : R5) (imm : Imm) : State → Host.Outcome State Fault Refusal :=
  tileInstr h i { cls := 0x06, fn := fn, long := immLong imm, s := [d, a] } (fun dev k _ =>
    let ad := immAddr imm (k.sreg a) n
    loadLocal dev h ad n n (fun dev =>
      let v := dev.nat (tileBase h.slot + ad.toNat) n
      .done (dev.putS h d (w64 (if signed && decide (2 ^ (8 * n - 1) ≤ v) then v + 2 ^ 64 - 2 ^ (8 * n) else v)))))

/-- The low `n` bytes of sD go to the store (R141). -/
def scalarStore (h : Iss) (i : Instr) (fn n : Nat) (d a : R5) (imm : Imm) : State → Host.Outcome State Fault Refusal :=
  tileInstr h i { cls := 0x06, fn := fn, long := immLong imm, s := [d, a] } (fun dev k _ =>
    storeLocal dev h (immAddr imm (k.sreg a) n) n n (decide (n < 8)) (listed (toBytes n (k.sreg d).toNat)))

/-- The old value goes to sD, old + the previous sD to the store (R141). -/
def lxadd (h : Iss) (i : Instr) (fn n : Nat) (d a : R5) (imm : Imm) : State → Host.Outcome State Fault Refusal :=
  tileInstr h i { cls := 0x06, fn := fn, long := immLong imm, s := [d, a] } (fun dev k _ =>
    let ad := immAddr imm (k.sreg a) n
    loadLocal dev h ad n n (fun dev =>
      let v := dev.nat (tileBase h.slot + ad.toNat) n
      match storeLocal dev h ad n n (decide (n < 8)) (listed (toBytes n (v + (k.sreg d).toNat))) with
      | .done dev => .done (dev.putS h d (w64 v))
      | r => r))

/-- LD_U8 (R141). -/
def execLdU8 (h : Iss) (d a : R5) (imm : Imm) : State → Host.Outcome State Fault Refusal :=
  scalarLoad h (.ldU8 h d a imm) 0x0 1 false d a imm
/-- LD_S8 (R141). -/
def execLdS8 (h : Iss) (d a : R5) (imm : Imm) : State → Host.Outcome State Fault Refusal :=
  scalarLoad h (.ldS8 h d a imm) 0x1 1 true d a imm
/-- LD_U16 (R141). -/
def execLdU16 (h : Iss) (d a : R5) (imm : Imm) : State → Host.Outcome State Fault Refusal :=
  scalarLoad h (.ldU16 h d a imm) 0x2 2 false d a imm
/-- LD_S16 (R141). -/
def execLdS16 (h : Iss) (d a : R5) (imm : Imm) : State → Host.Outcome State Fault Refusal :=
  scalarLoad h (.ldS16 h d a imm) 0x3 2 true d a imm
/-- LD_U32 (R141). -/
def execLdU32 (h : Iss) (d a : R5) (imm : Imm) : State → Host.Outcome State Fault Refusal :=
  scalarLoad h (.ldU32 h d a imm) 0x4 4 false d a imm
/-- LD_S32 (R141). -/
def execLdS32 (h : Iss) (d a : R5) (imm : Imm) : State → Host.Outcome State Fault Refusal :=
  scalarLoad h (.ldS32 h d a imm) 0x5 4 true d a imm
/-- LD_64 (R141). -/
def execLd64 (h : Iss) (d a : R5) (imm : Imm) : State → Host.Outcome State Fault Refusal :=
  scalarLoad h (.ld64 h d a imm) 0x6 8 false d a imm
/-- ST_8 (R141). -/
def execSt8 (h : Iss) (d a : R5) (imm : Imm) : State → Host.Outcome State Fault Refusal :=
  scalarStore h (.st8 h d a imm) 0x8 1 d a imm
/-- ST_16 (R141). -/
def execSt16 (h : Iss) (d a : R5) (imm : Imm) : State → Host.Outcome State Fault Refusal :=
  scalarStore h (.st16 h d a imm) 0x9 2 d a imm
/-- ST_32 (R141). -/
def execSt32 (h : Iss) (d a : R5) (imm : Imm) : State → Host.Outcome State Fault Refusal :=
  scalarStore h (.st32 h d a imm) 0xA 4 d a imm
/-- ST_64 (R141). -/
def execSt64 (h : Iss) (d a : R5) (imm : Imm) : State → Host.Outcome State Fault Refusal :=
  scalarStore h (.st64 h d a imm) 0xB 8 d a imm
/-- LXADD_32 (R141). -/
def execLxadd32 (h : Iss) (d a : R5) (imm : Imm) : State → Host.Outcome State Fault Refusal :=
  lxadd h (.lxadd32 h d a imm) 0xC 4 d a imm
/-- LXADD_64 (R141). -/
def execLxadd64 (h : Iss) (d a : R5) (imm : Imm) : State → Host.Outcome State Fault Refusal :=
  lxadd h (.lxadd64 h d a imm) 0xD 8 d a imm

/-- The code of packed 4-bit element e (R82). -/
def nibbleAt (bs : List Byte) (e : Nat) : Nat := (bs.getD (e / 2) 0).toNat / 16 ^ (e % 2) % 16

/-- A vector load of `n` bytes into v(D), lane i from `f bytes i`; the unguarded lanes keep their values (R128, R146). -/
def vectorLoad (h : Iss) (i : Instr) (fn n : Nat) (wide : Bool) (d a : R5) (imm : Imm) (f : List Byte → Nat → Nat) : State → Host.Outcome State Fault Refusal :=
  tileInstr h i { cls := 0x0B, fn := fn, long := immLong imm, legal := !wide || isEven d, s := [a], v := if wide then [d, d + 1] else [d] }
    (fun dev k g =>
      let ad := immAddr imm (k.sreg a) 64
      loadLocal dev h ad 64 n (fun dev =>
        let bs := dev.bytes (tileBase h.slot + ad.toNat) n
        .done (dev.modCore h.slot h.core (fun k => if wide then k.putWide g d (f bs) else k.putLanes g d (f bs)))))

/-- A vector store: the bytes of the lanes the guard enables; a guarded or a 4-bit store reads each word first (R146, R169). -/
def vectorStore (h : Iss) (i : Instr) (fn n : Nat) (wide four : Bool) (d a : R5) (imm : Imm)
    (f : Dev → Core → Pred → Nat → List (Nat × Byte)) : State → Host.Outcome State Fault Refusal :=
  tileInstr h i { cls := 0x0B, fn := fn, long := immLong imm, legal := !wide || isEven d, s := [a], v := if wide then [d, d + 1] else [d] }
    (fun dev k g =>
      let ad := immAddr imm (k.sreg a) 64
      storeLocal dev h ad 64 n (four || g != allOnes) (f dev k g (tileBase h.slot + ad.toNat)))

/-- Lane i's `w` bytes at `w × i`, for the guarded lanes. -/
def laneBytes (g : Pred) (w : Nat) (v : Nat → Nat) : List (Nat × Byte) :=
  ((List.range 128).filter (fun i => g.getLsbD i)).flatMap (fun i => (listed (toBytes w (v i))).map (fun e => (w * i + e.1, e.2)))

/-- Bytes of a packed 4-bit store: the nibbles of the lanes that are not guarded keep what the store holds. -/
def nibbleBytes (d : Dev) (g : Pred) (base : Nat) (v : Nat → Nat) : List (Nat × Byte) :=
  ((List.range 64).filter (fun j => g.getLsbD (2 * j) || g.getLsbD (2 * j + 1))).map (fun j =>
    let old := (d.byte (base + j)).toNat
    let lo := if g.getLsbD (2 * j) then v (2 * j) % 16 else old % 16
    let hi := if g.getLsbD (2 * j + 1) then v (2 * j + 1) % 16 else old / 16
    (j, BitVec.ofNat 8 (lo + 16 * hi)))

/-- VLD_16 (R146). -/
def execVld16 (h : Iss) (d a : R5) (imm : Imm) : State → Host.Outcome State Fault Refusal :=
  vectorLoad h (.vld16 h d a imm) 0x0 256 false d a imm (fun bs i => natAt bs (2 * i) 2)
/-- VLD_8 (R146). -/
def execVld8 (h : Iss) (d a : R5) (imm : Imm) : State → Host.Outcome State Fault Refusal :=
  vectorLoad h (.vld8 h d a imm) 0x1 128 false d a imm (fun bs i => natAt bs i 1)
/-- VLD_4 (R146). -/
def execVld4 (h : Iss) (d a : R5) (imm : Imm) : State → Host.Outcome State Fault Refusal :=
  vectorLoad h (.vld4 h d a imm) 0x2 64 false d a imm (fun bs i => nibbleAt bs i)
/-- VLD_W (R146). -/
def execVldW (h : Iss) (d a : R5) (imm : Imm) : State → Host.Outcome State Fault Refusal :=
  vectorLoad h (.vldW h d a imm) 0x3 512 true d a imm (fun bs i => natAt bs (4 * i) 4)
/-- VST_16 (R146). -/
def execVst16 (h : Iss) (d a : R5) (imm : Imm) : State → Host.Outcome State Fault Refusal :=
  vectorStore h (.vst16 h d a imm) 0x4 256 false false d a imm (fun _ k g _ => laneBytes g 2 (fun i => (lane (k.vreg d) i).toNat))
/-- VST_8 (R146). -/
def execVst8 (h : Iss) (d a : R5) (imm : Imm) : State → Host.Outcome State Fault Refusal :=
  vectorStore h (.vst8 h d a imm) 0x5 128 false false d a imm (fun _ k g _ => laneBytes g 1 (fun i => (lane (k.vreg d) i).toNat))
/-- VST_4 (R146). -/
def execVst4 (h : Iss) (d a : R5) (imm : Imm) : State → Host.Outcome State Fault Refusal :=
  vectorStore h (.vst4 h d a imm) 0x6 64 false true d a imm (fun dev k g b => nibbleBytes dev g b (fun i => (lane (k.vreg d) i).toNat))
/-- VST_W (R146). -/
def execVstW (h : Iss) (d a : R5) (imm : Imm) : State → Host.Outcome State Fault Refusal :=
  vectorStore h (.vstW h d a imm) 0x7 512 true false d a imm (fun _ k g _ => laneBytes g 4 (fun i => (k.wide d i).toNat))

end Sys2Proof.Machine
end

