-- ==== Sys2Proof/Machine/Galley.lean ====
section
/-! DEFINITION. Sys2Proof/Machine/Galley.lean: galleys: descriptors (R179 to R181), the four operations (R182), hardware
parties (R185), the galley instructions (R149), the stall limit (R187). -/

namespace Sys2Proof.Machine

/-! ## Operations (R182) -/

def Galley.free (x : Galley) : Nat := x.nslots - x.nres - x.nfull - x.nacq
def Galley.slotBytes (x : Galley) : Nat := 64 * x.units
def Galley.at_ (x : Galley) (i : Nat) : Nat := x.base + (i % x.nslots) * x.slotBytes

/-- The slot's address, and the galley after; none: no free slot. -/
def Galley.reserve (x : Galley) : Option (Nat × Galley) :=
  if x.free = 0 then none else some (x.at_ (x.head + x.nres), { x with nres := x.nres + 1, pstall := false })
def Galley.commit (x : Galley) : Option Galley :=
  if x.nres = 0 then none else some { x with head := (x.head + 1) % x.nslots, nres := x.nres - 1, nfull := x.nfull + 1 }
def Galley.acquire (x : Galley) : Option (Nat × Galley) :=
  if x.nfull = 0 then none
  else some (x.at_ (x.tail + x.nacq), { x with nfull := x.nfull - 1, nacq := x.nacq + 1, cstall := false })
def Galley.release (x : Galley) : Option Galley :=
  if x.nacq = 0 then none else some { x with tail := (x.tail + 1) % x.nslots, nacq := x.nacq - 1 }

/-- Parties (R180). -/
def partyProgram : Nat := 0
def partyArrays : Nat := 1
def partyEpilogue : Nat := 2
def partyQuantiser : Nat := 3
def partyExchange : Nat := 4
def partyDesc : Nat := 5

/-- The fault kind of an operation by a party: 3 not initialised, 2 another party's side (R188). -/
def Galley.refuses (x : Galley) (consumer : Bool) (party : Nat) : Option Nat :=
  if !x.init then some 3 else if (if consumer then x.cons else x.prod) ≠ party then some 2 else none

/-- What a hardware party meets at a galley. -/
inductive Grant where
  | got (addr : Nat) (d : Dev)
  | wait (d : Dev)
  | bad (kind : Nat)

/-- The galleys of a tile that a fault has stopped stay as they are until the replay (R190). -/
def Dev.frozen (d : Dev) (p : Nat) : Bool :=
  d.flag (Reg.tileProgFault p) F.tileProgFaultValid || (d.tile p).cores.any (fun e => e.2.run == .stopped)

/-- A hardware consumer acquires a slot when it begins to read it; with no filled slot it stalls. -/
def Dev.hwTake (d : Dev) (p g party : Nat) : Grant :=
  let x := d.galley p g
  match x.refuses true party with
  | some k => .bad k
  | none =>
    if d.frozen p then .wait d
    else match x.acquire with
    | none => .wait (d.setGalley p g { x with cstall := true })
    | some (a, y) => .got a (d.setGalley p g y)

/-- A hardware producer reserves a slot when it begins to write it; with no free slot it stalls. -/
def Dev.hwPut (d : Dev) (p g party : Nat) : Grant :=
  let x := d.galley p g
  match x.refuses false party with
  | some k => .bad k
  | none =>
    if d.frozen p then .wait d
    else match x.reserve with
    | none => .wait (d.setGalley p g { x with pstall := true })
    | some (a, y) => .got a (d.setGalley p g y)

/-- The party has read the last byte of its slot, or written it: the slot is released, or committed (R182, R183). -/
def Dev.hwDone (d : Dev) (p g : Nat) (consumer : Bool) : Dev :=
  let x := d.galley p g
  if d.frozen p then d else d.setGalley p g ((if consumer then x.release else x.commit).getD x)

/-- A slot that a hardware party needs for its next work: which of the party's galleys, its number, is the party its consumer,
the bytes that R185 gives the slot. -/
structure Need where
  field : Nat
  gal : Nat
  cons : Bool
  bytes : Nat
deriving DecidableEq, Repr

/-- Every slot that work needs, or what stops it. -/
inductive Slots where
  | ok (d : Dev) (addrs : List Nat)
  | wait (d : Dev)
  | bad (n : Need) (kind : Nat)
  | shape (n : Need)

/-- All the slots or none: a side that stalls leaves the others of `d0` as they were. -/
def Dev.slotsFor (d0 d : Dev) (p party : Nat) : List Need → Slots
  | [] => .ok d []
  | n :: rest =>
    if (d.galley p n.gal).refuses n.cons party = none ∧ (d.galley p n.gal).slotBytes ≠ n.bytes then .shape n
    else match (if n.cons then d.hwTake p n.gal party else d.hwPut p n.gal party) with
      | .bad kind => .bad n kind
      | .wait _ =>
        let x := d0.galley p n.gal
        .wait (d0.setGalley p n.gal (if n.cons then { x with cstall := true } else { x with pstall := true }))
      | .got a d' =>
        match d'.slotsFor d0 p party rest with
        | .ok d'' as => .ok d'' (a :: as)
        | o => o

/-- The address of the slot of one of the party's galleys. -/
def addrFor (needs : List Need) (as : List Nat) (field : Nat) : Nat :=
  match (needs.zip as).find? (fun x => x.1.field == field) with
  | some x => x.2
  | none => 0

/-- Work that failed before its first write has reserved no slot: its outputs are as in `d0` (R182). -/
def Dev.unreserve (d0 d : Dev) (p : Nat) (needs : List Need) : Dev :=
  needs.foldl (fun d n => if n.cons then d else d.setGalley p n.gal (d0.galley p n.gal)) d

/-- The work is done: its inputs are released, its outputs committed. -/
def Dev.slotsDone (d : Dev) (p : Nat) (needs : List Need) : Dev := needs.foldl (fun d n => d.hwDone p n.gal n.cons) d

/-- Rounded up to whole 64 B (R185). -/
def round64 (n : Nat) : Nat := (n + 63) / 64 * 64

/-! ## Descriptors -/

/-- The 16 bytes of R179 as a galley, when no field or value is reserved. -/
def galleyOf (bs : List Byte) : Option Galley :=
  let w := fun i => natAt bs (4 * i) 4
  let ex := bitsAt (w 2) 0 5
  if w 0 ≥ 2 ^ 19 ∨ w 0 % 64 ≠ 0 ∨ w 1 ≥ 2 ^ 28 ∨ w 2 ≥ 32 ∨ w 3 ≠ 0 ∨ bitsAt (w 1) 0 12 = 0 ∨ bitsAt (w 1) 12 8 = 0
      ∨ (1 ≤ ex ∧ ex ≤ 7) ∨ 5 < bitsAt (w 1) 20 4 ∨ 5 < bitsAt (w 1) 24 4 then none
  else
    let lim := if ex = 0 then 20 else ex
    some ⟨true, w 0, bitsAt (w 1) 0 12, bitsAt (w 1) 12 8, bitsAt (w 1) 20 4, bitsAt (w 1) 24 4, lim, 0, 0, 0, 0, 0, false, false⟩

/-- Sides and tile kinds of R180. -/
def partyAllowed (p party : Nat) (consumer : Bool) : Bool :=
  match party with
  | 0 | 4 | 5 => true
  | 1 => consumer && slotIsMt p
  | 2 => slotIsMt p
  | 3 => slotIsVt p
  | _ => false

def Galley.end_ (x : Galley) : Nat := x.base + x.nslots * x.slotBytes
def Galley.overlaps (x y : Galley) : Bool := x.init && y.init && decide (x.base < y.end_) && decide (y.base < x.end_)

/-- The checks of R181 but for its last. -/
def Dev.galleyValid (d : Dev) (p g : Nat) (x : Galley) : Bool :=
  x.prod != x.cons && partyAllowed p x.prod false && partyAllowed p x.cons true && decide (x.end_ ≤ storeBytes)
    && decide ((d.tile p).image.codeEnd ≤ x.base)
    && (List.range 16).all (fun j => j == g || !(d.galley p j).overlaps x)

/-- Galleys an epilogue descriptor makes a close use: OUT_G, and each other under its mode (R93). -/
def epGalleys (w : BitVec 256) : List Nat :=
  let n := w.toNat
  let g := fun i => bitsAt (n / 2 ^ 64) (4 * i) 4
  [g 0] ++ (if bitsAt n 18 2 = 1 then [g 1] else []) ++ (if 2 ≤ bitsAt n 6 3 then [g 2] else [])
    ++ (if bitsAt n 23 1 = 1 then [g 3] else []) ++ (if bitsAt n 16 2 = 2 then [g 4] else [])

def Tile.ep (t : Tile) (e : Nat) : BitVec 256 := Sparse.get (fun _ => (0 : BitVec 256)) t.eps e

/-- Matrix instructions by MOP (R148). -/
def mopLoad : Nat := 0
def mopOpen : Nat := 1
def mopStream : Nat := 2
def mopPair : Nat := 3
def mopClose : Nat := 4
def mopDrop : Nat := 5

/-- Does the entry's work use galley `g`? -/
def Tile.usesGalley (t : Tile) (g : Nat) (e : MEnt) : Bool :=
  if e.mop = mopClose then (epGalleys (t.ep e.f.ep)).contains g
  else (e.mop == mopLoad || e.mop == mopStream || e.mop == mopPair) && e.f.gal.val == g

/-- Has a party queued work that names the galley (R181)? The arrays, the epilogues, the quantiser, the exchange entries of
queued and running phases, the descriptor engines and channels that name this tile. -/
def Dev.galleyQueued (d : Dev) (p g : Nat) : Bool :=
  let t := d.tile p
  let inPhase := fun ph : Nat =>
    match t.phases[ph]? with
    | none => false
    | some hd => (List.range (phCount hd)).any (fun i => xeUsesGal (t.entries.getD (phFirst hd + i) 0) && xeGal (t.entries.getD (phFirst hd + i) 0) == g)
  let here := fun w : Nat => decide (tileBase p ≤ w % 2 ^ 48) && decide (w % 2 ^ 48 < tileBase p + storeBytes)
  let byDesc := fun r : DescRun =>
    let w := fun i => (r.w.getD i 0).toNat
    bitsAt (w 5) 16 4 == g && ((bitsAt (w 4) 26 1 == 1 && here (w 0 + w 1 * 2 ^ 32)) || (bitsAt (w 4) 27 1 == 1 && here (w 2 + w 3 * 2 ^ 32)))
  t.mq.any (t.usesGalley g)
    || t.qnt.any (fun e => ([0, 4, 8] ++ if e.fn = 1 then [12] else []).any (fun l => bitsAt e.hi.toNat l 4 == g))
    || (t.xq ++ t.xcur.toList.map (·.phase)).any inPhase
    || d.tiles.any (fun t => t.2.engines.any (fun e => e.2.q.any byDesc))
    || d.yards.any (fun y => y.2.chans.any (fun c => c.2.descs.any byDesc))

def Galley.busy (x : Galley) : Bool := x.nres != 0 || x.nacq != 0 || x.pstall || x.cstall

/-! ## Instructions (R149) -/

def galleyEnc (fn : Nat) (g : R5) (s : List R5) : Enc := { cls := 0x10, fn := fn, legal := decide (g.val < 16), s := s }

def galleyRaise (d : Dev) (h : Iss) (k : Core) (fn : Nat) (g : R5) (kind : Nat) (consumer : Bool) : Res :=
  .raised (d.galleyFault h.slot h.core 0x10 fn k.pc g kind consumer 0)

/-- GSET: descriptor g from the 16 bytes at sA, every slot free (R181). -/
def execGset (h : Iss) (a g : R5) : State → Host.Outcome State Fault Refusal :=
  tileInstr h (.gset h a g) (galleyEnc 0 g [a]) (fun d k _ =>
    loadLocal d h (k.sreg a) 16 16 (fun d =>
      let p := h.slot.val
      let x := d.galley p g
      match galleyOf (d.bytes (tileBase p + (k.sreg a).toNat) 16) with
      | none => galleyRaise d h k 0 g 5 false
      | some y =>
        if !d.galleyValid p g y then galleyRaise d h k 0 g 5 false
        else if x.busy || d.galleyQueued p g then galleyRaise d h k 0 g 6 false
        else .done (d.setGalley p g y)))

/-- Does the instruction wait on this side of galley `g`? -/
def galleyWaits (g : Nat) (consumer : Bool) : Instr → Bool
  | .gacq _ _ g' => consumer && g'.val == g
  | .gres _ _ g' => !consumer && g'.val == g
  | _ => false

/-- The core of the tile that is stalled on this side of the galley, and where. -/
def Dev.galleyWaiter (d : Dev) (p g : Nat) (consumer : Bool) : Option (Nat × Nat) :=
  ([0, 1, 2, 3].find? (fun c => (d.core p c).run == .stalled && (d.core p c).stalled.any (galleyWaits g consumer))).map
    (fun c => (c, (d.core p c).pc))

/-- The status of a non-blocking form that finds no slot. -/
def noSlot : DWord := 0x8000000000000001#64

/-- gacq and gacq.nb. -/
def galleyAcquire (h : Iss) (i : Instr) (fn : Nat) (nb : Bool) (r g : R5) : State → Host.Outcome State Fault Refusal :=
  tileInstr h i (galleyEnc fn g [r]) (fun d k _ =>
    let p := h.slot.val
    let x := d.galley p g
    match x.refuses true partyProgram with
    | some kind => galleyRaise d h k fn g kind true
    | none =>
      match x.acquire with
      | some (a, y) => .done ((d.setGalley p g { y with cstall := (d.galleyWaiter p g true).isSome }).putS h r (w64 a))
      | none => if nb then .done (d.putS h r noSlot) else .stall (d.setGalley p g { x with cstall := true }))

/-- gres and gres.nb. -/
def galleyReserve (h : Iss) (i : Instr) (fn : Nat) (nb : Bool) (r g : R5) : State → Host.Outcome State Fault Refusal :=
  tileInstr h i (galleyEnc fn g [r]) (fun d k _ =>
    let p := h.slot.val
    let x := d.galley p g
    match x.refuses false partyProgram with
    | some kind => galleyRaise d h k fn g kind false
    | none =>
      match x.reserve with
      | some (a, y) => .done ((d.setGalley p g { y with pstall := (d.galleyWaiter p g false).isSome }).putS h r (w64 a))
      | none => if nb then .done (d.putS h r noSlot) else .stall (d.setGalley p g { x with pstall := true }))

/-- GACQ (R149, R182). -/
def execGacq (h : Iss) (d g : R5) : State → Host.Outcome State Fault Refusal := galleyAcquire h (.gacq h d g) 1 false d g
/-- GACQ_NB (R149, R184). -/
def execGacqNb (h : Iss) (d g : R5) : State → Host.Outcome State Fault Refusal := galleyAcquire h (.gacqNb h d g) 2 true d g
/-- GRES (R149, R182). -/
def execGres (h : Iss) (d g : R5) : State → Host.Outcome State Fault Refusal := galleyReserve h (.gres h d g) 4 false d g
/-- GRES_NB (R149, R184). -/
def execGresNb (h : Iss) (d g : R5) : State → Host.Outcome State Fault Refusal := galleyReserve h (.gresNb h d g) 5 true d g

/-- GREL: the oldest slot the program holds goes back; with none held, a galley fault (R149, R182). -/
def execGrel (h : Iss) (g : R5) : State → Host.Outcome State Fault Refusal :=
  tileInstr h (.grel h g) (galleyEnc 3 g []) (fun d k _ =>
    let x := d.galley h.slot g
    match x.refuses true partyProgram, x.release with
    | some kind, _ => galleyRaise d h k 3 g kind true
    | none, none => galleyRaise d h k 3 g 4 true
    | none, some y => .done (d.setGalley h.slot g y))

/-- GCOM: the oldest reserved slot is committed; with none held, a galley fault (R149, R182). -/
def execGcom (h : Iss) (g : R5) : State → Host.Outcome State Fault Refusal :=
  tileInstr h (.gcom h g) (galleyEnc 6 g []) (fun d k _ =>
    let x := d.galley h.slot g
    match x.refuses false partyProgram, x.commit with
    | some kind, _ => galleyRaise d h k 6 g kind false
    | none, none => galleyRaise d h k 6 g 4 false
    | none, some y => .done (d.setGalley h.slot g y))

/-- The 64 bits of TILE_GSTAT. -/
def Galley.stat (x : Galley) : Nat :=
  x.head + x.tail * 2 ^ 8 + x.nfull * 2 ^ 16 + x.free * 2 ^ 24 + x.nres * 2 ^ 32 + x.nacq * 2 ^ 40 + b2n x.init * 2 ^ 48
    + b2n x.pstall * 2 ^ 49 + b2n x.cstall * 2 ^ 50

/-- GSTAT (R149). -/
def execGstat (h : Iss) (d g : R5) : State → Host.Outcome State Fault Refusal :=
  tileInstr h (.gstat h d g) (galleyEnc 7 g [d]) (fun dev k _ =>
    let x := dev.galley h.slot g
    if !x.init then galleyRaise dev h k 7 g 3 false else .done (dev.putS h d (w64 x.stat)))

/-- Which core and PC a stalled side of a galley names: the core stalled on it, or the instruction that queued the work. No
instruction of the tile queued the work of the exchange or descriptor engines. -/
def Dev.stalledAt (d : Dev) (p g party : Nat) (consumer : Bool) : Nat × Nat :=
  let t := d.tile p
  let close := party == partyEpilogue
  if party = partyProgram then (d.galleyWaiter p g consumer).getD (0, 0)
  else if party = partyQuantiser then (0, match t.qnt.head? with | some e => e.pc | none => 0)
  else if party = partyArrays ∨ close then
    (0, match t.mq.find? (fun e => e.begun && (e.mop == mopClose) == close && t.usesGalley g e) with | some e => e.pc | none => 0)
  else (0, 0)

/-- GALLEY_STALL_LIMIT: the stall of a party reaches its limit (R187, R188). -/
def execGalleyStallLimit (slot : Slot) (g : Gal) (consumer : Bool) : State → Host.Outcome State Fault Refusal :=
  onDev (fun d =>
    let x := d.galley slot g
    if x.init && (if consumer then x.cstall else x.pstall) then
      let at_ := d.stalledAt slot g (if consumer then x.cons else x.prod) consumer
      d.galleyFault slot at_.1 0x10 (if consumer then 1 else 4) at_.2 g 1 consumer 0
    else d)

end Sys2Proof.Machine
end

