-- ==== Sys2Proof/Machine/LinkOut.lean ====
section
/-! DEFINITION. Sys2Proof/Machine/LinkOut.lean: packets for other devices: the port map (R362), the three header forms (R353,
R354), and how a packet joins the stream of its pool (R353, R356). -/

namespace Sys2Proof.Machine

/-! ## The port map (R362) -/

/-- The port to device `dev`; none: no route. -/
def Dev.portOf (d : Dev) (dev : Nat) : Option Nat :=
  let p := bitsAt (d.reg (Reg.lnkMap (dev / 4))) (8 * (dev % 4)) 5
  if p < 16 then some p else none

/-- The port to device `dev`, if it carries traffic. -/
def Dev.livePort (d : Dev) (dev : Nat) : Option Nat :=
  match d.portOf dev with
  | some n => if d.flag (Reg.lnkStatus n) F.lnkStatusUp then some n else none
  | none => none

/-! ## Packets (R353, R354) -/

def pad8 (bs : List Byte) : List Byte := bs ++ List.replicate ((8 - bs.length % 8) % 8) 0

/-- OP values of the full form. -/
def opReadReq : Nat := 0
def opReadResp : Nat := 1
def opWrite : Nat := 2
def opAtomic : Nat := 3
def opAtomicResp : Nat := 4
def opWriteAck : Nat := 5
def opCredit : Nat := 6
def opUnit : Nat := 7
def opChunk : Nat := 8

/-- A full-form packet. -/
def fullPkt (op dev src tag : Nat) (data : List Byte) (addr opdata : Nat) : List Byte :=
  toBytes 8 (4 + op * 2 ^ 4 + dev % 2 ^ 12 * 2 ^ 8 + src % 2 ^ 12 * 2 ^ 20 + tag % 2 ^ 16 * 2 ^ 32 + min 256 data.length * 2 ^ 48)
    ++ toBytes 8 (addr % 2 ^ 48 + opdata % 2 ^ 16 * 2 ^ 48) ++ pad8 data

/-- A compact write of 64 to 256 bytes. -/
def compactWrite (dev addr : Nat) (data : List Byte) : List Byte :=
  toBytes 8 (2 + dev % 2 ^ 12 * 2 ^ 4 + (data.length / 64 - 1) % 4 * 2 ^ 16 + addr % 2 ^ 48 / 64 * 2 ^ 22) ++ data

/-- A compact unit of 64 to 256 bytes. -/
def compactUnit (dev tile tag : Nat) (data : List Byte) : List Byte :=
  toBytes 8 (3 + dev % 2 ^ 12 * 2 ^ 4 + (data.length / 64 - 1) % 4 * 2 ^ 16 + tile % 2 ^ 11 * 2 ^ 18 + tag % 2 ^ 16 * 2 ^ 29) ++ data

def creditPkt (counts : List Nat) : List Byte :=
  toBytes 8 (1 + (List.range 5).foldl (fun acc i => acc + counts.getD i 0 % 1024 * 2 ^ (4 + 10 * i)) 0)

def writeAckPkt (pool count : Nat) : List Byte := toBytes 8 (5 + pool * 2 ^ 4 + count % 512 * 2 ^ 7)

/-- Bytes of the packet whose first word is `w`. -/
def pktBytes (w : Nat) : Nat :=
  match bitsAt w 0 4 with
  | 2 => 8 + 64 * (bitsAt w 16 2 + 1)
  | 3 => 8 + 64 * (bitsAt w 16 2 + 1)
  | 4 => if bitsAt w 4 4 = opChunk then 288 else 16 + (bitsAt w 48 9 + 7) / 8 * 8
  | _ => 8

/-- The packets of a stream that begins at a packet. -/
def rawPkts : Nat → List Byte → List (List Byte)
  | 0, _ => []
  | fuel + 1, bs => if bs = [] then [] else let n := pktBytes (natAt bs 0 8); bs.take n :: rawPkts fuel (bs.drop n)

/-- An exchange unit, a reduction chunk or an exchange credit. -/
def isExchPkt (bs : List Byte) : Bool :=
  let w := natAt bs 0 8
  bitsAt w 0 4 == 3 || (bitsAt w 0 4 == 4 && [opCredit, opUnit, opChunk].contains (bitsAt w 4 4))

def LinkP.cutOf (l : LinkP) (p : Nat) : Nat := Sparse.get (fun _ => 0) l.cut p

/-- Packets of the pools of which nothing has been sent leave them (R253, R377): what has begun goes to its end, for the peer's
sake. -/
def LinkP.discard (l : LinkP) (f : List Byte → Bool) : LinkP :=
  { l with pools := l.pools.map (fun e =>
      (e.1, e.2.take (l.cutOf e.1) ++ ((rawPkts e.2.length (e.2.drop (l.cutOf e.1))).filter (fun b => !f b)).flatten)) }

/-- Bytes of the packet in which a stream that begins at a packet is cut after `n` bytes: those still to send. -/
def cutIn : Nat → Nat → List Byte → Nat
  | 0, _, _ => 0
  | fuel + 1, n, bs =>
    let k := pktBytes (natAt bs 0 8)
    if n = 0 ∨ bs = [] then 0 else if n < k then min k bs.length - n else cutIn fuel (n - k) (bs.drop k)

/-- The pool after its next `n` bytes have gone. -/
def LinkP.take (l : LinkP) (p n : Nat) : LinkP :=
  let bs := Sparse.get (fun _ => []) l.pools p
  let c := if n ≤ l.cutOf p then l.cutOf p - n else cutIn 32 (n - l.cutOf p) (bs.drop (l.cutOf p))
  { l with pools := Sparse.set (fun _ => []) l.pools p (bs.drop n), cut := Sparse.set (fun _ => 0) l.cut p c }

/-! ## Into the pools (R356, R363) -/

/-- Pool of the requests of a virtual lane. -/
def poolOf (lane : Nat) : Nat := if lane = 1 then 1 else if lane = 2 then 3 else if lane = 0 then 0 else 4

def Dev.linkPush (d : Dev) (n pool : Nat) (bs : List Byte) : Dev :=
  d.modLink n (fun l => { l with pools := Sparse.set (fun _ => []) l.pools pool (Sparse.get (fun _ => []) l.pools pool ++ bs) })

/-- Is `dev` the device at the other end of port `n`? -/
def Dev.isPeer (d : Dev) (n dev : Nat) : Bool :=
  d.flag (Reg.lnkPeer n) F.lnkPeerValid && d.fld (Reg.lnkPeer n) F.lnkPeerSystemId == dev

/-- What a remote access asks for. -/
inductive RemReq where
  | read (n : Nat)
  | write (bs : List Byte)
  | gadd (w : Nat) (v : DWord)

def compactFits (addr : Nat) (bs : List Byte) : Bool :=
  decide (addr % 64 = 0) && decide (bs.length % 64 = 0) && decide (0 < bs.length) && decide (bs.length ≤ 256)

/-- A request for address `addr` of device `dev` on a virtual lane; none: no route or the port is down, an access error (R362,
R376). The requester's tag is its own (log entry 41). -/
def Dev.remoteReq (d : Dev) (dev lane addr : Nat) (q : RemReq) : Option Dev :=
  match d.livePort dev with
  | none => none
  | some n =>
    let f := d.free
    let tag := f.1.toNat
    let own := d.ownDev
    let pool := poolOf lane
    match q with
    | .read k => some (f.2.linkPush n pool (fullPkt opReadReq dev own tag [] addr ((k + 7) / 8)))
    | .gadd w v => some (f.2.linkPush n pool (fullPkt opAtomic dev own tag (toBytes w v.toNat) addr w))
    | .write bs =>
      if d.isPeer n dev && compactFits addr bs then
        some ((d.linkPush n pool (compactWrite dev addr bs)).modLink n (fun l => { l with
          cwOut := Sparse.set (fun _ => 0) l.cwOut pool (Sparse.get (fun _ => 0) l.cwOut pool + 1) }))
      else some (f.2.linkPush n pool (fullPkt opWrite dev own tag bs addr 0))

/-- An exchange credit for another device, in pool 2 whatever lane its data use (R231, R363). -/
def Dev.sendCredit (d : Dev) (dev tile tag n : Nat) : Dev :=
  match d.livePort dev with
  | some p => d.linkPush p 2 (fullPkt opCredit dev d.ownDev tag [] tile n)
  | none => d

/-- A unit in pieces of up to 256 B. -/
def pieces (fuel : Nat) (bs : List Byte) : List (List Byte) :=
  match fuel with
  | 0 => []
  | f + 1 => if bs = [] then [] else bs.take 256 :: pieces f (bs.drop 256)

/-- A unit for another device leaves at port `n`. -/
def Dev.sendUnit (d : Dev) (n lane dev tile tag : Nat) (bs : List Byte) : Dev :=
  (pieces (bs.length / 256 + 1) bs).foldl (fun d b =>
    d.linkPush n (poolOf lane)
      (if d.isPeer n dev && compactFits 0 b then compactUnit dev tile tag b else fullPkt opUnit dev d.ownDev tag b tile 0)) d

/-- A chunk at a link: 16 bytes of header, then its lanes (R354; the places of the header's fields: log entry 42). -/
def chunkBytes (c : Chunk) : List Byte :=
  toBytes 4 (c.rid + c.ord * 2 ^ 10 + c.rfmt * 2 ^ 25 + b2n c.sat * 2 ^ 29 + b2n c.nf * 2 ^ 30) ++ toBytes 4 c.q
    ++ toBytes 2 c.tensor.toNat ++ toBytes 1 (c.rop + c.rnd * 4) ++ [0] ++ toBytes 4 (c.index.headD 0).toNat
    ++ (c.lanes.map (fun h => toBytes 2 h.toNat)).flatten

def Dev.sendChunk (d : Dev) (n : Nat) (c : Chunk) : Dev :=
  d.linkPush n 3 (fullPkt opChunk c.dev.toNat d.ownDev 0 (chunkBytes c) c.tile 0)

/-! ## A port goes down (R376) -/

/-- Does the port carry the job's halyard (R258)? -/
def Dev.carriesHal (d : Dev) (n : Nat) : Bool :=
  d.fld Reg.halJobBoard F.halJobBoardPorts / 2 ^ n % 2 == 1 || d.fld Reg.halJobTree F.halJobTreeChildren / 2 ^ n % 2 == 1
    || d.fld Reg.halJobTree F.halJobTreeParent == n

/-- What the link keeps when its traffic goes: training history and what the lanes went through. -/
def LinkP.emptied (l : LinkP) : LinkP :=
  { LinkP.idle with strikes := l.strikes, retry := l.retry, calNext := l.calNext, edgeDead := l.edgeDead }

/-- Port `n` goes down: its packets are discarded; a port that carried the job's halyard makes the fault device-fatal, any
other aborts the step (R376). -/
def Dev.portDown (d : Dev) (n cause : Nat) : Dev :=
  let was := d.flag (Reg.lnkStatus n) F.lnkStatusUp
  let r := Reg.lnkStatus n
  let d := (((d.setFld r F.lnkStatusUp 0).setFld r F.lnkStatusState (if cause = 7 then 5 else 0)).setFld r F.lnkStatusDownCause cause)
  let d := (d.setFld (Reg.lnkPlevel n) F.lnkPlevelChosen 0).modLink n LinkP.emptied
  if was && d.runningJob then
    if d.carriesHal n then d.fatal 6 cause n 5 (some (2, n / 4)) else d.notice 6 cause n
  else d

end Sys2Proof.Machine
end

