-- ==== Sys2Proof/Machine/Copies.lean ====
section
/-! DEFINITION. Sys2Proof/Machine/Copies.lean: the working copies in the hold: heads, codes, QPEs and their VERSION (R292 to
R294, R313). -/

namespace Sys2Proof.Machine
open Sys2Proof.Num

namespace Layer
def hasCopy (l : Layer) : Bool := l.wcFmt != 0xF
def bits (l : Layer) : Nat := fmtWidth l.wcFmt
/-- Length of a channel, and how many the whole tensor has. -/
def len (l : Layer) : Nat := if l.axis then l.rows else l.rowLen
def channels (l : Layer) : Nat := if l.axis then l.rowLen else l.rows
def headAt (l : Layer) : Nat := l.wcAddr * 0x4000
def qpeAt (l : Layer) (ch : Nat) : Nat := l.qpeAddr * 64 + 8 * ch
/-- Bytes that one 128-element granule of master makes, and how many fill 256. -/
def pieceBytes (l : Layer) : Nat := 16 * l.bits
def perBlock (l : Layer) : Nat := 256 / l.pieceBytes
/-- Where the codes of full-tensor granule `m` begin (R293). -/
def pieceAt (l : Layer) (m : Nat) : Nat :=
  l.headAt + 1024 + 256 * (4 * (m / 4 / l.perBlock) + m % 4) + l.pieceBytes * (m / 4 % l.perBlock)
/-- Bytes the codes of the whole tensor take. -/
def codeBytes (l : Layer) : Nat := (l.channels * l.stride / 512 + l.perBlock - 1) / l.perBlock * 1024
end Layer

/-- The layer in whose codes or QPEs a hold access falls. -/
def Dev.copyAt (d : Dev) (a n : Nat) : Option Layer :=
  d.press.layers.find? (fun l => l.hasCopy &&
    ((decide (l.headAt + 1024 < a + n) && decide (a < l.headAt + 1024 + l.codeBytes))
      || (decide (l.qpeAt 0 < a + n) && decide (a < l.qpeAt l.channels))))

/-- The VERSION in force: the copy table follows the head (R313). -/
def Dev.version (d : Dev) (l : Layer) : Word := w32 (d.nat l.headAt 4)

/-- A head with VERSION `v` (R294). -/
def Dev.putVersion (d : Dev) (l : Layer) (v : Word) : Dev :=
  d.store l.headAt (toBytes 4 v.toNat ++ toBytes 2 l.id ++ List.replicate 58 0)

/-- Every copy advances, as on a skip (R315). -/
def Dev.advanceAll (d : Dev) (v : Word) : Dev := (d.press.layers.filter Layer.hasCopy).foldl (fun d l => d.putVersion l v) d

/-- The layer's descriptor, when the presses hold one. -/
def PressS.layer (p : PressS) (l : Nat) : Option Layer := p.layers[l]?

def Dev.copyIns (d : Dev) (l : Nat) : Nat := Sparse.get (fun _ => 0) d.press.copyIn l
/-- Is every channel of the shard regenerated? -/
def Dev.regenDone (d : Dev) (l : Nat) (y : Layer) : Bool := Sparse.get (fun _ => 0) d.press.regen l == 2 ^ y.chCount - 1

/-- A copy takes its VERSION once the shard's codes are written and the rest has come in (R314, R318). -/
def Dev.tryVersion (d : Dev) (l : Nat) : Dev :=
  match d.press.layer l, d.press.ver with
  | some y, some v =>
    if y.hasCopy && !d.press.verDone.contains l && d.regenDone l y && d.copyIns l == y.inExpect then
      let d := d.putVersion y v
      { d with press := { d.press with verDone := l :: d.press.verDone } }
    else d
  | _, _ => d

def Dev.tryVersions (d : Dev) : Dev := (List.range d.press.layers.length).foldl (fun d l => d.tryVersion l) d

/-- Does a copy still wait for the codes of the decision, or the preparation, in hand (R314, R318)? -/
def PressS.awaitsCopy (p : PressS) : Bool :=
  p.ver.isSome && (List.range p.layers.length).any (fun l => match p.layer l with | some y => y.hasCopy && !p.verDone.contains l | none => false)

/-- Layers of the table that the presses update, and how many layers there are. -/
def PressS.unfrozen (p : PressS) : List Nat :=
  (List.range p.layers.length).filter (fun l => match p.layer l with | some y => !y.frozen | none => false)
/-- Of those, the ones with a shard here. -/
def PressS.sharded (p : PressS) : List Nat :=
  p.unfrozen.filter (fun l => match p.layer l with | some y => y.chCount != 0 | none => false)
def PressS.frozenCopies (p : PressS) : List Nat :=
  (List.range p.layers.length).filter (fun l => match p.layer l with | some y => y.frozen && y.hasCopy | none => false)

end Sys2Proof.Machine
end

