-- ==== Sys2Proof/Machine/Regions.lean ====
section
/-! DEFINITION. Sys2Proof/Machine/Regions.lean: the region table of the hold (R216). -/

namespace Sys2Proof.Machine

def rgnUnit : Nat := 0x10000
def Dev.rgnValid (d : Dev) (r : Nat) : Bool := d.flag (Reg.holdRgnAttr r) F.holdRgnAttrValid
def Dev.rgnBase (d : Dev) (r : Nat) : Nat := d.fld (Reg.holdRgnBase r) F.holdRgnBaseBase * rgnUnit
def Dev.rgnBytes (d : Dev) (r : Nat) : Nat := d.fld (Reg.holdRgnSize r) F.holdRgnSizeSize * rgnUnit
def Dev.rgnKind (d : Dev) (r : Nat) : Nat := d.fld (Reg.holdRgnAttr r) F.holdRgnAttrKind
def Dev.rgnHas (d : Dev) (r a : Nat) : Bool := d.rgnValid r && decide (d.rgnBase r ≤ a) && decide (a < d.rgnBase r + d.rgnBytes r)
def Dev.rgnAt (d : Dev) (a : Nat) : Option Nat := (List.range 64).find? (fun r => d.rgnHas r a)
/-- The first valid region of a kind. -/
def Dev.rgnOf (d : Dev) (kind : Nat) : Option Nat := (List.range 64).find? (fun r => d.rgnValid r && d.rgnKind r == kind)
/-- Base of the region of a kind; 0 where the table has none. -/
def Dev.kindBase (d : Dev) (kind : Nat) : Nat := match d.rgnOf kind with | some r => d.rgnBase r | none => 0

end Sys2Proof.Machine
end

