-- ==== Sys2Proof/Machine/ProofLib.lean ====
section
/-! DEFINITION. Sys2Proof/Machine/ProofLib.lean: slot headers and commit records: their bytes (R323, R326), which record
counts (R330), what the registers show of it, the steps that can be offered (R336, R342), and who may write a control
register (R132). -/

namespace Sys2Proof.Machine
open Sys2Proof.Num

/-! ## Slots -/

def unit64k : Nat := 0x10000
def Dev.live (d : Dev) : Nat := d.fld Reg.pressProofStatus F.pressProofStatusLive
def Dev.slotAt (d : Dev) (s : Nat) : Nat := d.kindBase s
def Dev.altAt (d : Dev) : Nat := d.slotAt (1 - d.live)
def absent : Nat := 0xFFFFFFFF

/-- Bytes of a shard array. -/
def Layer.arrayBytes (l : Layer) : Nat := 2 * (l.chCount * l.stride)
/-- Where the arrays that the layer has begin within a slot. -/
def Layer.arrays (l : Layer) : List Nat := ([l.wOff, l.m1Off, l.m2Off, l.vOff].filter (· != absent)).map (· * 0x4000)

/-- The layer record's replica for press `c` in the slot at `base` (R296). -/
def Dev.recAt (d : Dev) (base l c : Nat) : Nat := base + d.reg Reg.pressRecOff * unit64k + 1024 * l + 256 * c
/-- A scale entry's place in the slot at `base` (R324). -/
def Dev.scaleSlotAt (d : Dev) (base i : Nat) : Nat := base + d.reg Reg.pressScaleOff * unit64k + 64 * i

/-- SPAN of R323: the slot's bytes in use, in 64 KiB units. -/
def Dev.span (d : Dev) : Nat :=
  let ends := (d.press.layers.flatMap (fun l => l.arrays.map (· + l.arrayBytes)))
    ++ [unit64k, d.recAt 0 d.press.layers.length 0, d.scaleSlotAt 0 d.job.scaleCount]
  ceilDiv (ends.foldl max 0) unit64k

/-! ## Headers and records -/

def withCrc (body : List Byte) : List Byte := body ++ toBytes 4 (crc32 body).toNat
def Dev.jobSeed (d : Dev) : DWord := w64 (d.reg64 Reg.devSeedLo Reg.devSeedHi)
def Dev.proofLevel (d : Dev) : Nat := d.fld Reg.pressProofStatus F.pressProofStatusLevel
def Dev.boardPos (d : Dev) : Nat := d.fld Reg.devBoard F.devBoardBoardPos

/-- R323. -/
def Dev.headerBytes (d : Dev) (slot : Nat) (step : Word) : List Byte :=
  withCrc (toBytes 2 d.proofLevel ++ toBytes 2 slot ++ toBytes 4 step.toNat ++ toBytes 8 d.jobSeed.toNat
    ++ toBytes 8 d.job.formeId.toNat ++ toBytes 2 d.ownDev ++ toBytes 2 d.boardPos ++ toBytes 4 (d.reg Reg.pressLtCount)
    ++ toBytes 4 (d.reg Reg.pressScaleOff) ++ toBytes 4 d.job.scaleCount ++ toBytes 4 d.span ++ List.replicate 16 0)

/-- OWNER_DIGEST of R326: the first 8 bytes of the owner token's SHA-512 (log entry 10 for their order). -/
def Dev.ownerDigest (d : Dev) : List Byte :=
  if d.job.retain then (List.range 8).map (fun i => d.job.tokenDigest.extractLsb' (504 - 8 * i) 8) else List.replicate 8 0

/-- R326. -/
def Dev.recordBytes (d : Dev) (live flags : Nat) (step : Word) (seq : Nat) (liveStep : Word) : List Byte :=
  withCrc (toBytes 2 d.proofLevel ++ toBytes 1 live ++ toBytes 1 flags ++ toBytes 4 step.toNat ++ toBytes 8 seq
    ++ toBytes 8 d.jobSeed.toNat ++ toBytes 8 d.job.formeId.toNat ++ toBytes 4 liveStep.toNat ++ toBytes 2 d.ownDev
    ++ toBytes 2 d.boardPos ++ List.replicate 8 0 ++ d.ownerDigest ++ List.replicate 4 0)

/-- Is the CRC-32 in bytes 60 to 63 that of bytes 0 to 59? -/
def crcOk64 (b : List Byte) : Bool := natAt b 60 4 == (crc32 (b.take 60)).toNat
/-- A level that this one reads (R343). -/
def Dev.levelOk (d : Dev) (b : List Byte) : Bool :=
  decide (natAt b 0 2 ≤ d.proofLevel + 1) && decide (d.proofLevel ≤ natAt b 0 2 + 1)
def recLive (b : List Byte) : Nat := natAt b 2 1
def recStep (b : List Byte) : Word := w32 (natAt b 4 4)
def recSeq (b : List Byte) : Nat := natAt b 8 8
def recLiveStep (b : List Byte) : Word := w32 (natAt b 32 4)
def hdrStep (b : List Byte) : Word := w32 (natAt b 4 4)

/-- Do a record and the header of the slot it names go together (R330)? -/
def Dev.pairOk (d : Dev) (rec hdr : List Byte) : Bool :=
  crcOk64 rec && d.levelOk rec && decide (recLive rec < 2) && crcOk64 hdr && hdrStep hdr == recLiveStep rec

def Dev.recCopyAt (d : Dev) (k : Nat) : Nat := d.slotAt 0 + 0x1000 + 64 * k
def Dev.recCopy (d : Dev) (k : Nat) : List Byte := d.bytes (d.recCopyAt k) 64
def Dev.usable (d : Dev) (k : Nat) : Bool := d.pairOk (d.recCopy k) (d.bytes (d.slotAt (recLive (d.recCopy k))) 64)

/-- The newest record and the previous one (R330). -/
def Dev.newest (d : Dev) : Option (List Byte) :=
  match d.usable 0, d.usable 1 with
  | true, true => some (if recSeq (d.recCopy 0) < recSeq (d.recCopy 1) then d.recCopy 1 else d.recCopy 0)
  | true, false => some (d.recCopy 0)
  | false, true => some (d.recCopy 1)
  | false, false => none
def Dev.previous (d : Dev) : Option (List Byte) :=
  match d.usable 0, d.usable 1 with
  | true, true =>
    let o := if recSeq (d.recCopy 0) < recSeq (d.recCopy 1) then d.recCopy 0 else d.recCopy 1
    let n := if recSeq (d.recCopy 0) < recSeq (d.recCopy 1) then d.recCopy 1 else d.recCopy 0
    if recSeq o + 1 = recSeq n then some o else none
  | _, _ => none

/-- The proof registers as the newest record sets them (R344). -/
def Dev.showProof (d : Dev) : Dev :=
  let r := Reg.pressProofStatus
  let d := (d.setFlag r F.pressProofStatusRecValid d.newest.isSome).setFlag r F.pressProofStatusPrevValid d.previous.isSome
  let d := d.setFlag r F.pressProofStatusRetain (if d.jobLoaded then d.job.retain else d.bos.retained.isSome)
  match d.newest with
  | none => d
  | some b => ((d.setFld r F.pressProofStatusLive (recLive b)).setReg Reg.pressProofStep (recStep b).toNat).setReg64
      Reg.pressProofSeqLo Reg.pressProofSeqHi (recSeq b)

/-- A record goes into the copy of its SEQ; the other copy is zeroed when it opens a restart (R326, R337). -/
def Dev.putRecord (d : Dev) (b : List Byte) (alone : Bool) : Dev :=
  let k := recSeq b % 2
  let d := d.store (d.recCopyAt k) b
  (if alone then d.store (d.recCopyAt (1 - k)) (List.replicate 64 0) else d).showProof

/-- Does the slot hold an uncorrectable error (R342)? -/
def Dev.slotBad (d : Dev) (s : Nat) : Bool :=
  match d.rgnOf s with
  | none => true
  | some r => d.ecc.any (fun e => decide (2 ≤ e.2) && d.rgnHas r e.1)

/-- A local record that can be offered. -/
def Dev.offerOf (d : Dev) (b : Option (List Byte)) : Option (List Byte) := b.filter (fun r => !d.slotBad (recLive r))

/-! ## Control registers and their masters -/

/-- May the master reach the register at an offset at all: a CT all of its own device's, an MT or VT those of its own slot
window, no other device any (R27, R132)? -/
def Dev.mayReg (m : Master) (off : Nat) : Bool :=
  match m with
  | .bosun | .host => true
  | .remote _ => false
  | .tile p _ => slotIsCt p || (match windowOf off with | some (.tile, i, _) => i == p | _ => false)

/-- The registers that the bosun writes beside its own, power and clock blocks: the map registers, the level and lane registers of
the ports, slice ownership, and the RWL registers (R29). -/
def bosunWrites (r : RegAt) : Bool :=
  match r.d.block with
  | .bos | .pwr => true
  | _ => r.d.fields.any (fun f => f.acc == .rwl) ||
    (match r.d.name with
     | .devMap | .yardHarvest | .yardFurlPending | .lnkPlevel | .lnkCtl | .lnkCfg | .yardSliceOwner | .yardSliceNext | .yardSliceCtl => true
     | _ => false)
/-- May the master write the register at an offset (R27, R29, R132)? -/
def Dev.maySet (m : Master) (off : Nat) : Bool :=
  Dev.mayReg m off && (m != .bosun || (match regAt off with | some r => bosunWrites r | none => true))

end Sys2Proof.Machine
end

