-- ==== Sys2Proof/Machine/MirrorHead.lean ====
section
/-! DEFINITION. Sys2Proof/Machine/MirrorHead.lean: the head of the mirror held for a partner, and how controller 0 follows it
(R332, R334). -/

namespace Sys2Proof.Machine

def Dev.mirrorAt (d : Dev) : Nat := d.kindBase 2

/-- VERIFIED, in the register and in byte 1 of the head, which only the holder writes (R332). -/
def Dev.setVerified (d : Dev) (b : Bool) (step : Word) : Dev :=
  let d := (d.setFlag Reg.pressMirrorHeld F.pressMirrorHeldVerified b).setReg Reg.pressMirrorHeldStep step.toNat
  d.store (d.mirrorAt + 1) [BitVec.ofNat 8 (b2n b)]

/-- The complete mirror that the device holds, as its head says, unless the region holds an error: step and source (R334, R336, R342). -/
def Dev.mirrorHeld (d : Dev) : Option (Word × Nat) :=
  let h := d.bytes d.mirrorAt 256
  if (d.rgnOf 2).isSome && !d.slotBad 2 && natAt h 0 1 == 2 && natAt h 1 1 == 1 then some (w32 (natAt h 68 4), natAt h 4 2) else none

/-- The mirror registers as the head in the hold gives them (R344). -/
def Dev.showMirror (d : Dev) : Dev :=
  if (d.rgnOf 2).isNone then d
  else
    let r := Reg.pressMirrorHeld
    let h := d.bytes d.mirrorAt 256
    let d := (d.setFld r F.pressMirrorHeldSrcBoardPos (natAt h 6 1)).setFld r F.pressMirrorHeldSrcSystemId (natAt h 4 2)
    let d := d.setFld r F.pressMirrorHeldState (natAt h 0 1)
    let ok := natAt h 0 1 == 2 && natAt h 1 1 == 1
    d.setVerified ok (if ok then w32 (natAt h 68 4) else noStep)

def Dev.mirrorRx (d : Dev) : Nat := d.reg64 Reg.pressMirrorRxLo Reg.pressMirrorRxHi

/-- The tests of a completion (R334); a mirror that took an uncorrectable error since it opened stays unverified (R342). -/
def Dev.mirrorSound (d : Dev) : Bool :=
  let h := d.bytes d.mirrorAt 256
  let n := natAt h 8 8
  let rec_ := (h.drop 64).take 64
  let hdr := (h.drop 128).take 64
  d.fld Reg.pressMirrorHeld F.pressMirrorHeldState == 1 && !d.press.mirrorUe && d.mirrorRx == n
    && (match d.rgnOf 2 with | some r => decide (0x10000 + n ≤ d.rgnBytes r) | none => false)
    && d.pairOk rec_ hdr && n == natAt hdr 40 4 * unit64k

/-- Controller 0 follows a write of burst 0 of the head (R334). -/
def Dev.trackHead (d : Dev) : Dev :=
  let h := d.bytes d.mirrorAt 64
  let r := Reg.pressMirrorHeld
  let d := (d.setFld r F.pressMirrorHeldSrcBoardPos (natAt h 6 1)).setFld r F.pressMirrorHeldSrcSystemId (natAt h 4 2)
  match natAt h 0 1 with
  | 1 =>
    let d := { d with press := { d.press with mirrorUe := false } }
    ((d.setFld r F.pressMirrorHeldState 1).setReg64 Reg.pressMirrorRxLo Reg.pressMirrorRxHi 0).setVerified false noStep
  | 2 =>
    if d.mirrorSound then (d.setFld r F.pressMirrorHeldState 2).setVerified true (w32 (d.nat (d.mirrorAt + 68) 4))
    else (d.setFld r F.pressMirrorHeldState 2).setVerified false noStep
  | 3 => (d.setFld r F.pressMirrorHeldState 3).setVerified false noStep
  | _ => d

/-- A write of bytes `bs` of the hold at `a`, by lane 3 or not, takes part in the mirror's order: image bytes of lane 3 count in
PRESS_MIRROR_RX, and a write of burst 0 is followed. The VERIFIED byte keeps its value `v` (R332, R334). -/
def Dev.mirrorPut (d : Dev) (lane3 : Bool) (a : Nat) (bs : List Byte) (v : Byte) : Dev :=
  let b := d.mirrorAt
  let e := a + bs.length
  let d := if a ≤ b + 1 ∧ b + 1 < e then d.store (b + 1) [v] else d
  let image := min e (b + match d.rgnOf 2 with | some r => d.rgnBytes r | none => 0) - max a (b + 0x10000)
  let d := if lane3 && decide (0 < image) then d.setReg64 Reg.pressMirrorRxLo Reg.pressMirrorRxHi (d.mirrorRx + image) else d
  if a < b + 64 ∧ b < e then d.trackHead else d

/-- A write that the hold performs: its bytes, and what controller 0 makes of those of the mirror's region (R334). -/
def Dev.holdStore (d : Dev) (lane3 : Bool) (a : Nat) (bs : List Byte) : Dev :=
  if (d.rgnOf 2).isSome then (d.store a bs).mirrorPut lane3 a bs (d.byte (d.mirrorAt + 1)) else d.store a bs

end Sys2Proof.Machine
end

