-- ==== Sys2Proof/Machine/MemAccess.lean ====
section
/-! DEFINITION. Sys2Proof/Machine/MemAccess.lean: accesses to the hold, case memory and tile stores by every path: what is
populated (R24 to R26), the region table (R216, R217), slice and bank owners (R175, R197), check bits (R169, R196), a hold
error and its class (R210, R211). -/

namespace Sys2Proof.Machine

/-- Who accesses: the paths of R217, with the tile or control tile whose port it uses. -/
inductive Path where
  | tile (p : Nat)
  | desc (p : Nat)
  | exch (p : Nat)
  | press
  /-- Another device, through the port on the router of yard `y`. -/
  | remote (y : Nat)
  | mirror
  | host
  | bosun
  /-- A request at a hold controller of which only the mask bit is known. -/
  | fabric (bit : Nat)
deriving DecidableEq, Repr

/-- Mask bit of R217; none: not checked. -/
def Path.bit : Path → Option Nat
  | .tile _ => some 0
  | .desc _ => some 1
  | .exch _ => some 2
  | .press => some 3
  | .remote _ => some 4
  | .mirror => some 5
  | .host => some 6
  | .bosun => none
  | .fabric b => if b < 7 then some b else none

/-- The case master ID (R193) as seen in yard `y`: a tile port of its own yard, else the mesh router. Descriptor engines do
not use their CT's port. -/
def Path.caseMaster (y : Nat) : Path → Nat
  | .tile p => if p / 24 = y then p % 24 else 24
  | .exch p => if p / 24 = y then p % 24 else 24
  | _ => 24

/-! ## Regions (R216, R217) -/

def Dev.rgnAllows (d : Dev) (a bit : Nat) (write : Bool) : Bool :=
  match d.rgnAt a with
  | none => false
  | some r => d.fld (Reg.holdRgnAttr r) (if write then F.holdRgnAttrWrite else F.holdRgnAttrRead) / 2 ^ bit % 2 == 1

/-- A recorded range that no loaded job with its token opens: nothing but the bosun reaches it (R341). -/
def Dev.retainedClosed (d : Dev) (a n : Nat) : Bool :=
  match d.bos.retained with
  | none => false
  | some r => !(d.jobLoaded && d.job.tokenDigest == r.digest)
      && r.regions.any (fun g => decide (g.1 * rgnUnit < a + n) && decide (a < (g.1 + g.2.1) * rgnUnit))

/-- Every byte of the access lies in a region that admits the path. -/
def Dev.regionOk (d : Dev) (path : Path) (a n : Nat) (write : Bool) : Bool :=
  match path.bit with
  | none => true
  | some b => !d.started || ((List.range ((a + n - 1) / rgnUnit + 1 - a / rgnUnit)).all (fun i =>
      d.rgnAllows (max a ((a / rgnUnit + i) * rgnUnit)) b write))

/-! ## Where an address lies (R24, R25) -/

/-- The memory that all `n` bytes lie in; of case memory, the yard of the first. -/
inductive Place where
  | hold
  | case_ (y : Nat)
  | store (p : Nat)
  | control (off : Nat)
  | nowhere
deriving DecidableEq, Repr

def placeOf (a n : Nat) : Place :=
  if a + n ≤ holdTop then .hold
  else if caseLo ≤ a ∧ a + n ≤ caseLo + 64 * 0x4000000 then .case_ ((a - caseLo) / 0x4000000)
  else if storeLo ≤ a ∧ a < storeLo + 1536 * 0x80000 ∧ (a - storeLo) % 0x80000 + n ≤ storeBytes then .store ((a - storeLo) / 0x80000)
  else if ctlLo ≤ a ∧ a + n ≤ ctlLo + 0x2000000 then .control (a - ctlLo)
  else .nowhere

/-- Is the tile store open to job accesses: in service and not about to be furled, while a job runs (R23, R25)? -/
def Dev.storeOpen (d : Dev) (p : Nat) : Bool := !d.runningJob || (d.inService p && !d.pendingFurl p)

def Path.isBosun : Path → Bool
  | .bosun => true
  | _ => false

/-- An access that finds nothing there is logged (R24; log entry 6 for the entry's form). -/
def Dev.logUnpopulated (d : Dev) (a : Nat) : Dev := d.logEv 0 0x02 0 0 [w32 a, w32 (a / 2 ^ 32)]

/-! ## Errors of case memory and the hold -/

/-- The yard of a case address. -/
def yardAt (a : Nat) : Nat := (a - caseLo) / 0x4000000
/-- The yards whose case memory `n` bytes from `a` on reach. -/
def yardsOf (a n : Nat) : List Nat := (List.range (yardAt (a + n - 1) + 1 - yardAt a)).map (yardAt a + ·)

/-- Correctable words of case memory: corrected, counted in their yard, to be written back (R168, R196). -/
def Dev.caseCe (d : Dev) (sel : Nat → Bool) : Dev :=
  (d.ceOf sel).foldl (fun d w => (d.satFld (Reg.yardCaseEcc (yardAt w)) F.yardCaseEccCeCount 1).queueBack w) d

/-- An uncorrectable word of case memory, by the master that `m` gives for its yard (R196). -/
def Dev.caseUe (d : Dev) (m : Nat → Nat) (w : Nat) : Dev :=
  let y := yardAt w
  let m := m y
  let d := d.countUe w (fun d => d.fenceYard y)
  let r := Reg.yardCaseEcc y
  if d.flag r F.yardCaseEccUe then d.setFlag r F.yardCaseEccUeMore true
  else ((d.setFlag r F.yardCaseEccUe true).setFld r F.yardCaseEccUeMaster m).setFld (Reg.yardCaseEccAddr y) F.yardCaseEccAddrOffset (w - caseBase y)

/-- Bytes moved at the packages, in whole bursts (R205). -/
def Dev.countHold (d : Dev) (a n : Nat) (write : Bool) : Dev :=
  (List.range ((a + n - 1) / 64 + 1 - a / 64)).foldl (fun d i =>
    let c := (a / 64 + i) * 64 / 256 % 4
    if write then d.inc64 (Reg.holdWrBytesLo c) (Reg.holdWrBytesHi c) 64 else d.inc64 (Reg.holdRdBytesLo c) (Reg.holdRdBytesHi c) 64) d

/-- A page: controller, channel, rank, bank group, bank, row of a hold address (R202), as the address of its first
granule's place in the decode. -/
def pageOf (a : Nat) : Nat := a / 2 ^ 17 * 2 ^ 6 + a / 256 % 64
/-- The bank of a page: its spare rows are counted by it (R215). -/
def bankOfAddr (a : Nat) : Nat :=
  let bg := Nat.xor (bitsAt a 17 2) (bitsAt a 22 2)
  let b := Nat.xor (bitsAt a 19 2) (bitsAt a 24 2)
  (((bitsAt a 8 2 * 16 + bitsAt a 10 4) * 2 + bitsAt a 21 1) * 4 + bg) * 4 + b
def ctlOf (a : Nat) : Nat := a / 256 % 4

/-- A page goes on the list of those to retire (R214). -/
def Dev.scheduleRetire (d : Dev) (a : Nat) : Dev :=
  let c := ctlOf a
  let x := d.ctl c
  if x.retire.contains (pageOf a) then d
  else (d.setCtl c { x with retire := x.retire ++ [pageOf a] }).setFld (Reg.holdRetirePending c) F.holdRetirePendingPages
    (min 0xFF (x.retire.length + 1))

/-- An uncorrectable error is recorded: layer 1 array, 2 controller, 3 patrol (R210, R211). The burst stays marked until it is
written, for the offers that it withdraws (R342); the mark alone fails no read (R210). -/
def Dev.recordHoldUe (d : Dev) (a layer : Nat) : Dev :=
  let c := ctlOf a
  let b := a / 64 * 64
  let r := Reg.holdEccUe c
  let d := d.satFld r F.holdEccUeCount 1
  let d := if d.flag r F.holdEccUeUe then d
    else ((d.setFlag r F.holdEccUeUe true).setFld r F.holdEccUeLayer layer).setReg64 (Reg.holdUeAddrLo c) (Reg.holdUeAddrHi c) b
  let d := if layer = 2 then d.setFlag (Reg.holdPathEcc c) F.holdPathEccUe true else d
  if layer = 2 then d else Dev.scheduleRetire { d with ecc := Sparse.set (fun _ => 0) d.ecc b 2 } b

/-- Does the address lie in a commit-record copy in slot A's head (R326)? -/
def Dev.inRecordCopies (d : Dev) (a : Nat) : Bool :=
  let b := d.kindBase 0
  (d.rgnOf 0).isSome && decide (b + 0x1000 ≤ a) && decide (a < b + 0x1080)

/-- What a hold error means beyond the access error that its requester reports (R211): device-fatal regions, a mirror that
becomes incomplete, an event only where no valid region holds the burst. -/
def Dev.holdUeClass (d : Dev) (a kind : Nat) : Dev :=
  match d.rgnAt a with
  | none => d.logEv 0 0x04 (ctlOf a) kind [w32 a, w32 (a / 2 ^ 32)]
  | some r =>
    let k := d.rgnKind r
    let live := d.fld (Reg.pressProofStatus) F.pressProofStatusLive
    if k = 2 then ({ d with press := { d.press with mirrorUe := true } }).setVerified false noStep
    else if !d.started then d
    else if d.inRecordCopies a || k == live then d.fatal 0x04 kind (ctlOf a) 5 (some (3, ctlOf a))
    else if k = 8 ∨ k = 6 ∨ k = 7 then d.fatal 0x04 kind (ctlOf a) 5 (some (3, ctlOf a))
    else d

/-- A read or write of the burst at `a` that the packages cannot deliver. -/
def Dev.holdUe (d : Dev) (a layer : Nat) : Dev := (d.recordHoldUe a layer).holdUeClass a layer

/-- The burst that fails of an access that does: a marked one, else the spec does not say which (log entry 104). -/
def Dev.failedBurst (d : Dev) (a n : Nat) : Dev × Nat :=
  match d.eccFirst a n with
  | some w => (d, w)
  | none =>
    let k := (a + n - 1) / 64 - a / 64 + 1
    if k = 1 then (d, a / 64 * 64) else (d.free.2, (a / 64 + d.free.1.toNat % k) * 64)

/-- Does a read of these bytes fail, and at which burst? The packages decide: as the command says (`bad`), and anew at every read
of a burst that has failed before, where the command does not (R210; log entry 104). -/
def Dev.holdFails (d : Dev) (a n : Nat) (bad : Bool) : Dev × Option Nat :=
  if bad then ((d.failedBurst a n).1, some (d.failedBurst a n).2)
  else
    match d.eccFirst a n with
    | none => (d, none)
    | some w => (d.free.2, if d.free.1.getLsbD 0 then some w else none)

/-! ## Stale reads (R313) -/

/-- The tile whose STEP a read carries. -/
def Path.tile_ : Path → Option Nat
  | .tile p => some p
  | .desc p => some p
  | .exch p => some p
  | _ => none

/-- STALE_VERSION in the flag contribution of a tile (R248). -/
def Dev.markStale (d : Dev) (path : Path) : Dev :=
  match path.tile_ with
  | some p => d.modTile p (fun t => { t with flags := t.flags ||| 0x20#32 })
  | none => d

/-- A read that carries STEP `s` of codes or QPEs of another VERSION is stale: counted and, at a tile of this device, flagged. -/
def Dev.judgeStep (d : Dev) (path : Path) (s : Word) (a n : Nat) : Dev × Bool :=
  match d.copyAt a n with
  | some l => if d.version l = s then (d, false) else ((d.satFld (Reg.pressStale (ctlOf a)) fld32 1).markStale path, true)
  | none => (d, false)

/-- Is the read stale? One of this device carries its tile's STEP; a read packet has no place for one, so of a read of another
device the STEP is open (R313, R353; log entry 63). -/
def Dev.judgeStale (d : Dev) (path : Path) (a n : Nat) : Dev × Bool :=
  match path with
  | .remote _ => if (d.copyAt a n).isSome then d.free.2.judgeStep path (d.free.1.setWidth 32) a n else (d, false)
  | _ => match path.tile_ with
    | some p => d.judgeStep path (d.tile p).step a n
    | none => (d, false)

/-! ## Accesses -/

/-- Units of `u` bytes only part of which the access covers. -/
def partialUnits (u a n : Nat) : List Nat :=
  (if a % u ≠ 0 then [a / u * u] else []) ++ (if (a + n) % u ≠ 0 ∧ (a % u = 0 ∨ a / u ≠ (a + n) / u) then [(a + n) / u * u] else [])
/-- Words of a protected memory, and bursts of the hold, of which a write covers only part: it reads them first (R168, R205). -/
def partialWords (a n : Nat) : List Nat := partialUnits 8 a n
def partialBursts (a n : Nat) : List Nat := partialUnits 64 a n

/-! ## The way through the mesh (R235, R261) -/

/-- The yard an access enters the mesh at; none: it crosses no mesh, or does so in packets of its own. -/
def Path.yard : Path → Option Nat
  | .tile p => some (p / 24)
  | .desc p => some (p / 24)
  | .host => some hostYard
  | .remote y => some y
  | _ => none

/-- A router that passes no traffic: failed in this job, or dead in the published map (R261, R262). -/
def Dev.routerFailed (d : Dev) (y : Nat) : Bool :=
  d.flag (Reg.yardRtrStatus y) F.yardRtrStatusFailed || d.flag (Reg.yardRtrStatus y) F.yardRtrStatusRouterDead

/-- The last router before a failed one on the way from `y` along a route set; `y` itself when its own is. -/
def Dev.blockedAt (d : Dev) (rset dest : Nat) : Nat → Nat → Option Nat
  | 0, _ => none
  | fuel + 1, y =>
    match (d.routeOf rset y dest).bind (neighbour y) with
    | none => none
    | some y2 => if d.routerFailed y || d.routerFailed y2 then some y else d.blockedAt rset dest fuel y2

def meshDests (a n : Nat) : List Nat :=
  match placeOf a n with
  | .hold => (List.range (min 4 ((a + n - 1) / 256 + 1 - a / 256))).map (fun i => 64 + (ctlOf a + i) % 4)
  | .case_ _ => yardsOf a n
  | .store p => [p / 24]
  | _ => []

/-- A request from yard `y` that meets a failed router is discarded there, and counted by the neighbour that held it (R261). -/
def Dev.wayBlocked (d : Dev) (rset y : Nat) (dests : List Nat) : Option Dev :=
  (dests.findSome? (fun t => d.blockedAt rset t 64 y)).map (fun y1 => d.satFld (Reg.yardRtrDrop y1) fld32 1)
def Dev.meshBlocked (d : Dev) (path : Path) (a n : Nat) : Option Dev :=
  path.yard.bind (fun y => d.wayBlocked 0 y (meshDests a n))

/-! ## Requests that wait at a controller (R205, R207) -/

def opAddr : HoldOp → Nat
  | .read a _ _ => a
  | .write a _ => a
  | .gadd a _ _ => a
def opSize : HoldOp → Nat
  | .read _ n _ => n
  | .write _ bs => bs.length
  | .gadd _ w _ => w
/-- Do `n` bytes from `a` on touch a burst of 64 bytes that the access touches? -/
def opMeetsAt (o : HoldOp) (a n : Nat) : Bool :=
  decide (a / 64 < (opAddr o + opSize o + 63) / 64) && decide (opAddr o / 64 < (a + n + 63) / 64)

/-- The bytes a write stores; those of an atomic follow from what it reads. -/
def Dev.holdBytes (d : Dev) (o : HoldOp) : List Byte :=
  match o with
  | .read _ _ _ => []
  | .write _ bs => bs
  | .gadd a w v => toBytes w (d.nat a w + v.toNat)

/-- The request takes its place in the order of its bursts: a read has its bytes and is judged (R313), a write has written. -/
def Dev.holdPerform (d : Dev) (r : HoldReqS) : Dev × HoldReqS :=
  if r.taken.isSome then (d, r)
  else
    match r.op with
    | .read a n s =>
      let j := if !r.press && (r.path.val < 3 || r.path.val == 4) then d.judgeStep .host s a n else (d, false)
      (j.1, { r with taken := some (d.bytes a n), stale := j.2 })
    | .write a bs => (d.holdStore (!r.press && r.path == 5) a bs, { r with taken := some [] })
    | .gadd a w _ => (d.holdStore (!r.press && r.path == 5) a (d.holdBytes r.op), { r with taken := some (d.bytes a w) })

/-- The requests that wait at controller `c`, in their order. -/
def Dev.performAll (d : Dev) (c : Nat) : Dev :=
  let x := d.ctl c
  let o := x.q.foldl (fun (o : Dev × List HoldReqS) r => let p := o.1.holdPerform r; (p.1, o.2 ++ [p.2])) (d, [])
  o.1.setCtl c { x with q := o.2 }

/-- An access that its path makes at once comes after the requests to its bursts that arrived before it (R207). -/
def Dev.orderHold (d : Dev) (a n : Nat) : Dev :=
  (List.range 4).foldl (fun d c => if (d.ctl c).q.any (fun r => opMeetsAt r.op a n) then d.performAll c else d) d

/-! ## Reads and writes -/

/-- What refuses an access to the hold: the device as the refusal leaves it (R217, R221, R341). -/
def Dev.holdRefused (d : Dev) (path : Path) (a n : Nat) (write : Bool) : Option Dev :=
  if !path.isBosun && (d.flag (Reg.holdStatus 0) F.holdStatusClearing || d.retainedClosed a n) then some d
  else if !d.regionOk path a n write then some (d.logUnpopulated a)
  else none

/-- A read of the hold that nothing refuses: its bytes, and whether it was stale. -/
def Dev.holdRead (d : Dev) (path : Path) (a n : Nat) (bad : Bool) : Dev × Option (List Byte × Bool) :=
  let d := (d.orderHold a n).countHold a n false
  match d.holdFails a n bad with
  | (d1, some w) => (d1.holdUe w 1, none)
  | (d1, none) => ((d1.judgeStale path a n).1, some (d1.bytes a n, (d1.judgeStale path a n).2))

/-- A write of the hold that nothing refuses: bursts it covers in part are read first (R205). -/
def Dev.holdWrite (d : Dev) (path : Path) (a : Nat) (bs : List Byte) (bad : Bool) : Dev × Bool :=
  let n := bs.length
  let d := d.orderHold a n
  let d := if a % 64 ≠ 0 ∨ n % 64 ≠ 0 then d.countHold a n false else d
  let f : Dev × Option Nat :=
    if bad then d.holdFails a n true
    else match (partialBursts a n).find? (fun w => (d.eccFirst w 64).isSome) with
      | some w => d.holdFails w 64 false
      | none => (d, none)
  match f with
  | (d1, some w) => (d1.holdUe w 1, false)
  | (d1, none) => ((d1.countHold a n true).holdStore (decide (path = .mirror)) a bs, true)

/-- A read of `n` bytes, with the stale mark of R313; none: an access error. `bad`: the hold's packages cannot deliver it
(R210). -/
def Dev.memReadS (d : Dev) (path : Path) (a n : Nat) (bad : Bool := false) : Dev × Option (List Byte × Bool) :=
  match d.meshBlocked path a n with
  | some d' => (d', none)
  | none =>
  match placeOf a n with
  | .hold =>
    match d.holdRefused path a n false with
    | some d' => (d', none)
    | none => d.holdRead path a n bad
  | .case_ _ =>
    if !path.isBosun && d.runningJob && (yardsOf a n).any d.yardFurled then (d.logUnpopulated a, none)
    else
      let d := d.caseCe (touches a n)
      match d.eccAll a n with
      | [] => (d, some (d.bytes a n, false))
      | ws => (ws.foldl (fun d w => d.caseUe path.caseMaster w) d, none)
  | .store p =>
    if !path.isBosun && !d.storeOpen p then (d.logUnpopulated a, none)
    else
      let r := d.readStore p (a - tileBase p) n 11
      if r.2 then (r.1, some (r.1.bytes a n, false)) else (r.1, none)
  | .control _ => (d, none)
  | .nowhere => (d.logUnpopulated a, none)

/-- A read of `n` bytes; none: an access error. -/
def Dev.memRead (d : Dev) (path : Path) (a n : Nat) (bad : Bool := false) : Dev × Option (List Byte) :=
  let r := d.memReadS path a n bad
  (r.1, r.2.map (·.1))

/-- May the path write the slices that the bytes reach: only their owner while a job runs (R197)? -/
def Dev.sliceOk (d : Dev) (path : Path) (a n : Nat) : Bool :=
  (List.range ((a + n - 1) / 0x200000 + 1 - a / 0x200000)).all (fun i =>
    let u := a / 0x200000 + i
    let y := yardAt (u * 0x200000)
    bitsAt (d.reg (Reg.yardSliceOwner y (u % 32 / 4))) (8 * (u % 4)) 8 == path.caseMaster y)

/-- What refuses a write of `n` bytes: the device as the refusal leaves it (R24, R25, R161, R175, R197, R217, R221, R341). -/
def Dev.writeRefused (d : Dev) (path : Path) (a n : Nat) : Option Dev :=
  match placeOf a n with
  | .hold => d.holdRefused path a n true
  | .case_ _ =>
    if !path.isBosun && d.runningJob && (yardsOf a n).any d.yardFurled then some (d.logUnpopulated a)
    else if !path.isBosun && d.runningJob && !d.sliceOk path a n then some d
    else none
  | .store p =>
    let l := a - tileBase p
    if !path.isBosun && !d.storeOpen p then some (d.logUnpopulated a)
    else if !path.isBosun && (decide (l < (d.tile p).image.codeEnd) || !d.mayWrite p l n ownPort) then some d
    else none
  | .control _ => some d
  | .nowhere => some (d.logUnpopulated a)

/-- A write; false: an access error, and nothing written. Words that it covers in part are read first (R168, R169, R205). -/
def Dev.memWrite (d : Dev) (path : Path) (a : Nat) (bs : List Byte) (bad : Bool := false) : Dev × Bool :=
  let n := bs.length
  let part := fun w : Nat => (partialWords a n).contains w
  let ues := (partialWords a n).flatMap (fun w => d.eccAll w 8)
  match (d.meshBlocked path a n).orElse (fun _ => d.writeRefused path a n) with
  | some d' => (d', false)
  | none =>
  match placeOf a n with
  | .hold => d.holdWrite path a bs bad
  | .case_ _ =>
    let d := d.caseCe part
    if ues = [] then (d.store a bs, true) else (ues.foldl (fun d w => d.caseUe path.caseMaster w) d, false)
  | .store p =>
    let d := d.noteCeAt p part
    if ues = [] then (d.store a bs, true) else (d.noteUes p 11 ues, false)
  | _ => (d, false)

/-- An atomic addition of `w` bytes: the old value (R142, R205). -/
def Dev.memGadd (d : Dev) (path : Path) (a w : Nat) (v : DWord) (bad : Bool := false) : Dev × Option Nat :=
  match (d.meshBlocked path a w).orElse (fun _ => d.writeRefused path a w) with
  | some d' => (d', none)
  | none =>
  match d.memRead path a w bad with
  | (d1, none) => (d1, none)
  | (d1, some bs) =>
    let new := toBytes w (ofBytes bs + v.toNat)
    (if inHold a then (d1.countHold a w true).holdStore (decide (path = .mirror)) a new else d1.store a new, some (ofBytes bs))

end Sys2Proof.Machine
end

