-- ==== Sys2Proof/Machine/Desc.lean ====
section
/-! DEFINITION. Sys2Proof/Machine/Desc.lean: DMA descriptors (R218, R219), the descriptor engines (R121, R122) and their
instructions (R151). -/

namespace Sys2Proof.Machine

/-! ## Global addresses (R11, R131) -/

def gaAddr (a : Nat) : Nat := a % 2 ^ 48
def gaDev (a : Nat) : Nat := bitsAt a 48 12
/-- Does the address name this device? -/
def Dev.isLocal (d : Dev) (a : Nat) : Bool := bitsAt a 60 1 == 0 || gaDev a == d.ownDev

/-- A request for another device from yard `y`: it crosses the mesh to its port (R235); false: no route, a port that is down
(R376), or a failed router on the way (R261). -/
def Dev.remoteVia (d : Dev) (rset y dev lane addr : Nat) (q : RemReq) : Dev × Bool :=
  match d.portOf dev with
  | none => (d, false)
  | some n =>
    match d.wayBlocked rset y [68 + n] with
    | some d' => (d', false)
    | none => match d.remoteReq dev lane addr q with
      | some d' => (d', true)
      | none => (d, false)

/-- The yard whose router a path's requests for other devices enter at. -/
def Path.fromYard (p : Path) : Nat := p.yard.getD 0

/-! ## The layout (R218) -/

namespace DescRun
def word (r : DescRun) (i : Nat) : Nat := (r.w.getD i 0).toNat
def src (r : DescRun) : Nat := r.word 0 + r.word 1 * 2 ^ 32
def dst (r : DescRun) : Nat := r.word 2 + r.word 3 * 2 ^ 32
def rowBytes (r : DescRun) : Nat := bitsAt (r.word 4) 0 24
def lane (r : DescRun) : Nat := bitsAt (r.word 4) 24 2
def srcGal (r : DescRun) : Bool := bitsAt (r.word 4) 26 1 == 1
def dstGal (r : DescRun) : Bool := bitsAt (r.word 4) 27 1 == 1
def zero (r : DescRun) : Bool := bitsAt (r.word 4) 28 1 == 1
def rows (r : DescRun) : Nat := bitsAt (r.word 5) 0 16 + 1
def gal (r : DescRun) : Nat := bitsAt (r.word 5) 16 4
def srcStride (r : DescRun) : Nat := r.word 6
def dstStride (r : DescRun) : Nat := r.word 7
end DescRun

def descOf (bs : List Byte) : DescRun := ⟨(List.range 8).map (fun i => w32 (natAt bs (4 * i) 4)), 0, 0, [], none, false⟩

/-- The range of R24 that an address lies in: its end. -/
def rangeEnd (a : Nat) : Option Nat :=
  if a < holdTop then some holdTop
  else if caseLo ≤ a ∧ a < caseLo + 2 ^ 32 then some (caseLo + 2 ^ 32)
  else if storeLo ≤ a ∧ a < storeLo + 1536 * 0x80000 then some (storeLo + 1536 * 0x80000)
  else if ctlLo ≤ a ∧ a < ctlLo + 0x2000000 then some (ctlLo + 0x2000000)
  else none

def rowsFit (base stride rows n : Nat) : Bool :=
  (List.range rows).all (fun i =>
    match rangeEnd (gaAddr base + i * stride) with
    | some e => decide (gaAddr base + i * stride + n ≤ e)
    | none => true)

/-- The rules a descriptor can break whatever tile it names. -/
def descShape (r : DescRun) : Bool :=
  decide (0 < r.rowBytes) && r.rowBytes % 64 == 0 && r.lane != 0 && decide (r.word 4 < 2 ^ 29) && decide (r.word 5 < 2 ^ 20)
    && !(r.srcGal && r.dstGal)
    && (r.zero || (r.src % 64 == 0 && decide (r.src < 2 ^ 61))) && r.dst % 64 == 0 && decide (r.dst < 2 ^ 61)
    && (r.srcGal || r.zero || (r.srcStride % 64 == 0 && rowsFit r.src r.srcStride r.rows r.rowBytes))
    && (r.dstGal || (r.dstStride % 64 == 0 && rowsFit r.dst r.dstStride r.rows r.rowBytes))

/-- The tile whose store a galley side addresses. -/
def tileOfAddr (a : Nat) : Option Nat :=
  match placeOf (gaAddr a) 1 with
  | .store p => some p
  | _ => none

/-- A galley side lies on this device, in an initialised galley whose party on that side is the descriptor engine. -/
def Dev.descGalley (d : Dev) (r : DescRun) : Bool :=
  let side := fun (a : Nat) (consumer : Bool) =>
    d.isLocal a && (match tileOfAddr a with
      | some p => ((d.galley p r.gal).refuses consumer partyDesc).isNone
      | none => false)
  (!r.srcGal || r.zero || side r.src true) && (!r.dstGal || side r.dst false)

/-! ## Requests (R219) -/

/-- The tile and side of the descriptor's galley: true for a consumer. -/
def DescRun.galSide (r : DescRun) : Option (Nat × Bool) :=
  if r.srcGal && !r.zero then (tileOfAddr r.src).map (·, true)
  else if r.dstGal then (tileOfAddr r.dst).map (·, false) else none

/-- The next request of up to 256 B: a row on a galley side first takes its slot, and waits for the row before. -/
def Dev.descIssue (d : Dev) (r : DescRun) : Dev × DescRun :=
  if r.rows ≤ r.row then (d, r)
  else
    let n := min 256 (r.rowBytes - r.off)
    let go := fun (d : Dev) (r : DescRun) =>
      let last := r.off + n = r.rowBytes
      (d, { r with out := r.out ++ [(r.row, r.off, n)], row := if last then r.row + 1 else r.row, off := if last then 0 else r.off + n })
    match r.galSide with
    | none => go d r
    | some (p, consumer) =>
      if r.off ≠ 0 then go d r
      else if r.out ≠ [] then (d, r)
      else
        let x := d.galley p r.gal
        if d.frozen p then (d, r)
        else match (if consumer then x.acquire else x.reserve) with
        | some (a, y) => go (d.setGalley p r.gal y) { r with slotAt := some a }
        | none => (d.setGalley p r.gal (if consumer then { x with cstall := true } else { x with pstall := true }), r)

/-- Where a request reads or writes. -/
def DescRun.addrOf (r : DescRun) (gal : Bool) (base stride row off : Nat) : Nat :=
  if gal then
    match tileOfAddr base, r.slotAt with
    | some p, some a => tileBase p + a + off
    | _, _ => gaAddr base + off
  else base + row * stride + off

/-- A completed request: what became of the descriptor, or the side of the access error (0 source, 1 destination). -/
inductive DescOut where
  | same
  | ok (d : Dev) (r : DescRun)
  | err (d : Dev) (r : DescRun) (side : Nat)

/-- Data an answer from another device brings: as many bytes as asked. -/
def remoteBytes (r : Remote) (n : Nat) : Option (List Byte) :=
  match r with
  | .err => none
  | .data bs _ => some ((List.range n).map (fun i => bs.getD i 0))

/-- Does the answer carry the stale mark of R313? -/
def staleMark : Remote → Bool
  | .err => false
  | .data _ s => s

/-- After the last request of a galley row the slot is committed or released, unless a request failed or the tile has faulted (R183,
R190, R219). -/
def Dev.descRowEnd (d : Dev) (r : DescRun) : Dev :=
  match r.galSide with
  | some (p, consumer) =>
    if r.out = [] ∧ r.off = 0 ∧ !r.failed ∧ !d.frozen p then
      let x := d.galley p r.gal
      d.setGalley p r.gal ((if consumer then x.release else x.commit).getD x)
    else d
  | none => d

/-- The `k`-th outstanding request completes; on the local hold the answer `err` is the packages' failure (R210). -/
def Dev.descComplete (d : Dev) (path : Path) (r : DescRun) (k : Nat) (ans : Remote) : DescOut :=
  match r.out[k]? with
  | none => .same
  | some (row, off, n) =>
    let r' := { r with out := r.out.eraseIdx k }
    let bad := ans = Remote.err
    let sa := r.addrOf r.srcGal r.src r.srcStride row off
    let da := r.addrOf r.dstGal r.dst r.dstStride row off
    let rd : Dev × Option (List Byte) :=
      if r.zero then (d, some (List.replicate n 0))
      else if d.isLocal r.src then d.memRead path (gaAddr sa) n (bad && decide (gaAddr sa < holdTop))
      else match d.remoteVia 0 path.fromYard (gaDev r.src) r.lane (gaAddr sa) (.read n) with
        | (d', true) => (if staleMark ans then d'.markStale path else d', remoteBytes ans n)
        | (d', false) => (d', none)
    match rd with
    | (d1, none) => .err d1 { r' with failed := true } 0
    | (d1, some bs) =>
      if d1.isLocal r.dst then
        match d1.memWrite path (gaAddr da) bs (bad && decide (gaAddr da < holdTop) && (r.zero || decide (holdTop ≤ gaAddr sa) || !d.isLocal r.src)) with
        | (d2, true) => .ok (d2.descRowEnd r') r'
        | (d2, false) => .err d2 { r' with failed := true } 1
      else
        match d1.remoteVia 0 path.fromYard (gaDev r.dst) r.lane (gaAddr da) (.write bs) with
        | (d2, true) => if bad then .err d2 { r' with failed := true } 1 else .ok (d2.descRowEnd r') r'
        | (d2, false) => .err d2 { r' with failed := true } 1

def DescRun.finished (r : DescRun) : Bool := decide (r.rows ≤ r.row) && r.out == []

/-! ## The engines (R121, R122) -/

/-- An engine stops: its fault is recorded when none is, the rest of its queue goes, the notice is sent. SLOT counts the
posts modulo 16 (log entry 118). -/
def Dev.engineFault (d : Dev) (p e side entry : Nat) : Dev :=
  let r := Reg.tileCtDescFault p
  let d := if d.flag r F.tileCtDescFaultValid then d else d.setReg r (e + entry % 16 * 4 + side * 64 + 2 ^ 31)
  (d.setEngine p e ((d.tile p).engine e).halt).notice 1 side p

/-- DPOST: 32 bytes at sA join the engine's queue of 16 (R121, R218). -/
def execDpost (h : Iss) (a e : R5) : State → Host.Outcome State Fault Refusal :=
  tileInstr h (.dpost h a e) { cls := 0x13, fn := 0, legal := decide (e.val < 4), s := [a] } (fun d k _ =>
    let x := (d.tile h.slot).engine e
    if 16 ≤ x.q.length then .stall d
    else loadLocal d h (k.sreg a) 32 32 (fun d =>
      let r := descOf (d.bytes (tileBase h.slot + (k.sreg a).toNat) 32)
      if descShape r && d.descGalley r then .done (d.setEngine h.slot e { x with q := x.q ++ [r], posted := x.posted + 1 })
      else .done (d.engineFault h.slot e 2 x.posted)))

/-- DWAIT: until DONE − sA, modulo 2^32, is below 2^31 (R151). -/
def execDwait (h : Iss) (a e : R5) : State → Host.Outcome State Fault Refusal :=
  tileInstr h (.dwait h a e) { cls := 0x13, fn := 1, legal := decide (e.val < 4), s := [a] } (fun d k _ =>
    let done := w32 (d.reg (Reg.tileCtDescDone h.slot e))
    if (done - (k.sreg a).setWidth 32).toNat < 2 ^ 31 then .done d else .stall d)

/-- An engine's status: queue count, busy, stopped. -/
def Engine.status (e : Engine) : Nat := e.q.length + b2n (e.q.any (fun r => r.out ≠ [])) * 32 + b2n e.stopped * 64

/-- DSTAT (R151). -/
def execDstat (h : Iss) (d e : R5) : State → Host.Outcome State Fault Refusal :=
  tileInstr h (.dstat h d e) { cls := 0x13, fn := 2, legal := decide (e.val < 4), s := [d] } (fun dev _ _ =>
    .done (dev.putS h d (w64 ((dev.tile h.slot).engine e).status)))

/-- DESC_REQUEST_ISSUE: the next request of the descriptor at the queue's head, up to 64 outstanding (R121, R219). -/
def execDescRequestIssue (slot : Slot) (e : Fin 4) : State → Host.Outcome State Fault Refusal :=
  onDev (fun d =>
    let x := (d.tile slot).engine e
    match x.q with
    | [] => d
    | r :: rest =>
      if x.stopped || decide (64 ≤ r.out.length) then d
      else
        let o := d.descIssue r
        o.1.setEngine slot e { x with q := o.2 :: rest })

/-- DESC_REQUEST_COMPLETE: an outstanding request completes; the last one of a descriptor counts it done (R121, R219). -/
def execDescRequestComplete (slot : Slot) (e : Fin 4) (k : Nat) (r : Remote) : State → Host.Outcome State Fault Refusal :=
  onDev (fun d =>
    let x := (d.tile slot).engine e
    match x.q with
    | [] => d
    | run :: rest =>
      match d.descComplete (.desc slot) run k r with
      | .same => d
      | .ok d' run' =>
        if x.stopped then d'.setEngine slot e { x with q := if run'.out = [] then [] else [run'] }
        else if run'.finished then
          (d'.setEngine slot e { x with q := rest }).incFld (Reg.tileCtDescDone slot e) fld32 1
        else d'.setEngine slot e { x with q := run' :: rest }
      | .err d' run' side =>
        (d'.setEngine slot e { x with q := run' :: rest }).engineFault slot e side (x.posted - x.q.length))

end Sys2Proof.Machine
end

