-- ==== Sys2Proof/Machine/Flags.lean ====
section
/-! DEFINITION. Sys2Proof/Machine/Flags.lean: the flag computations: sticky bits of conversions (R91, R101, R111), the flags
a barrier arrival carries (R154, R249), predicates from compares (R139, R144). -/

namespace Sys2Proof.Machine

/-- Sets bit `i` of a register when `b`. -/
def Dev.orBit (d : Dev) (off i : Nat) (b : Bool) : Dev :=
  if b && d.reg off / 2 ^ i % 2 == 0 then d.setReg off (d.reg off + 2 ^ i) else d

/-- ENC_SAT and ENC_NONFINITE of the vector unit (R111). -/
def Dev.vecFlags (d : Dev) (p : Nat) (sat nf : Bool) : Dev := (d.orBit (Reg.tileVecSticky p) 0 sat).orBit (Reg.tileVecSticky p) 1 nf

/-- The sticky sources of R249 in order: 0 to 3 of TILE_MT_STICKY, 4 to 8 of TILE_VEC_STICKY, 9 and 10 of TILE_XCH_STICKY. -/
def Dev.stickySource (d : Dev) (p k : Nat) : Bool :=
  if k < 4 then (if slotIsMt p then d.reg (Reg.tileMtSticky p) / 2 ^ k % 2 == 1 else false)
  else if k < 9 then d.reg (Reg.tileVecSticky p) / 2 ^ (k - 4) % 2 == 1
  else if k < 11 then d.reg (Reg.tileXchSticky p) / 2 ^ (k - 9) % 2 == 1
  else false

/-- The sticky bits under the tile's flag map (R154, R249). -/
def Dev.mappedFlags (d : Dev) (p : Nat) : Word :=
  (List.range 11).foldl (fun acc k =>
    let m := bitsAt (d.reg (Reg.tileHalFlagmap p (k / 4))) (8 * (k % 4)) 8
    if m / 128 = 1 ∧ d.stickySource p k then acc ||| w32 (2 ^ (m % 32)) else acc) 0

/-- Bit 7 is reserved and reads 0 (R248). -/
def flagBits : Word := 0xFFFFFF7F#32

/-- What an arrival of the tile carries. -/
def Dev.contribution (d : Dev) (p : Nat) : Word := ((d.tile p).flags ||| d.mappedFlags p) &&& flagBits

/-- A Bool in all 128 bits of a predicate (R139). -/
def allBits (b : Bool) : Pred := if b then allOnes else 0

/-- The predicate whose bit i is `f i` in the guarded lanes and the old bit elsewhere (R128, R144). -/
def predOf (g old : Pred) (f : Nat → Bool) : Pred :=
  BitVec.ofNat 128 ((List.range 128).foldl (fun acc i => acc + if (if g.getLsbD i then f i else old.getLsbD i) then 2 ^ i else 0) 0)

/-- Flags of the arrivals of several members reduced: bits of mode 0 by OR, of mode 1 by AND (R248). `none` is no member. -/
def reduceFlags (acc : Option (Word × Word)) (orF andF : Word) : Option (Word × Word) :=
  match acc with
  | none => some (orF, andF)
  | some (o, a) => some (o ||| orF, a &&& andF)

/-- The value every member sees. -/
def reducedValue (mode : Word) : Option (Word × Word) → Word
  | none => 0
  | some (o, a) => ((o &&& ~~~ mode) ||| (a &&& mode)) &&& flagBits

/-! ## Arrivals (R152, R153) -/

def Core.hasArrived (k : Core) (b : Nat) : Bool := k.arrived.getLsbD b
def barBit (b : Nat) : Half := BitVec.ofNat 16 (2 ^ b)

def Tile.xhead (t : Tile) (ph : Nat) : BitVec 128 := t.phases.getD ph 0
def Dev.decBar (d : Dev) : Nat := d.fld Reg.halStepCfg F.halStepCfgDecBar

/-- The waits of an arrival: R153, R225, and R280 for a CT at the decision barrier. -/
def Dev.arrivalReady (d : Dev) (p b : Nat) : Bool :=
  let t := d.tile p
  t.mq == [] && t.sfu == [] && t.red == [] && t.qnt == []
    && [0, 1, 2, 3].all (fun c => (t.core c).stores == [] && (t.core c).loads.all (fun l => !l.atomic))
    && (t.xq ++ t.xcur.toList.map (·.phase)).all (fun ph => phClose (t.xhead ph) != b)
    && (!(slotIsCt p && b == d.decBar) || ((d.yard (p / 24)).recs == []
      && (List.range 16).all (fun w => d.fld (Reg.yardSqWave (p / 24) w) F.yardSqWavePosted
        == d.fld (Reg.yardSqWave (p / 24) w) F.yardSqWaveDone)))

/-- The tile arrives at `b` once every core that still runs has and every wait of its arrival is over, carrying its flag
contribution (R153, R154, R280). -/
def Dev.settleBar (d : Dev) (p b : Nat) : Dev :=
  let t := d.tile p
  let cs := [0, 1, 2, 3].map t.core
  if !t.arrived.getLsbD b && cs.any (fun k => k.hasArrived b) && cs.all (fun k => k.run == .halted || k.hasArrived b) && d.arrivalReady p b then
    d.modTile p (fun t => { t with arrived := t.arrived ||| barBit b,
                                   arrFlags := Sparse.set (fun _ => 0) t.arrFlags b (d.contribution p) })
  else d

def Dev.settle (d : Dev) (p : Nat) : Dev := (List.range 16).foldl (fun d b => d.settleBar p b) d

end Sys2Proof.Machine
end

