-- ==== Sys2Proof/Machine/Exchange.lean ====
section
/-! DEFINITION. Sys2Proof/Machine/Exchange.lean: the exchange engine of a tile: phases, credits, units (R224 to R233), the
exchange hand-off instructions (R155). -/

namespace Sys2Proof.Machine

/-! ## Entries of a running phase -/

def Tile.xentry (t : Tile) (idx : Nat) : BitVec 256 := t.entries.getD idx 0

/-- The active entry with index `idx`. -/
def Tile.active (t : Tile) (idx : Nat) : Option XEnt := t.xcur.bind (fun r => r.active.find? (fun e => e.idx == idx))

/-- The active entry of an operation and a tag. -/
def Tile.activeOp (t : Tile) (op tag : Nat) : Option XEnt :=
  t.xcur.bind (fun r => r.active.find? (fun e => xeOp (t.xentry e.idx) == op && xeTag (t.xentry e.idx) == tag))

def Tile.putEnt (t : Tile) (x : XEnt) : Tile :=
  { t with xcur := t.xcur.map (fun r => { r with active := r.active.map (fun e => if e.idx == x.idx then x else e) }) }

def Dev.putEnt (d : Dev) (p : Nat) (x : XEnt) : Dev := d.modTile p (fun t => t.putEnt x)

/-- The RSEND entries of a reduction may be many, so they are addressed together. -/
def Tile.mapActive (t : Tile) (f : BitVec 256 → XEnt → XEnt) : Tile :=
  { t with xcur := t.xcur.map (fun r => { r with active := r.active.map (fun e => f (t.xentry e.idx) e) }) }

/-! ## Credits (R231) -/

/-- Units the receiving entry has room for by now: those complete and its free slots, at most UNITS. -/
def Dev.allowed (d : Dev) (p : Nat) (e : BitVec 256) (done : Nat) : Nat :=
  min (xeUnits e) (done + if xeOp e == opRrecv && xeDstMem e then 8 else (d.galley p (xeGal e)).free)

/-- Has the reduction leaves on other devices: does a node of it here take a chunk from a link, or has it no leaf here? -/
def Dev.farLeaves (d : Dev) (rid : Nat) : Bool :=
  d.nodes.any (fun x => x.2.any (fun e => neRid e == rid && (decide (64 ≤ x.1) || (neInputs e).contains dirOut)))
    || !d.tiles.any (fun t => t.2.entries.any (fun e => xeOp e == opRsend && xeTag e == rid))

/-- A receiving entry grants its peer, or the leaves of its reduction, on other devices what it has not granted yet; the credits of
a reduction go to every leaf that another device holds. -/
def Dev.grantRemote (d : Dev) (p : Nat) (x : XEnt) : Dev :=
  let t := d.tile p
  let e := t.xentry x.idx
  let n := d.allowed p e x.done
  if n ≤ x.granted then d
  else if xeOp e == opRecv && xeRemote e then
    (d.sendCredit (xePeerDev e) (xePeer e) (xeTag e) (n - x.granted)).putEnt p { x with granted := n }
  else if xeOp e == opRrecv && d.farLeaves (xeTag e) then
    (d.send (.redCredit (d.logical p) (xeTag e) (n - x.granted))).putEnt p { x with granted := n }
  else d

/-! ## Starting, ending, abandoning (R230, R233) -/

/-- Starts entries in list order while fewer than 8 are active. -/
def Dev.startEntries (d : Dev) (p : Nat) : Nat → Dev
  | 0 => d
  | fuel + 1 =>
    match (d.tile p).xcur with
    | none => d
    | some r =>
      let hd := (d.tile p).xhead r.phase
      if r.active.length < 8 ∧ r.next < phCount hd then
        let x : XEnt := ⟨phFirst hd + r.next, 0, 0, 0, 0⟩
        let d := d.modTile p (fun t => { t with xcur := some { r with active := r.active ++ [x], next := r.next + 1 } })
        let op := xeOp ((d.tile p).xentry x.idx)
        (if op == opRecv || op == opRrecv then d.grantRemote p x else d).startEntries p fuel
      else d

/-- Complete entries leave, others start; a phase with none left is complete, and an arrival that waits for it may leave (R225). -/
def Dev.xAdvance (d : Dev) (p : Nat) : Dev :=
  let d := d.modTile p (fun t => { t with xcur := t.xcur.map (fun r => { r with
    active := r.active.filter (fun e => decide (e.done < xeUnits (t.xentry e.idx))) }) })
  let d := d.startEntries p 8
  match (d.tile p).xcur with
  | some r => if r.active = [] then (d.modTile p (fun t => { t with xcur := none })).settle p else d
  | none => d

/-- XCH_ERROR in the tile's flag contribution (R248). -/
def flagXch : Word := 0x40

/-- The engine abandons its phase and those behind it; the first cause is recorded (R233). -/
def Dev.abandon (d : Dev) (p kind ent : Nat) : Dev :=
  match (d.tile p).xcur with
  | none => d
  | some r =>
    let ph := phNum ((d.tile p).xhead r.phase)
    let reg := Reg.tileXchFault p
    let d := if d.flag reg F.tileXchFaultValid then d else d.setReg reg (kind + ent * 2 ^ 3 + ph * 2 ^ 12 + 2 ^ 31)
    (d.modTile p (fun t => { t with xcur := none, xq := [], flags := t.flags ||| flagXch, xaband := true })).settle p

/-- As `abandon`, when the entry is active. -/
def Dev.abandonEnt (d : Dev) (p kind ent : Nat) : Dev := if ((d.tile p).active ent).isSome then d.abandon p kind ent else d

/-- The engine stops with a program fault of the tile: an unreadable word of the store (R169) or a galley fault (R176, R188).
The fault names the hand-off class and core 0 (log entry 40). -/
def Dev.xStop (d : Dev) (p : Nat) : Dev := d.modTile p (fun t => { t with xcur := none, xq := [], xaband := true })

def Dev.xGalleyFault (d : Dev) (p g kind : Nat) (consumer : Bool) : Dev :=
  (d.xStop p).galleyFault p 0 0x15 0 (d.core p 0).pc g kind consumer 0

/-! ## Units -/

/-- Packets a unit fills. -/
def packetsOf (n : Nat) : Nat := (n + 255) / 256

/-- Tags of posted writes in the mesh lie above the pairing tags. -/
def writeTag : Nat := 0x10000

/-- What R233 calls the loss of a packet at a failed router: a posted write's request gets an access error, anything else is
discarded (R261). -/
def Pkt.lossKind (k : Pkt) : Nat := if writeTag ≤ k.tag then 3 else 4

/-- A packet enters the mesh at its sender's yard, or is there already; a failed router takes none (R261). -/
def Dev.inject (d : Dev) (y : Nat) (k : Pkt) : Dev :=
  if k.dest = y then { d with units := d.units ++ [⟨k.tile, k.tag, k.src, k.ent, k.body⟩] }
  else if d.routerFailed y then (d.satFld (Reg.yardRtrDrop y) fld32 (packetsOf k.body.length)).abandonEnt k.src k.lossKind k.ent
  else d.modYard y (fun s => { s with pkts := s.pkts ++ [k] })

/-- Where the packets of a write to `a` go (R235). -/
def Dev.writeDest (d : Dev) (a : Nat) : Nat :=
  if d.isLocal a then (meshDests (gaAddr a) 1).headD 0 else 68 + (d.portOf (gaDev a)).getD 0

/-- The quoin index of element `o` of unit `u` (R243). -/
def elemIndex (e : BitVec 256) (u o : Nat) : Word :=
  if xeCols e = 0 then w32 (xeIndex e + u * (xeUnitBytes e / 2) + o)
  else w32 (xeIndex e + (u * xeUrows e + o / xeCols e) * xeRowLen e + o % xeCols e)

def halvesOf (bs : List Byte) : List Half := (List.range (bs.length / 2)).map (fun i => BitVec.ofNat 16 (natAt bs (2 * i) 2))

/-- The chunks of unit `u` at the leaf's tile port (R241). -/
def Dev.chunksOf (d : Dev) (p rset u : Nat) (e : BitVec 256) (bs : List Byte) : List Chunk :=
  let dest := if xeRemote e then 68 + (d.portOf (xePeerDev e)).getD 0 else xePeer e / 23
  let dev := if xeRemote e then xePeerDev e else d.ownDev
  (List.range (bs.length / 256)).map (fun c =>
    ⟨.router (p / 24) (p % 24), rset, dest, BitVec.ofNat 12 dev, xePeer e, xeTag e % 1024, 0, u * (bs.length / 256) + c, xeRop e,
      xeRnd e, xeRfmt e, BitVec.ofNat 16 (xeTensor e), (List.range 128).map (fun l => elemIndex e u (128 * c + l)), false, false,
      halvesOf ((bs.drop (256 * c)).take 256)⟩)

/-- The source of the entry's next unit. -/
inductive Src where
  | got (bs : List Byte) (d : Dev)
  | wait (d : Dev)
  | gone (d : Dev)

/-- A slot whose size is not the entry's unit is a galley fault of kind 0x8 (log entry 106). -/
def Dev.unitSource (d : Dev) (p : Nat) (e : BitVec 256) (u : Nat) : Src :=
  let n := xeUnitBytes e
  let read := fun (d : Dev) (a : Nat) =>
    let r := d.readStore p a n 10
    if r.2 then .got (r.1.bytes (tileBase p + a) n) r.1
    else .gone ((r.1.xStop p).progFault p 0 0x15 0 (d.core p 0).pc 4 (w64 a))
  if xeSrcMem e then read d (xeLaddr e + u * n)
  else match d.hwTake p (xeGal e) partyExchange with
    | .got a d' =>
      if (d.galley p (xeGal e)).slotBytes ≠ n then .gone (d.xGalleyFault p (xeGal e) 8 true)
      else match read d' a with
        | .got bs d'' => .got bs (d''.hwDone p (xeGal e) true)
        | o => o
    | .wait d' => .wait d'
    | .bad kind => .gone (d.xGalleyFault p (xeGal e) kind true)

/-- A unit leaves: a SEND's and an RWRITE's in packets, an RSEND's in chunks (R230, R231, R241). -/
def Dev.sendFrom (d : Dev) (p : Nat) (rset : Nat) (x : XEnt) (e : BitVec 256) (bs : List Byte) : Dev :=
  let d := d.putEnt p { x with sent := x.sent + 1 }
  if xeOp e == opRsend then { d with chunks := d.chunks ++ d.chunksOf p rset x.sent e bs }
  else if xeOp e == opSend then
    let peerSlot := if xeRemote e then some (xePeer e) else d.slotOf (xePeer e)
    let dest := if xeRemote e then 68 + (d.portOf (xePeerDev e)).getD 0 else (peerSlot.getD 0) / 24
    d.inject (p / 24) ⟨0, rset, dest, BitVec.ofNat 12 (if xeRemote e then xePeerDev e else d.ownDev), peerSlot.getD 0, xeTag e, p, x.idx, bs⟩
  else
    let a := xeAddr e + x.sent * xeUnitBytes e
    d.inject (p / 24) ⟨0, rset, d.writeDest a, BitVec.ofNat 12 (if d.isLocal a then d.ownDev else gaDev a), p, writeTag + x.sent, p, x.idx, bs⟩

/-! ## Commands -/

/-- PHASE_START: the engine takes the next queued phase and starts its entries (R230). -/
def execPhaseStart (slot : Slot) : State → Host.Outcome State Fault Refusal :=
  onDev (fun d =>
    let t := d.tile slot
    match t.xcur, t.xq with
    | none, ph :: rest =>
      (d.modTile slot (fun t => { t with xq := rest, xcur := some ⟨ph, [], 0⟩, xlast := BitVec.ofNat 16 (phNum (t.xhead ph)) })).xAdvance slot
    | _, _ => d)

/-- EXCH_CREDIT_ARRIVE: `n` more credits reach a sending entry, as far as its receiver has granted them; a receiving entry
grants its remote peer what has come free (R231). -/
def execExchCreditArrive (slot : Slot) (e : Nat) (n : Nat) : State → Host.Outcome State Fault Refusal :=
  onDev (fun d =>
    let t := d.tile slot
    match t.active e with
    | none => d
    | some x =>
      let en := t.xentry e
      let give := fun top => d.putEnt slot { x with credits := max x.credits (min (x.credits + n) top) }
      let local_ := fun op =>
        match d.slotOf (xePeer en) with
        | none => d
        | some q =>
          match (d.tile q).activeOp op (xeTag en) with
          | none => d
          | some y => give (d.allowed q ((d.tile q).xentry y.idx) y.done)
      if xeOp en == opSend then (if xeRemote en then give (xeUnits en) else local_ opRecv)
      else if xeOp en == opRsend then (if xeRemote en then give (xeUnits en) else local_ opRrecv)
      else if xeOp en == opRecv || xeOp en == opRrecv then d.grantRemote slot x
      else d)

/-- EXCH_UNIT_SEND: an active sending entry that may, sends its next unit (R230, R231). -/
def execExchUnitSend (slot : Slot) (e : Nat) : State → Host.Outcome State Fault Refusal :=
  onDev (fun d =>
    let t := d.tile slot
    match t.active e, t.xcur with
    | some x, some r =>
      let en := t.xentry e
      let op := xeOp en
      let sends := op == opSend || op == opRsend || op == opRwrite
      if !sends || decide (xeUnits en ≤ x.sent) || (op != opRwrite && decide (x.credits ≤ x.sent)) then d
      else match d.unitSource slot en x.sent with
        | .got bs d' => d'.sendFrom slot (phRset (t.xhead r.phase)) x en bs
        | .wait d' => d'
        | .gone d' => d'
    | _, _ => d)

/-- One more unit of an entry is complete. -/
def Dev.unitDone (d : Dev) (p : Nat) (idx : Nat) : Dev :=
  match (d.tile p).active idx with
  | none => d
  | some x => (d.putEnt p { x with done := x.done + 1 }).xAdvance p

/-- The sender of a committed unit learns of it (R230). -/
def Dev.ackSender (d : Dev) (en : BitVec 256) (u : XUnit) : Dev :=
  if xeRemote en then d.send (.unitAck (BitVec.ofNat 12 (xePeerDev en)) (xePeer en) (xeTag en)) else d.unitDone u.src u.ent

/-- Every RSEND of a reduction whose root is this tile learns of a final sum. -/
def Dev.ackLeaves (d : Dev) (root tag : Nat) : Dev :=
  let d := d.send (.unitAck (BitVec.ofNat 12 d.ownDev) root tag)
  (d.tiles.map (·.1)).foldl (fun d p =>
    (d.modTile p (fun t => t.mapActive (fun e x =>
      if xeOp e == opRsend && !xeRemote e && xePeer e == root && xeTag e == tag && decide (x.done < x.sent)
      then { x with done := x.done + 1 } else x))).xAdvance p) d

/-- A unit goes into the entry's galley: false when nothing was committed. -/
def Dev.commitUnit (d : Dev) (p : Nat) (en : BitVec 256) (bs : List Byte) : Dev × Bool :=
  match d.hwPut p (xeGal en) partyExchange with
  | .wait d' => (d', false)
  | .bad kind => (d.xGalleyFault p (xeGal en) kind false, false)
  | .got a d' =>
    if (d.galley p (xeGal en)).slotBytes ≠ bs.length then (d.xGalleyFault p (xeGal en) 8 false, false)
    else if d.mayWrite p a bs.length ownExch then ((d'.store (tileBase p + a) bs).hwDone p (xeGal en) false, true)
    else (d'.xGalleyFault p (xeGal en) 7 false, false)

/-- Senders on other devices, among the slots of this one. -/
def farSrc (dev : Nat) : Nat := 4096 + dev

/-- The sender whose units an entry takes: the slot of its peer, or its peer's device. -/
def Dev.senderOf (d : Dev) (en : BitVec 256) : Nat := if xeRemote en then farSrc (xePeerDev en) else (d.slotOf (xePeer en)).getD 4095

/-- The pieces of a unit that wait for an entry, oldest first: the whole unit, and what stays (R232). -/
def takeUnit (slot tag src n : Nat) (us : List XUnit) : Option (XUnit × List XUnit) :=
  let mine := us.filter (fun u => u.slot == slot && u.tag == tag && u.src == src)
  let body := (mine.map (·.body)).flatten
  match mine with
  | [] => none
  | u :: _ =>
    if body.length < n then none
    else
      let others := us.filter (fun u => !(u.slot == slot && u.tag == tag && u.src == src))
      some ({ u with body := body.take n }, others ++ (if body.length = n then [] else [{ u with body := body.drop n }]))

/-- The chunks of a unit at the tile of its RRECV. -/
def unitChunks (slot rid per u : Nat) (cs : List Chunk) : List Chunk :=
  (List.range per).filterMap (fun i => cs.find? (fun c => c.pos == .tile slot && c.rid == rid && c.q == u * per + i))

/-- The unit of an RRECV: into its galley, or to ADDR as a write (R228, R232). -/
inductive Put where
  | ok (d : Dev)
  | not_ (d : Dev)
  | err (d : Dev)

/-- `way`: the route set of a write that still has the mesh to cross; none: its packet has crossed it. -/
def Dev.writeUnit (d : Dev) (p : Nat) (a lane : Nat) (way : Option Nat) (bs : List Byte) (ans : Remote) : Put :=
  let bad := ans == Remote.err
  match way.bind (fun rset => d.wayBlocked rset (p / 24) [d.writeDest a]) with
  | some d' => .err d'
  | none =>
  if d.isLocal a then
    match d.memWrite (.exch p) (gaAddr a) bs (bad && decide (gaAddr a < holdTop)) with
    | (d', true) => .ok d'
    | (d', false) => .err d'
  else match d.remoteReq (gaDev a) lane (gaAddr a) (.write bs) with
    | some d' => if bad then .err d' else .ok d'
    | none => .err d

/-- The oldest write of an RWRITE entry that has crossed the mesh is performed, of an abandoned entry too: a request already
issued completes (R233). -/
def Dev.commitWrite (d : Dev) (p e : Nat) (r : Remote) : Dev :=
  let en := (d.tile p).xentry e
  match d.units.find? (fun u => u.src == p && u.ent == e && decide (writeTag ≤ u.tag)) with
  | none => d
  | some u =>
    let d := { d with units := d.units.erase u }
    match d.writeUnit p (xeAddr en + (u.tag - writeTag) * xeUnitBytes en) (xeLane en) none u.body r with
    | .ok d' => d'.unitDone p e
    | .not_ d' => d'
    | .err d' => d'.abandonEnt p 3 e

/-- EXCH_UNIT_COMMIT: at a RECV or RRECV the next unit in order is committed; at an RWRITE its oldest write is performed; at
a sender with a remote peer, the peer's answer arrives (R230, R232, R244). -/
def execExchUnitCommit (slot : Slot) (e : Nat) (r : Remote) : State → Host.Outcome State Fault Refusal :=
  onDev (fun d =>
    let p := slot.val
    let t := d.tile p
    match t.active e with
    | none => d.commitWrite p e r
    | some x =>
      let en := t.xentry e
      let n := xeUnitBytes en
      if xeOp en == opRecv then
        match takeUnit p (xeTag en) (d.senderOf en) n d.units with
        | none => d
        | some (u, rest) =>
          match d.commitUnit p en u.body with
          | (d', true) => ({ d' with units := rest }.unitDone p e).ackSender en u
          | (d', false) => d'
      else if xeOp en == opRrecv then
        let rid := xeTag en % 1024
        let per := n / 256
        let cs := unitChunks p rid per x.done d.chunks
        if cs.length < per then d
        else
          let bs := (cs.map (fun c => (c.lanes.map (fun h => toBytes 2 h.toNat)).flatten)).flatten
          let put : Put :=
            if xeDstMem en then d.writeUnit p (xeAddr en + x.done * n) (xeLane en) (t.xcur.map (fun c => phRset (t.xhead c.phase))) bs r
            else match d.commitUnit p en bs with
              | (d', true) => .ok d'
              | (d', false) => .not_ d'
          match put with
          | .not_ d' => d'
          | .err d' => d'.abandon p 3 e
          | .ok d' =>
            let d' := { d' with chunks := d'.chunks.filter (fun c => !cs.contains c) }
            let d' := (d'.orBit (Reg.tileXchSticky p) 0 (cs.any (·.sat))).orBit (Reg.tileXchSticky p) 1 (cs.any (·.nf))
            (d'.unitDone p e).ackLeaves (d.logical p) (xeTag en)
      else if xeOp en == opRwrite then d.commitWrite p e r
      else if xeRemote en && decide (x.done < x.sent) then
        (if r == Remote.err then d.abandon p 3 e else d.unitDone p e)
      else d)

/-- PHASE_LIMIT: the running phase's limit passes (R233). -/
def execPhaseLimit (slot : Slot) : State → Host.Outcome State Fault Refusal :=
  onDev (fun d =>
    match (d.tile slot).xcur with
    | none => d
    | some r => d.abandon slot 1 (match r.active.head? with | some e => e.idx | none => phFirst ((d.tile slot).xhead r.phase)))

/-! ## Hand-off instructions (R155) -/

/-- XGO: queues phase sA[15:0]; a phase the imposition does not hold is an exchange fault, cause 0x9. -/
def execXgo (h : Iss) (a : R5) : State → Host.Outcome State Fault Refusal :=
  tileInstr h (.xgo h a) { cls := 0x15, fn := 0, s := [a] } (fun d k _ =>
    let t := d.tile h.slot
    let n := (k.sreg a).toNat % 2 ^ 16
    match (List.range t.phases.length).find? (fun i => phNum (t.xhead i) == n) with
    | none => .fault d 9 0
    | some i => if 2 ≤ t.xq.length then .stall d else .done (d.modTile h.slot (fun t => { t with xq := t.xq ++ [i], xposted := t.xposted + 1 })))

/-- Phases the tile has queued or runs. -/
def Tile.xIdle (t : Tile) : Bool := t.xcur.isNone && t.xq == []

/-- How many of the phases that xgo has queued are over. -/
def Tile.xFinished (t : Tile) : Nat := t.xposted - (t.xq.length + b2n t.xcur.isSome)

/-- XWAIT: until every phase that was queued when it issued is over (R155). -/
def execXwait (h : Iss) : State → Host.Outcome State Fault Refusal :=
  tileInstr h (.xwait h) { cls := 0x15, fn := 1 } (fun d k _ =>
    let n := k.xwaits.getD (d.tile h.slot).xposted
    let mark := fun (d : Dev) (x : Option Nat) => d.modCore h.slot h.core (fun k => { k with xwaits := x })
    if n ≤ (d.tile h.slot).xFinished then .done (mark d none) else .stall (mark d (some n)))

/-- XSTAT. -/
def execXstat (h : Iss) (d : R5) : State → Host.Outcome State Fault Refusal :=
  tileInstr h (.xstat h d) { cls := 0x15, fn := 2, s := [d] } (fun dev _ _ =>
    let t := dev.tile h.slot
    .done (dev.putS h d (w64 (b2n t.xcur.isSome + t.xq.length * 2 + t.xlast.toNat * 2 ^ 16))))

end Sys2Proof.Machine
end

