-- ==== Sys2Proof/Machine/Vector.lean ====
section
/-! DEFINITION. Sys2Proof/Machine/Vector.lean: lane arithmetic, compares and moves, conversions and vquoin (R108 to R111,
R143 to R145). -/

namespace Sys2Proof.Machine
open Sys2Proof.Num

/-! ## Lane formats (R143) -/

/-- LF: 0 BF16, 1 binary16, 2 U16, 3 FP32 wide. -/
def laneFmt (lf : Nat) : FloatFmt := if lf = 0 then bf16 else if lf = 1 then binary16 else fp32
def isWide (lf : Nat) : Bool := lf == 3
def evenFor (lf : Fin 4) (rs : List R5) : Bool := !isWide lf || rs.all isEven
def regsFor (lf : Fin 4) (rs : List R5) : List R5 := if isWide lf then rs ++ rs.map (· + 1) else rs

/-- Lane i of a register in the lane format: 32 bits of a pair, else 16. -/
def Core.laneOf (k : Core) (lf : Nat) (r : R5) (i : Nat) : Nat :=
  if isWide lf then (k.wide r i).toNat else (lane (k.vreg r) i).toNat

def Core.putLf (k : Core) (lf : Nat) (g : Pred) (r : R5) (f : Nat → Nat) : Core :=
  if isWide lf then k.putWide g r f else k.putLanes g r f

/-- The conversions of the guarded lanes, written, with their outcomes ORed into TILE_VEC_STICKY (R109, R111). -/
def Dev.putConv (d : Dev) (h : Iss) (lf : Nat) (g : Pred) (r : R5) (f : Nat → Conv) : Dev :=
  let cs := (List.range 128).map f
  let on := (List.range 128).filter (fun i => g.getLsbD i)
  let sat := on.any (fun i => (cs.getD i ⟨0, false, false⟩).sat)
  let nf := on.any (fun i => (cs.getD i ⟨0, false, false⟩).nf)
  (d.modCore h.slot h.core (fun k => k.putLf lf g r (fun i => (cs.getD i ⟨0, false, false⟩).code))).vecFlags h.slot sat nf

/-! ## Arithmetic (R143) -/

/-- The high word: required for SR, where it names an even pair in [4:0]; else absent or 0. -/
def arithHigh (rnd : Nat) (hi : Option Word) : Bool :=
  match hi with
  | none => rnd != 1
  | some w => if rnd = 1 then decide (w.toNat < 32) && w.toNat % 2 == 0 else w == 0

def highU (hi : Option Word) : R5 := match hi with | some w => Fin.ofNat 32 w.toNat | none => 0

/-- The rounding of lane i: SR takes u from the pair U. -/
def laneRnd (k : Core) (rnd : Nat) (u : R5) (i : Nat) : Rnd := (rndOf rnd (k.wide u i).toNat).getD .rne

/-- One instruction of class 0x08: `f` on values, `n` on U16 lanes (its low 16 bits are kept). -/
def vectorArith (h : Iss) (i : Instr) (op : Nat) (d a b : R5) (lf rnd : Fin 4) (hi : Option Word) (u16Legal : Bool)
    (f : NV → NV → NV → NV) (n : Nat → Nat → Nat → Nat) : State → Host.Outcome State Fault Refusal :=
  let u := highU hi
  tileInstr h i
    { cls := 0x08, fn := op + 8 * lf + 32 * rnd, long := hi.isSome,
      legal := decide (rnd ≠ 3) && evenFor lf [d, a, b] && (u16Legal || decide (lf ≠ 2)) && arithHigh rnd hi,
      v := regsFor lf [d, a, b] ++ (if rnd = 1 then [u, u + 1] else []) }
    (fun dev k g => .done (dev.putConv h lf g d (fun i =>
      let x := k.laneOf lf a i
      let y := k.laneOf lf b i
      let z := k.laneOf lf d i
      if lf = 2 then ⟨n x y z % 2 ^ 16, false, false⟩
      else
        let m := laneFmt lf
        m.conv (laneRnd k rnd u i) (f (m.dec x) (m.dec y) (m.dec z)))))

/-- VADD (R109, R143). -/
def execVadd (h : Iss) (d a b : R5) (lf rnd : Fin 4) (hi : Option Word) : State → Host.Outcome State Fault Refusal :=
  vectorArith h (.vadd h d a b lf rnd hi) 0 d a b lf rnd hi true (fun x y _ => x.add y) (fun x y _ => x + y)

/-- VSUB (R109, R143). -/
def execVsub (h : Iss) (d a b : R5) (lf rnd : Fin 4) (hi : Option Word) : State → Host.Outcome State Fault Refusal :=
  vectorArith h (.vsub h d a b lf rnd hi) 1 d a b lf rnd hi true (fun x y _ => x.sub y) (fun x y _ => x + 2 ^ 16 - y)

/-- VMUL (R109, R143). -/
def execVmul (h : Iss) (d a b : R5) (lf rnd : Fin 4) (hi : Option Word) : State → Host.Outcome State Fault Refusal :=
  vectorArith h (.vmul h d a b lf rnd hi) 2 d a b lf rnd hi true (fun x y _ => x.mul y) (fun x y _ => x * y)

/-- VFMA: vD = vA × vB + vD, rounded once (R109, R143). -/
def execVfma (h : Iss) (d a b : R5) (lf rnd : Fin 4) (hi : Option Word) : State → Host.Outcome State Fault Refusal :=
  vectorArith h (.vfma h d a b lf rnd hi) 3 d a b lf rnd hi true (fun x y z => (x.mul y).add z) (fun x y z => x * y + z)

/-- VMIN (R109, R143). -/
def execVmin (h : Iss) (d a b : R5) (lf rnd : Fin 4) (hi : Option Word) : State → Host.Outcome State Fault Refusal :=
  vectorArith h (.vmin h d a b lf rnd hi) 4 d a b lf rnd hi true (fun x y _ => x.vmin y) (fun x y _ => min x y)

/-- VMAX (R109, R143). -/
def execVmax (h : Iss) (d a b : R5) (lf rnd : Fin 4) (hi : Option Word) : State → Host.Outcome State Fault Refusal :=
  vectorArith h (.vmax h d a b lf rnd hi) 5 d a b lf rnd hi true (fun x y _ => x.vmax y) (fun x y _ => max x y)

/-- VABS; B is 0 (R143). -/
def execVabs (h : Iss) (d a : R5) (lf rnd : Fin 4) (hi : Option Word) : State → Host.Outcome State Fault Refusal :=
  vectorArith h (.vabs h d a lf rnd hi) 6 d a 0 lf rnd hi false (fun x _ _ => x.abs) (fun x _ _ => x)

/-- VNEG; B is 0 (R143). -/
def execVneg (h : Iss) (d a : R5) (lf rnd : Fin 4) (hi : Option Word) : State → Host.Outcome State Fault Refusal :=
  vectorArith h (.vneg h d a lf rnd hi) 7 d a 0 lf rnd hi false (fun x _ _ => x.neg) (fun x _ _ => x)

/-! ## Compares and moves (R144) -/

/-- p(D) bit i = vA lane i op vB lane i. -/
def vectorCompare (h : Iss) (i : Instr) (op : Nat) (d a b : R5) (lf : Fin 4) (f : NV → NV → Bool) (n : Nat → Nat → Bool) : State → Host.Outcome State Fault Refusal :=
  tileInstr h i { cls := 0x09, fn := op + 32 * lf, legal := isP d && evenFor lf [a, b], v := regsFor lf [a, b] }
    (fun dev k g => .done (dev.putP h d (predOf g (k.preg d) (fun i =>
      let x := k.laneOf lf a i
      let y := k.laneOf lf b i
      if lf = 2 then n x y else f ((laneFmt lf).dec x) ((laneFmt lf).dec y)))))

/-- VCMPEQ (R144). -/
def execVcmpeq (h : Iss) (d a b : R5) (lf : Fin 4) : State → Host.Outcome State Fault Refusal :=
  vectorCompare h (.vcmpeq h d a b lf) 0 d a b lf (fun x y => x.eqv y) (fun x y => x == y)

/-- VCMPNE (R144). -/
def execVcmpne (h : Iss) (d a b : R5) (lf : Fin 4) : State → Host.Outcome State Fault Refusal :=
  vectorCompare h (.vcmpne h d a b lf) 1 d a b lf (fun x y => !x.eqv y) (fun x y => x != y)

/-- VCMPLT (R144). -/
def execVcmplt (h : Iss) (d a b : R5) (lf : Fin 4) : State → Host.Outcome State Fault Refusal :=
  vectorCompare h (.vcmplt h d a b lf) 2 d a b lf (fun x y => x.lt y) (fun x y => decide (x < y))

/-- VCMPLE (R144). -/
def execVcmple (h : Iss) (d a b : R5) (lf : Fin 4) : State → Host.Outcome State Fault Refusal :=
  vectorCompare h (.vcmple h d a b lf) 3 d a b lf (fun x y => x.le y) (fun x y => decide (x ≤ y))

/-- VCMPUN (R144). -/
def execVcmpun (h : Iss) (d a b : R5) (lf : Fin 4) : State → Host.Outcome State Fault Refusal :=
  vectorCompare h (.vcmpun h d a b lf) 4 d a b lf (fun x y => x.isNan || y.isNan) (fun _ _ => false)

/-- VSEL: every lane, the guard is the selector (R128, R144). -/
def execVsel (h : Iss) (d a b : R5) (lf : Fin 4) : State → Host.Outcome State Fault Refusal :=
  tileInstr h (.vsel h d a b lf) { cls := 0x09, fn := 5 + 32 * lf, sel := true, legal := evenFor lf [d, a, b], v := regsFor lf [d, a, b] }
    (fun dev k g => .done (dev.modCore h.slot h.core (fun k' => k'.putLf lf allOnes d (fun i =>
      if g.getLsbD i then k.laneOf lf a i else k.laneOf lf b i))))

/-- VMOV (R144). -/
def execVmov (h : Iss) (d a : R5) (lf : Fin 4) : State → Host.Outcome State Fault Refusal :=
  tileInstr h (.vmov h d a lf) { cls := 0x09, fn := 6 + 32 * lf, legal := evenFor lf [d, a], v := regsFor lf [d, a] }
    (fun dev k g => .done (dev.modCore h.slot h.core (fun k' => k'.putLf lf g d (k.laneOf lf a))))

/-- VBCAST: low 16 bits of sA, or low 32 in the wide form (R144). -/
def execVbcast (h : Iss) (d a : R5) (lf : Fin 4) : State → Host.Outcome State Fault Refusal :=
  tileInstr h (.vbcast h d a lf) { cls := 0x09, fn := 7 + 32 * lf, legal := evenFor lf [d], s := [a], v := regsFor lf [d] }
    (fun dev k g => .done (dev.modCore h.slot h.core (fun k' => k'.putLf lf g d (fun _ =>
      (k.sreg a).toNat % (if isWide lf then 2 ^ 32 else 2 ^ 16)))))

/-- VEXT: sD = lane sB[6:0] of vA, of the pair in the wide form; it acts where the guard enables that lane (R128, R144; log
entry 21). -/
def execVext (h : Iss) (d a b : R5) (lf : Fin 4) : State → Host.Outcome State Fault Refusal :=
  tileInstr h (.vext h d a b lf) { cls := 0x09, fn := 8 + 32 * lf, legal := evenFor lf [a], s := [d, b], v := regsFor lf [a] }
    (fun dev k g =>
      let l := (k.sreg b).toNat % 128
      .done (if g.getLsbD l then dev.putS h d (w64 (k.laneOf lf a l)) else dev))

/-- VINS: lane sB[6:0] of vD, of the pair in the wide form, = low 16 bits of sA (R144; log entry 21). -/
def execVins (h : Iss) (d a b : R5) (lf : Fin 4) : State → Host.Outcome State Fault Refusal :=
  tileInstr h (.vins h d a b lf) { cls := 0x09, fn := 9 + 32 * lf, legal := evenFor lf [d], s := [a, b], v := regsFor lf [d] }
    (fun dev k g =>
      let l := (k.sreg b).toNat % 128
      .done (dev.modCore h.slot h.core (fun k' => k'.putLf lf g d (fun i =>
        if i = l then (k.sreg a).toNat % 2 ^ 16 else k.laneOf lf d i))))

/-- VIDX: lane i of the pair vD = sA[31:0] + i; LF must be 0b11 (R144). -/
def execVidx (h : Iss) (d a : R5) (lf : Fin 4) : State → Host.Outcome State Fault Refusal :=
  tileInstr h (.vidx h d a lf) { cls := 0x09, fn := 10 + 32 * lf, legal := isWide lf && isEven d, s := [a], v := regsFor lf [d] }
    (fun dev k g => .done (dev.modCore h.slot h.core (fun k' => k'.putWide g d (fun i => ((k.sreg a).toNat + i) % 2 ^ 32))))

/-! ## Conversion and vquoin (R145) -/

/-- A finite magnitude rounded to an integer code of `w` bits, clamped without a flag (R53, R54). -/
def intConv (r : Rnd) (w : Nat) : NV → Conv
  | .nan => ⟨0, false, true⟩
  | .inf n => ⟨if n then 0 else 2 ^ w - 1, false, true⟩
  | .fin d =>
    let sh := (-d.exp).toNat
    let lo := if 0 ≤ d.exp then d.man * 2 ^ d.exp.toNat else d.man / 2 ^ sh
    let rem := if 0 ≤ d.exp then 0 else d.man % 2 ^ sh
    let up : Bool := match r with
      | .rne => decide (2 * rem > 2 ^ sh) || (decide (2 * rem = 2 ^ sh) && lo % 2 == 1)
      | .sr u => decide (rem * 2 ^ 32 / 2 ^ sh + u ≥ 2 ^ 32)
      | .rz => false
      | .away => decide (rem ≠ 0)
    ⟨if d.neg then 0 else min (2 ^ w - 1) (lo + b2n up), false, false⟩

/-- The value of an element of a lane format code (R46). -/
def fmtDec (c bits : Nat) : NV :=
  match fmtOf c with
  | some (.int w) => ofNat (bits % 2 ^ w)
  | some (.flt f) => f.dec (bits % 2 ^ f.width)
  | _ => ofNat bits

def fmtConv (c : Nat) (r : Rnd) (v : NV) : Conv :=
  match fmtOf c with
  | some (.int w) => intConv r w v
  | some (.flt f) => f.conv r v
  | _ => ⟨0, false, false⟩

/-- VCVT: high word FROM[3:0], TO[7:4], RND[9:8], U[14:10]; code 7 names a pair (R145). U is read for SR only: with another RND
it may hold anything (DESIGN CHOICE, log entry 103). -/
def execVcvt (h : Iss) (d a : R5) (hi : Word) : State → Host.Outcome State Fault Refusal :=
  let w := hi.toNat
  let fr := w % 16
  let tf := w / 16 % 16
  let rnd := w / 256 % 4
  let u : R5 := Fin.ofNat 32 (w / 1024)
  let lf := fun c : Nat => if c = 7 then (3 : Fin 4) else 0
  tileInstr h (.vcvt h d a hi)
    { cls := 0x0A, fn := 0, long := true,
      legal := decide (w < 2 ^ 15) && decide (fr ≤ 7) && decide (tf ≤ 7) && decide (rnd ≠ 3) && evenFor (lf fr) [a] && evenFor (lf tf) [d]
        && (rnd != 1 || isEven u),
      v := regsFor (lf fr) [a] ++ regsFor (lf tf) [d] ++ (if rnd = 1 then [u, u + 1] else []) }
    (fun dev k g => .done (dev.putConv h (lf tf) g d (fun i => fmtConv tf (laneRnd k rnd u i) (fmtDec fr (k.laneOf (lf fr) a i)))))

/-- The job seed. -/
def Dev.seed (d : Dev) : DWord := w64 (d.reg64 Reg.devSeedLo Reg.devSeedHi)

/-- VQUOIN: the pair vD takes the quoin output of each lane's index in the pair vA; POINT must be a raw-draw point (R57,
R59, R145). -/
def execVquoin (h : Iss) (d a : R5) (hi : Word) : State → Host.Outcome State Fault Refusal :=
  let point := hi.toNat % 2 ^ 16
  let tensor := hi.toNat / 2 ^ 16
  tileInstr h (.vquoin h d a hi)
    { cls := 0x0A, fn := 1, long := true, legal := isEven d && isEven a, v := [d, d + 1, a, a + 1] }
    (fun dev k g =>
      if point < 0x200 ∨ 0x2FF < point then .fault dev 8 0
      else .done (dev.modCore h.slot h.core (fun k' => k'.putWide g d (fun i =>
        (quoin dev.seed (dev.tile h.slot).step (BitVec.ofNat 16 point) (BitVec.ofNat 16 tensor) (k.wide a i)).toNat))))

end Sys2Proof.Machine
end

