-- ==== Sys2Proof/Machine/Fabric.lean ====
section
/-! DEFINITION. Sys2Proof/Machine/Fabric.lean: packets in mesh routers (R234 to R236, R261), reduction nodes in routers and ports
(R240 to R245, R364, R365). -/

namespace Sys2Proof.Machine
open Sys2Proof.Num

/-! ## Packets -/

/-- The list without the k-th of its elements that satisfy `p`. -/
def eraseNth {α : Type} (p : α → Bool) : Nat → List α → List α
  | _, [] => []
  | k, x :: xs => if p x then (match k with | 0 => xs | j + 1 => x :: eraseNth p j xs) else x :: eraseNth p k xs

/-- Packets that must keep their order (R236). -/
def Pkt.sameFlow (a b : Pkt) : Bool := a.src == b.src && a.rset == b.rset && a.dest == b.dest && a.vc == b.vc

/-- A packet is where it goes: at its yard or controller it waits there; at a port it leaves, a posted write waiting for its
answer (R230, R235). A unit that has no route is discarded (R362). -/
def Dev.deliver (d : Dev) (k : Pkt) : Dev :=
  if k.dest < 68 ∨ writeTag ≤ k.tag then { d with units := d.units ++ [⟨k.tile, k.tag, k.src, k.ent, k.body⟩] }
  else
    match d.livePort k.dev.toNat with
    | some n => d.sendUnit n (xeLane ((d.tile k.src).xentry k.ent)) k.dev.toNat k.tile k.tag k.body
    | none => d.abandonEnt k.src 4 k.ent

/-- Packets the router forwards (R261's counters). -/
def Dev.forwarded (d : Dev) (y n : Nat) : Dev := d.inc64 (Reg.yardRtrFlitsLo y) (Reg.yardRtrFlitsHi y) n

/-- The k-th packet of a virtual channel crosses router `y`: into the next router, out at its attachment, or, routed into a failed
router, away (R235, R236, R261). -/
def Dev.hop (d : Dev) (y : Nat) (vc : Fin 3) (k : Nat) : Dev :=
  let ps := (d.yard y).pkts.filter (fun p => p.vc == vc)
  match ps[k]? with
  | none => d
  | some p =>
    if (ps.take k).any p.sameFlow || d.routerFailed y then d
    else
      let n := packetsOf p.body.length
      let d1 := d.modYard y (fun s => { s with pkts := eraseNth (fun q => q.vc == vc) k s.pkts })
      match d.routeOf p.rset y p.dest with
      | none => if destYard p.dest = y then (d1.forwarded y n).deliver p else d
      | some dir =>
        match neighbour y dir with
        | none => d
        | some y2 =>
          if d.routerFailed y2 then (d1.satFld (Reg.yardRtrDrop y) fld32 n).abandonEnt p.src p.lossKind p.ent
          else (d1.forwarded y n).modYard y2 (fun s => { s with pkts := s.pkts ++ [p] })

/-- The router that the packet goes into, where it leaves `y` on a mesh link. -/
def Dev.hopInto (d : Dev) (y : Nat) (vc : Fin 3) (k : Nat) : Option Nat :=
  match ((d.yard y).pkts.filter (fun p => p.vc == vc))[k]? with
  | none => none
  | some p => (d.routeOf p.rset y p.dest).bind (neighbour y)

/-- The fabric ports on the router of yard `y`. -/
def portsAt (y : Nat) : List Nat := (List.range 16).filter (fun n => portYards.getD n 64 == y)

/-! ## Reduction (R241 to R244) -/

/-- One combination, in RFMT (R242; MAX gives the larger magnitude itself, its sign 0: log entry 107): the value, whether it saturated, whether a value was non-finite. -/
def combine (d : Dev) (ord : Nat) (c : Chunk) (l : Nat) (a b : Half) : Half × Bool × Bool :=
  match fmtOf c.rfmt with
  | some (.flt f) =>
    let x := f.dec a.toNat
    let y := f.dec b.toNat
    if c.rop = 0 then
      let u := (quoin d.seed (w32 (d.reg Reg.halStep)) (BitVec.ofNat 16 (0x8000 + ord)) c.tensor (c.index.getD l 0)).toNat
      let r := f.conv ((rndOf c.rnd u).getD .rne) (x.add y)
      (BitVec.ofNat 16 r.code, r.sat, r.nf || !x.isFinite || !y.isFinite)
    else if c.rop = 1 then
      (if x.isFinite && (!y.isFinite || !(x.abs.lt y.abs)) then a &&& 0x7FFF else if y.isFinite then b &&& 0x7FFF else 0, false,
        !x.isFinite || !y.isFinite)
    else (a ||| b, false, false)
  | _ => (a ||| b, false, false)

/-- Two chunks combined, with this node's own saturation and non-finite events; the header's marks go on (R244). -/
def combineChunks (d : Dev) (ord : Nat) (a : Chunk × Bool × Bool) (x : Chunk) : Chunk × Bool × Bool :=
  let acc := a.1
  let r := (List.range 128).map (fun l => combine d ord acc l (acc.lanes.getD l 0) (x.lanes.getD l 0))
  let sat := r.any (·.2.1)
  let nf := r.any (·.2.2)
  ({ acc with lanes := r.map (·.1), sat := acc.sat || x.sat || sat, nf := acc.nf || x.nf || nf, ord := ord }, a.2.1 || sat, a.2.2 || nf)

/-- Nodes: routers 0 to 63, ports 64 to 79. -/
def Dev.nodesOf (d : Dev) (node : Nat) : List (BitVec 128) := Sparse.get (fun _ => []) d.nodes node

/-- Where a chunk stands: its node and input. -/
def chunkNode (c : Chunk) : Option (Nat × Nat) :=
  match c.pos with
  | .router y i => some (y, i)
  | .port n i => some (64 + n, i)
  | .tile _ => none

/-- A chunk leaves a router at an output of R240: to a neighbour, to the port on its attachment, or to a tile. A failed
router discards it, and every leaf of its reduction abandons its phase (R233, R261). -/
def Dev.chunkOut (d : Dev) (y out : Nat) (c : Chunk) : Dev :=
  if out < 24 then { d with chunks := d.chunks ++ [{ c with pos := .tile (24 * y + out) }] }
  else if out = dirOut then
    { d with chunks := d.chunks ++ [{ c with pos := .port (if 68 ≤ c.dest then c.dest - 68 else (portsAt y).headD 0) 1 }] }
  else
    match neighbour y out with
    | none => { d with chunks := d.chunks ++ [c] }
    | some y2 =>
      if d.routerFailed y2 then
        let d := d.satFld (Reg.yardRtrDrop y) fld32 1
        (d.tiles.map (·.1)).foldl (fun d p =>
          match (d.tile p).activeOp opRsend c.rid with
          | some x => d.abandon p 4 x.idx
          | none => d) d
      else { d with chunks := d.chunks ++ [{ c with pos := .router y2 (opposite out) }] }

/-- A chunk that no node of the router holds goes on along its route set. -/
def Dev.chunkPass (d : Dev) (y : Nat) (c : Chunk) : Dev :=
  let d1 := d.forwarded y 1
  match d.routeOf c.rset y c.dest with
  | some dir => d1.chunkOut y dir c
  | none =>
    if destYard c.dest ≠ y then { d with chunks := d.chunks ++ [c] }
    else if 68 ≤ c.dest then d1.chunkOut y dirOut c else d1.chunkOut y ((d.slotOf c.tile).getD 0 % 24) c

/-- A chunk leaves a port: out on the link, or into the mesh (R364). -/
def Dev.portOut (d : Dev) (n out : Nat) (c : Chunk) : Dev :=
  if out = 1 then
    match d.livePort c.dev.toNat with
    | some _ => d.sendChunk n c
    | none => d
  else { d with chunks := d.chunks ++ [{ c with pos := .router (portYards.getD n 0) dirOut }] }

/-- Chunks that take one way keep their order (R236). -/
def Chunk.sameFlow (a b : Chunk) : Bool := a.pos == b.pos && a.rid == b.rid && a.rset == b.rset && a.dest == b.dest && a.tile == b.tile

/-- REDUCTION_CHUNK_ARRIVE: the k-th chunk of the fabric arrives at its node: it waits there for its partners, completes
them, or passes; none overtakes an earlier one of its flow (R236, R241, R364). -/
def execReductionChunkArrive (k : Nat) : State → Host.Outcome State Fault Refusal :=
  onDev (fun d =>
    match d.chunks[k]? with
    | none => d
    | some c =>
      if (d.chunks.take k).any c.sameFlow || (match c.pos with | .router y _ => d.routerFailed y | _ => false) then d else
      match chunkNode c with
      | none => d
      | some (node, input) =>
        let es := d.nodesOf node
        let d1 := { d with chunks := d.chunks.eraseIdx k }
        match (List.range es.length).find? (fun i => neRid (es.getD i 0) == c.rid && (neInputs (es.getD i 0)).contains input) with
        | none => if node < 64 then d1.chunkPass node c else d1.portOut (node - 64) (if input = 1 then 1 else 0) c
        | some i =>
          let e := es.getD i 0
          let mine := d1.bufs.filter (fun b => b.node == node && b.ent == i && b.c.q == c.q)
          let at_ := fun k => if k = input then some c else (mine.find? (fun b => b.k == k)).map (·.c)
          let all := (neInputs e).filterMap at_
          if all.length < (neInputs e).length then
            if neF e 2 20 8 ≤ (d1.bufs.filter (fun b => b.node == node && b.ent == i)).length then d
            else { d1 with bufs := d1.bufs ++ [⟨node, i, input, c⟩] }
          else
            match all with
            | [] => d
            | a :: rest =>
              let all_ := rest.foldl (combineChunks d (neOrd e)) (a, false, false)
              let out := all_.1
              let sat := all_.2.1
              let nf := all_.2.2
              let d2 := { d1 with bufs := d1.bufs.filter (fun b => !(b.node == node && b.ent == i && b.c.q == c.q)) }
              if node < 64 then
                let r := Reg.yardRtrRed node
                (((d2.satFld r F.yardRtrRedSat (b2n sat)).satFld r F.yardRtrRedNf (b2n nf)).forwarded node 1).chunkOut node (neOut e) out
              else
                let r := Reg.lnkRed (node - 64)
                ((d2.satFld r F.lnkRedSat (b2n sat)).satFld r F.lnkRedNf (b2n nf)).portOut (node - 64) (neOut e) out)

end Sys2Proof.Machine
end

