-- ==== Sys2Proof/Machine/Halyard.lean ====
section
/-! DEFINITION. Sys2Proof/Machine/Halyard.lean: the halyard instructions (R152 to R154), barriers and their release (R247 to
R252), broadcasts (R254), stall limit (R256), frames (R257). -/

namespace Sys2Proof.Machine

/-! ## Barriers -/

def Dev.barScope (d : Dev) (b : Nat) : Nat := bitsAt (d.reg Reg.halBarScope) (2 * b) 2
def Dev.relBar (d : Dev) : Nat := d.fld Reg.halStepCfg F.halStepCfgRelBar
def Dev.comBar (d : Dev) : Nat := d.fld Reg.halStepCfg F.halStepCfgCommitBar
def Dev.isMember (d : Dev) (p b : Nat) : Bool := d.reg (Reg.tileHalMember p) / 2 ^ b % 2 == 1

/-- Does the job span more devices than this one (R258)? -/
def Dev.multi (d : Dev) : Bool :=
  d.reg Reg.halJobBoard != 0 || d.fld Reg.halJobTree F.halJobTreeChildren != 0 || d.fld Reg.halJobTree F.halJobTreeParent != 0x1F

/-- May the tile arrive at `b` at all (R152, R247)? -/
def Dev.mayArrive (d : Dev) (p b : Nat) : Bool := d.barScope b != 0 && d.isMember p b

/-- The core's arrival. -/
def Dev.arrive (d : Dev) (h : Iss) (b : Nat) : Dev :=
  (d.modCore h.slot h.core (fun k =>
    { k with arrived := k.arrived ||| barBit b, released := k.released &&& ~~~ (barBit b) })).settle h.slot

/-- HBAR: arrives at barrier b with the flag contribution; a second arrival before the release stalls (R152 to R154). -/
def execHbar (h : Iss) (b : R5) : State → Host.Outcome State Fault Refusal :=
  tileInstr h (.hbar h b) { cls := 0x14, fn := 0, legal := decide (b.val < 16) } (fun d k _ =>
    if !d.mayArrive h.slot b then .fault d 7 0
    else if k.hasArrived b || !d.arrivalReady h.slot b then .stall d
    else .done (d.arrive h b))

/-- HWAIT: stalls until b releases, or returns at once if it has released since this core's last arrival; a core that has made
no arrival there waits for the next release (R152). -/
def execHwait (h : Iss) (b : R5) : State → Host.Outcome State Fault Refusal :=
  tileInstr h (.hwait h b) { cls := 0x14, fn := 1, legal := decide (b.val < 16) } (fun d k _ =>
    if k.released.getLsbD b || k.woken.getLsbD b then
      .done (d.modCore h.slot h.core (fun k => { k with woken := k.woken &&& ~~~ (barBit b) }))
    else .stall d)

/-- HSYNC: hbar, then hwait (R152). -/
def execHsync (h : Iss) (b : R5) : State → Host.Outcome State Fault Refusal :=
  tileInstr h (.hsync h b) { cls := 0x14, fn := 2, legal := decide (b.val < 16) } (fun d k _ =>
    let mark := fun (d : Dev) (m : Bool) => d.modCore h.slot h.core (fun k => { k with synced := m })
    if k.synced then (if k.hasArrived b then .stall d else .done (mark d false))
    else if !d.mayArrive h.slot b then .fault d 7 0
    else if k.hasArrived b || !d.arrivalReady h.slot b then .stall d
    else .stall (mark (d.arrive h b) true))

/-- HFLAG_SET (R152). -/
def execHflagSet (h : Iss) (a : R5) : State → Host.Outcome State Fault Refusal :=
  tileInstr h (.hflagSet h a) { cls := 0x14, fn := 3, s := [a] } (fun d k _ =>
    .done (d.modTile h.slot (fun t => { t with flags := t.flags ||| (k.sreg a).setWidth 32 })))

/-- HFLAG_CLR (R152). -/
def execHflagClr (h : Iss) (a : R5) : State → Host.Outcome State Fault Refusal :=
  tileInstr h (.hflagClr h a) { cls := 0x14, fn := 4, s := [a] } (fun d k _ =>
    .done (d.modTile h.slot (fun t => { t with flags := t.flags &&& ~~~ ((k.sreg a).setWidth 32) })))

/-! ## Broadcasts (R254) -/

/-- HBC: a broadcast; bits [63:56] at 0xFF belong to the device (R152, R254). -/
def execHbc (h : Iss) (a : R5) : State → Host.Outcome State Fault Refusal :=
  tileInstr h (.hbc h a) { cls := 0x14, fn := 5, s := [a] } (fun d k _ =>
    if (k.sreg a).toNat / 2 ^ 56 = 0xFF then .fault d 7 0
    else if d.hal.bcq.any (fun x => x.src == some h.slot.val) then .stall d
    else
      let d := { d with hal := { d.hal with bcq := d.hal.bcq ++ [⟨some h.slot.val, k.sreg a⟩] } }
      .done (if d.multi && d.flag Reg.halCfg F.halCfgBcScope then d.send (.broadcast (k.sreg a)) else d))

/-- HRX: the oldest broadcast the core has not received (R152). -/
def execHrx (h : Iss) (d : R5) : State → Host.Outcome State Fault Refusal :=
  tileInstr h (.hrx h d) { cls := 0x14, fn := 6, s := [d] } (fun dev k _ =>
    match k.bq with
    | [] => .stall dev
    | v :: rest => .done ((dev.modCore h.slot h.core (fun k => { k with bq := rest })).putS h d v))

/-- A core takes no broadcast while it is halted or stopped by a fault. -/
def Core.listens (k : Core) : Bool := k.run == .running || k.run == .stalled

/-- The cores a broadcast goes to: core 0 of the step CT for the device's own, else every core of every tile. -/
def Dev.listeners (d : Dev) (b : Bcast) : List (Nat × Nat) :=
  let all : List (Nat × Nat) :=
    match b.src with
    | none => (match d.stepCt with | some p => [(p, 0)] | none => [])
    | some _ => (d.tiles.map (fun t => t.1)).flatMap (fun p => if d.inService p then [(p, 0), (p, 1), (p, 2), (p, 3)] else [])
  all.filter (fun pc => (d.core pc.1 pc.2).listens)

/-- A broadcast reaches every queue in its scope, when none of them is full. -/
def Dev.deliverBcast (d : Dev) (b : Bcast) (rest : List Bcast) : Dev :=
  let ls := d.listeners b
  if ls.any (fun pc => decide (16 ≤ (d.core pc.1 pc.2).bq.length)) then d
  else
    let d := { d with hal := { d.hal with bcq := rest } }
    ls.foldl (fun d pc => d.modCore pc.1 pc.2 (fun k => { k with bq := k.bq ++ [b.data] })) d

/-- The oldest broadcast of this device (R254). -/
def Dev.deliverOwn (d : Dev) : Dev :=
  match d.hal.bcq with
  | [] => d
  | b :: rest => d.deliverBcast b rest

/-- BROADCAST_DELIVER: the next broadcast in the root's order (R254): the oldest of this device, or, at job scope, one of another
device. In a job of several devices the order is that of the root of its lowest device: whose broadcast is next, and the word of
another device's, are free values (log entry 109). -/
def execBroadcastDeliver : State → Host.Outcome State Fault Refusal :=
  onDev (fun d =>
    if d.multi && d.flag Reg.halCfg F.halCfgBcScope then
      let turn := d.free
      let far := turn.2.free
      if turn.1.getLsbD 0 then far.2.deliverBcast ⟨some 0, far.1⟩ d.hal.bcq else turn.2.deliverOwn
    else d.deliverOwn)

/-- A message of the device to the step CT (R254, R392). -/
def Dev.hostEvent (d : Dev) (v : DWord) : Dev := { d with hal := { d.hal with bcq := d.hal.bcq ++ [⟨none, v⟩] } }

/-! ## Decisions, releases, counts -/

/-- HDEC: sD[0] = 1 for commit, 0 for skip; sD[63:32] = the step (R152). -/
def execHdec (h : Iss) (d a : R5) : State → Host.Outcome State Fault Refusal :=
  tileInstr h (.hdec h d a) { cls := 0x14, fn := 7, s := [d, a] } (fun dev k _ =>
    let n : Word := (k.sreg a).setWidth 32
    match (dev.tile h.slot).decs.find? (fun x => x.1 == n) with
    | none => .stall dev
    | some x => .done (dev.putS h d (w64 (b2n x.2 + n.toNat * 2 ^ 32))))

/-- The step number a release must carry (R250). -/
def Dev.nextStep (d : Dev) : Word := if d.hal.restoreStep ≠ noStep then d.hal.restoreStep else w32 (d.reg Reg.halStep) + 1

/-- HREL: the step CT requests release of step sA[31:0] (R152, R250); 0xFFFF_FFFF is never requested (R37). -/
def execHrel (h : Iss) (a : R5) : State → Host.Outcome State Fault Refusal :=
  tileInstr h (.hrel h a) { cls := 0x14, fn := 8, s := [a] } (fun d k _ =>
    let n : Word := (k.sreg a).setWidth 32
    if d.stepCt ≠ some h.slot.val then .fault d 1 0
    else if n ≠ d.nextStep ∨ n = noStep then .fault d 7 0
    else .done { d with hal := { d.hal with hrel := some n } })

/-- One more use of a layer's copy is over; a count above REL_EXPECT is press fault 0x2 in every press (R255, R310). -/
def Dev.countRel (d : Dev) (l : Nat) : Dev :=
  match d.press.layer l with
  | none => d
  | some y =>
    if y.chCount = 0 then d
    else
      let n := Sparse.get (fun _ => 0) d.press.rel l + 1
      let d := { d with press := { d.press with rel := Sparse.set (fun _ => 0) d.press.rel l n } }
      if y.relExpect < n then [0, 1, 2, 3].foldl (fun d c => d.pressFault c 2 l 2) d else d

/-- HWCR: the tile's use of the copy of layer sA[15:0] is over (R152, R255). -/
def execHwcr (h : Iss) (a : R5) : State → Host.Outcome State Fault Refusal :=
  tileInstr h (.hwcr h a) { cls := 0x14, fn := 9, s := [a] } (fun d k _ =>
    let l := (k.sreg a).toNat % 2 ^ 16
    .done ((if d.multi then d.send (.hwcr l) else d).countRel l))

/-! ## Release -/

/-- Tiles that must arrive at an instance: members with a program (R160, R251). -/
def Dev.membersOf (d : Dev) (b : Nat) (ps : List Nat) : List Nat :=
  ps.filter (fun p => d.inService p && (d.tile p).image.loaded && d.isMember p b)

/-- Bits 0 to 7 reduce by OR. -/
def Dev.flagMode (d : Dev) : Word := w32 (d.reg Reg.halFlagMode) &&& 0xFFFFFF00#32

/-- The flags the members' arrivals carry, reduced (R248). -/
def Dev.tileFlags (d : Dev) (b : Nat) (ps : List Nat) : Option (Word × Word) :=
  ps.foldl (fun acc p => let f := Sparse.get (fun _ => 0) (d.tile p).arrFlags b; reduceFlags acc f f) none

/-- In a job of several devices, once every member here has arrived, the device root sends its combined arrival to the others: the
flags reduced here, the step it asks for, its presses' digests (R258). -/
def Dev.rootArrives (d : Dev) (b : Nat) (own : Option (Word × Word)) (step : Option Word) (digest : Option (Word × Word)) : Dev :=
  if !d.multi || d.hal.sentArr.getLsbD b then d
  else
    let f := own.getD (0, 0xFFFFFFFF#32)
    { d with hal := { d.hal with sentArr := d.hal.sentArr ||| barBit b } }.send (.arrival b f.1 f.2 step digest)

/-- With the other devices of the job. -/
def Dev.jobFlags (d : Dev) (own : Option (Word × Word)) (peers : PeerArr) : Option (Word × Word) :=
  if d.multi then reduceFlags own peers.orFlags peers.andFlags else own

def Dev.peersIn (d : Dev) (peers : PeerArr) : Bool := !d.multi || peers.arrived

/-- HAL_FAULT records where an abort was raised; an event it holds stays. `node` as its NODE field codes it. -/
def Dev.markAbort (d : Dev) (node : Nat) : Dev :=
  if d.flag Reg.halFault F.halFaultValid then d else d.setReg Reg.halFault (3 + node * 2 ^ 2 + 2 ^ 31)

/-- An instance that would release with bit 6 set aborts instead (R253). -/
def Dev.abortHere (d : Dev) (node : Nat) : Dev :=
  if d.hal.notices.any (fun n => n.block == 8 && n.kind == 3) then d
  else (d.markAbort node).notice 8 3 node

/-- A slice's new owner, when it names one that can be (R198). -/
def Dev.ownerOk (d : Dev) (y v : Nat) : Bool := if v < 24 then d.inService (24 * y + v) else v == 0x18 || v == 0x1F

/-- The slice owners of a yard that armed barrier `b` (R198). -/
def Dev.sliceRelease (d : Dev) (y b : Nat) : Dev :=
  let r := Reg.yardSliceCtl y
  if !d.flag r F.yardSliceCtlArm || d.fld r F.yardSliceCtlBarrier != b then d
  else
    let d := (List.range 32).foldl (fun d s =>
      let v := bitsAt (d.reg (Reg.yardSliceNext y (s / 4))) (8 * (s % 4)) 8
      if d.ownerOk y v then d.setReg (Reg.yardSliceOwner y (s / 4)) (putBits (d.reg (Reg.yardSliceOwner y (s / 4))) (8 * (s % 4)) 8 v)
      else d.logEv 0 2 y 0 [w32 s, w32 v]) d
    d.setFlag r F.yardSliceCtlArm false

/-- Does bank `b` overlap the tile's code region (R161)? -/
def Dev.codeBank (d : Dev) (p b : Nat) : Bool := decide (b * 0x6000 < (d.tile p).image.codeEnd)

/-- The bank owners that TILE_BANK_NEXT asks for: TILE for a bank of the code region (R177). -/
def Dev.nextOwners (d : Dev) (p : Nat) : Nat :=
  ofBits2 ((List.range 16).map (fun b => if d.codeBank p b then ownTile else bitsAt (d.reg (Reg.tileBankNext p)) (2 * b) 2))

/-- Does the core wait in hwait for `b`? -/
def Core.inHwait (k : Core) (b : Nat) : Bool :=
  match k.stalled with
  | some (.hwait _ x) => x.val == b
  | _ => false

/-- What the release of `b` brings a core: its arrival is over; one that waits without an arrival goes on (R152). -/
def Core.release (k : Core) (b : Nat) : Core :=
  if k.hasArrived b then { k with arrived := k.arrived &&& ~~~ (barBit b), released := k.released ||| barBit b }
  else if k.inHwait b then { k with woken := k.woken ||| barBit b } else k

/-- What the release of `b` brings a member tile (R152, R177, R247). -/
def Dev.tileRelease (d : Dev) (b : Nat) (value : Word) (p : Nat) : Dev :=
  let d := ((d.setReg (Reg.tileHalRflags p) value.toNat).setReg (Reg.tileHalRbar p) b).setReg (Reg.tileBankOwner p) (d.nextOwners p)
  d.modTile p (fun t => { t with arrived := t.arrived &&& ~~~ (barBit b), arrFlags := Sparse.erase t.arrFlags b })

/-- The release of an instance over yards `ys` with members `ps`; every core in its scope that waits learns of it (R152, R226,
R247). -/
def Dev.releaseInst (d : Dev) (b : Nat) (ys ps : List Nat) (value : Word) : Dev :=
  let d := ps.foldl (fun d p => d.tileRelease b value p) d
  let d := ((d.tiles.map (·.1)).filter (fun p => ys.contains (p / 24))).foldl (fun d p => d.modCores p (fun k => k.release b)) d
  let d := ys.foldl (fun d y => d.sliceRelease y b) d
  { d with hal := { d.hal with sentArr := d.hal.sentArr &&& ~~~ (barBit b) } }.incFld Reg.halReleases fld32 1

def Dev.allArrived (d : Dev) (b : Nat) (ps : List Nat) : Bool := ps.all (fun p => (d.tile p).arrived.getLsbD b)

def bit6 (v : Word) : Bool := v.getLsbD 6

/-- BARRIER_RELEASE: an instance of `b`, of yard `y` where the scope is a yard, releases once every member has arrived
(R247). -/
def execBarrierRelease (y : Yard) (b : Bar) (peers : PeerArr) : State → Host.Outcome State Fault Refusal :=
  onDev (fun d =>
    let sc := d.barScope b
    let ys := if sc = 1 then [y.val] else allYards
    let ps := d.membersOf b (if sc = 1 then (List.range 24).map (fun s => 24 * y.val + s) else d.tiles.map (·.1))
    if sc = 0 ∨ b.val = d.relBar ∨ b.val = d.decBar ∨ b.val = d.comBar ∨ d.hal.aborting then d
    else if !d.allArrived b ps || (ps.isEmpty && !(decide (sc = 3) && d.multi)) then d
    else
      let own := d.tileFlags b ps
      let d := if sc = 3 then d.rootArrives b own none none else d
      if decide (sc = 3) && !d.peersIn peers then d
      else
      let v := reducedValue d.flagMode (if sc = 3 then d.jobFlags own peers else own)
      if bit6 v then d.abortHere (if sc = 1 then 16 + y.val else 8) else d.releaseInst b ys ps v)

/-- What a step's release does to a tile in service (R250). -/
def Dev.tileStep (d : Dev) (n : Word) (p : Nat) : Dev :=
  let d := ((d.setReg (Reg.tileMtSticky p) 0).setReg (Reg.tileVecSticky p) 0).setReg (Reg.tileXchSticky p) 0
  d.modTile p (fun t => { t with step := n, flags := w32 (d.reg (Reg.tileHalFlagdef p)), qrows := 0, xaband := false })

/-- What it does to a yard's steal queue (R288). -/
def Dev.yardStep (d : Dev) (y : Nat) : Dev :=
  let d := (List.range 16).foldl (fun d w => d.setReg (Reg.yardSqWave y w) 0) (d.setReg (Reg.yardSqWaveOpen y) 0)
  d.modYard y (fun q => { q with slotsUsed := [], tasksUsed := [] })

/-- No release passes END's last step or the step a lost host holds the job at (R397, R402). -/
def Dev.stepAllowed (d : Dev) (n : Word) : Bool :=
  (match d.hal.lastStep with | some l => decide (n.toNat ≤ l.toNat) | none => true)
    && (match d.hal.heldStep with | some l => decide (n.toNat ≤ l.toNat) | none => true)

/-- What the release of a step brings the presses (R321). Pass B of the step before may still run (R38, R39): what pass A and the
combinations gave it, and its release counts, stay with it until its record; copy-in counts that a copy still waits for stay until
then too, since they run from the decision or the preparation (R314, R318; log entry 43). -/
def PressS.stepBegins (x : PressS) : PressS :=
  let pending := match x.dec with | some (_, c) => c | none => false
  { x with ready := [], readyQ := [], copyIn := if pending || x.awaitsCopy then x.copyIn else [], relOld := x.rel, rel := [],
           comb := if pending then x.comb else [], stepTimedOut := false, frozenStrict := false,
           p := x.p.map (fun e => (e.1, { e.2 with aDone := [], acc := if pending then e.2.acc else [] })) }

/-- RELEASE_BARRIER_RELEASE: every member has arrived, every step CT asks for the same step, the previous decision has been
delivered: step n begins (R250). -/
def execReleaseBarrierRelease (peers : PeerArr) : State → Host.Outcome State Fault Refusal :=
  onDev (fun d =>
    let b := d.relBar
    let ps := d.membersOf b (d.tiles.map (·.1))
    match d.hal.hrel with
    | none => d
    | some n =>
      if d.barScope b ≠ 3 ∨ !d.runningJob ∨ d.hal.aborting ∨ d.press.prep ∨ d.host.stStart.isSome ∨ !d.allArrived b ps
          ∨ !(d.hal.first || d.hal.decGiven || d.hal.restoreStep != noStep) ∨ !d.stepAllowed n then d
      else
        let own := d.tileFlags b ps
        let d := d.rootArrives b own (some n) none
        if !d.peersIn peers ∨ (d.multi ∧ peers.step ≠ some n) then d
        else
          let v := reducedValue d.flagMode (d.jobFlags own peers)
          if bit6 v then d.abortHere 8
          else
            let d := d.releaseInst b allYards ps v
            let d := (d.setReg Reg.halStep n.toNat).setFlag Reg.halStatus F.halStatusAbort false
            let d := d.served.foldl (fun d p => d.tileStep n p) d
            let d := allYards.foldl (fun d y => d.yardStep y) d
            { d with
              hal := { d.hal with hrel := none, first := false, decGiven := false, restoreStep := noStep },
              press := d.press.stepBegins })

/-- The bits of a word all presses and devices agree on (R307). -/
def Dev.digestsAgree (d : Dev) (peers : PeerArr) : Bool :=
  let ds := [0, 1, 2, 3].map (fun c => (d.pr c).digest)
  let a := ds.foldl (· &&& ·) (if d.multi then peers.andDigest else 0xFFFFFFFF#32)
  let n := ds.foldl (fun x y => x &&& ~~~ y) (if d.multi then peers.andNotDigest else 0xFFFFFFFF#32)
  a == ~~~ n

/-- Does every tile in service and press of this device stand at the decision barrier (R251)? -/
def Dev.decisionReady (d : Dev) : Bool :=
  d.barScope d.decBar == 3 && d.runningJob && !d.hal.aborting && d.allArrived d.decBar (d.membersOf d.decBar (d.tiles.map (·.1)))
    && [0, 1, 2, 3].all (fun c => (d.pr c).decArr)

/-- What the tiles of this device bring to the decision barrier: those without a program bring 0 (R160). -/
def Dev.ownDecision (d : Dev) : Option (Word × Word) :=
  let own := d.tileFlags d.decBar (d.membersOf d.decBar (d.tiles.map (·.1)))
  if d.served.any (fun p => !(d.tile p).image.loaded) then reduceFlags own 0 0 else own

/-- With bits 0 to 4 of the presses, which OR; a press brings nothing to a bit that reduces by AND (R248, R309; log entry 110). -/
def Dev.ownWithPresses (d : Dev) : Option (Word × Word) := d.ownDecision.map (fun f => (f.1 ||| d.hal.pressFlags, f.2))

/-- The reduced flags of the decision barrier (R248, R307). -/
def Dev.decisionFlags (d : Dev) (peers : PeerArr) : Word :=
  let v := reducedValue d.flagMode (d.jobFlags d.ownDecision peers)
  v ||| d.hal.pressFlags ||| (if d.digestsAgree peers then 0 else 4)

/-- What a skip discards in the scale table: AMAX_CUR and SAT_PENDING of every entry (R69). -/
def Dev.scaleDiscard (d : Dev) : Dev :=
  (List.range d.job.scaleCount).foldl (fun d i =>
    let a := d.job.scaleAt + 64 * i
    (d.storeNat (a + 4) 4 (putBits (d.nat (a + 4) 4) 19 1 0)).storeNat (a + 12) 4 (putBits (d.nat (a + 12) 4) 0 16 0)) d

/-- The step that the decision is tagged with: in a job of several devices, the one its roots' arrivals carry (R251; log entry
108). -/
def Dev.decisionTag (d : Dev) (peers : PeerArr) : Word := if d.multi then peers.step.getD d.step else d.step

/-- Does the core wait in hdec for a decision on another step than `n`? -/
def Core.waitsOther (k : Core) (n : Word) : Bool :=
  match k.stalled with
  | some (.hdec _ _ a) => (k.sreg a).setWidth 32 != n
  | _ => false

/-- A decision on step `n` reaches a tile. One whose core waits for another step discards it: a step-skew fault, which the core
takes as a halyard fault (R43; log entry 108). -/
def Dev.tileDecision (d : Dev) (n : Word) (commit : Bool) (p : Nat) : Dev :=
  match [0, 1, 2, 3].find? (fun c => (d.core p c).waitsOther n) with
  | some c => d.progFault p c 0x14 7 (d.core p c).pc 7 0
  | none => d.modTile p (fun t => { t with decs := (n, commit) :: t.decs })

/-- The decision, tagged with step `n`, reaches every tile and press (R251). A press that waits for another step discards it, press
fault 0x7 (R43, R320). A frozen layer's copy advances at once, every copy on a skip (R315, R317). -/
def Dev.decide_ (d : Dev) (commit : Bool) (flags n : Word) : Dev :=
  let skew := n != d.step
  let d := ((d.setReg Reg.halDec (if commit then 1 else 2)).setReg Reg.halDecStep n.toNat).setReg Reg.halDecFlags flags.toNat
  let d := ((d.tiles.map (·.1)).filter d.inService).foldl (fun d p => d.tileDecision n commit p) d
  if skew then [0, 1, 2, 3].foldl (fun d c => d.pressFault c 7 0 0) d
  else
  let d := if commit then (d.press.layers.filter (fun l => l.hasCopy && l.frozen)).foldl (fun d l => d.putVersion l (n + 1)) d
    else (d.advanceAll (n + 1)).scaleDiscard
  Dev.tryVersions { d with
    hal := { d.hal with decGiven := true, pressFlags := 0 },
    press := { d.press with dec := some (n, commit), copyIn := if commit then [] else d.press.copyIn, regen := [], bsum := [],
                            verDone := if commit then d.press.frozenCopies else [],
                            ver := if commit then some (n + 1) else none, hdrOpen := false,
                            p := d.press.p.map (fun e => (e.1, { e.2 with decArr := false, comArr := false, bDone := [], acc := [], worked := false })) } }

/-- DECISION_BARRIER_RELEASE: the reduced flags decide abort, skip or commit; every tile in service is a member (R42, R251). -/
def execDecisionBarrierRelease (peers : PeerArr) : State → Host.Outcome State Fault Refusal :=
  onDev (fun d =>
    if !d.decisionReady then d
    else
      let ds := [0, 1, 2, 3].map (fun c => (d.pr c).digest)
      let d := d.rootArrives d.decBar d.ownWithPresses (some d.step)
        (some (ds.foldl (· &&& ·) 0xFFFFFFFF#32, ds.foldl (fun x y => x &&& ~~~ y) 0xFFFFFFFF#32))
      if !d.peersIn peers then d
      else
        let v := d.decisionFlags peers
        if bit6 v then d.abortHere 8
        else (d.releaseInst d.decBar allYards d.served v).decide_ (v &&& w32 (d.reg Reg.halSkipSet) == 0) v (d.decisionTag peers))

/-- COMMIT_BARRIER_RELEASE: presses and named tiles have arrived; from here an abort is held until the record is on every
device (R252, R327, R329). -/
def execCommitBarrierRelease (peers : PeerArr) : State → Host.Outcome State Fault Refusal :=
  onDev (fun d =>
    let b := d.comBar
    let ps := d.membersOf b (d.tiles.map (·.1))
    if d.barScope b ≠ 3 ∨ !d.runningJob ∨ d.hal.aborting ∨ !d.allArrived b ps ∨ ¬ [0, 1, 2, 3].all (fun c => (d.pr c).comArr) = true then d
    else
      let own := d.tileFlags b ps
      let d := d.rootArrives b own none none
      let v := reducedValue d.flagMode (d.jobFlags own peers)
      if !d.peersIn peers then d
      else if bit6 v then d.abortHere 8
      else
        let d := d.releaseInst b allYards ps v
        { d with
          hal := { d.hal with holding := true },
          press := { d.press with recWait := true, p := d.press.p.map (fun e => (e.1, { e.2 with comArr := false })) } })

/-! ## Frames and limits -/

/-- HALYARD_FRAME: a frame that fails its CRC is resent once; a second failure is device-fatal (R257). -/
def execHalyardFrame (node : Fin 80) (crcOk again : Bool) : State → Host.Outcome State Fault Refusal :=
  onDev (fun d =>
    if crcOk || (decide (8 < node.val) && decide (node.val < 16)) then d
    else
      let kind := if again then 2 else 1
      let r := Reg.halFault
      let d := if d.flag r F.halFaultValid then d else d.setReg r (kind + node.val * 2 ^ 2 + 2 ^ 31)
      if again then d.fatal 8 2 node 5 (some (0, 0)) else d.logEv 1 8 node 1 [w32 (d.reg r)])

/-- The halyard instruction a core is stalled on: its function. -/
def halFn : Instr → Option Nat
  | .hbar _ _ => some 0
  | .hwait _ _ => some 1
  | .hsync _ _ => some 2
  | .hbc _ _ => some 5
  | .hrx _ _ => some 6
  | .hdec _ _ _ => some 7
  | _ => none

/-- The barrier at which a stalled instruction waits. -/
def halBar : Instr → Option Nat
  | .hbar _ b => some b.val
  | .hwait _ b => some b.val
  | .hsync _ b => some b.val
  | _ => none

/-- In HELD the limit is suspended for the release barrier (R402). -/
def Dev.limitSuspended (d : Dev) (k : Core) : Bool := d.jst == JobSt.held && k.stalled.bind halBar == some d.relBar

/-- HALYARD_STALL_LIMIT: a halyard instruction stalls for the limit: a halyard fault, cause 0x7 (R256). -/
def execHalyardStallLimit (slot : Slot) (core : Fin 4) : State → Host.Outcome State Fault Refusal :=
  onCore slot core (fun d =>
    let k := d.core slot core
    match k.run, k.stalled.bind halFn with
    | .stalled, some fn => if d.limitSuspended k then d else d.progFault slot core 0x14 fn k.pc 7 0
    | _, _ => d)

end Sys2Proof.Machine
end

