-- ==== Sys2Proof/Machine/HostLib.lean ====
section
/-! DEFINITION. Sys2Proof/Machine/HostLib.lean: rings, doorbell and mailbox as queues (R381 to R383), the step CT's pushes
(R385), interrupts' holdoff (R386), heartbeats and the loss of the host (R387, R402). What a command does is in Jobs.lean,
Security.lean and SelfTest.lean. -/

namespace Sys2Proof.Machine

/-! ## Rings (R381, R382) -/

def Dev.cmdSize (d : Dev) : Nat := 2 ^ d.fld Reg.hstCmdSize F.hstCmdSizeCmdLog2
def Dev.cmdBase (d : Dev) : Nat := d.reg64 Reg.hstCmdBaseLo Reg.hstCmdBaseHi
def Dev.cmdHead (d : Dev) : Nat := d.fld Reg.hstCmdHead F.hstCmdHeadHead
def Dev.cmdTail (d : Dev) : Nat := d.fld Reg.hstCmdTail F.hstCmdTailTail
/-- Entries pending with the tail at `t`. -/
def Dev.cmdPending (d : Dev) (t : Nat) : Nat := (t + d.cmdSize - d.cmdHead) % d.cmdSize

/-- A command of 64 bytes (R388). Arguments are kept only of a well-formed header: one whose reserved bits are not 0 is
malformed. -/
def entryOf (src : CmdSrc) (idx : Nat) (b : List Byte) : HostEntry :=
  { q := ⟨src, idx, (b.getD 2 0).getLsbD 0, w32 (natAt b 4 4)⟩, opcode := natAt b 0 2,
    args := if natAt b 2 2 ≤ 1 then (b.drop 8).take 56 else [] }

/-- The bosun reads entry `i`, zeroes a LOAD's token in the ring, and acknowledges it; what it cannot read counts as zeros
(R211, R382). -/
def Dev.takeEntry (d : Dev) (i : Nat) : Dev :=
  let a := d.cmdBase + 64 * i
  let bad := (d.eccFirst a 64).isSome
  let b := if bad then List.replicate 64 0 else d.bytes a 64
  let d := if bad then d.holdUeClass a 1 else d
  let e := entryOf .ring i b
  let d := if e.opcode = 0x10 then d.store (a + 24) (List.replicate 32 0) else d
  { d with host := { d.host with waiting := d.host.waiting ++ [e] } }.setFld Reg.hstCmdHead F.hstCmdHeadHead ((i + 1) % d.cmdSize)

/-- The `n` oldest entries that are not acknowledged. -/
def Dev.takeEntries (d : Dev) : Nat → Dev
  | 0 => d
  | n + 1 => (d.takeEntry d.cmdHead).takeEntries n

def Dev.clearing (d : Dev) : Bool := d.jst == JobSt.clearing || d.flag (Reg.holdStatus 0) F.holdStatusClearing

/-- A doorbell (R382). -/
def Dev.doorbell (d : Dev) (v : Word) : Dev :=
  let t := bitsAt v.toNat 0 12
  if !d.flag Reg.bosBootStatus F.bosBootStatusBosunReady then d
  else if decide (d.cmdSize ≤ t) || d.clearing || decide (d.cmdPending t < d.cmdPending d.cmdTail) then
    d.satFld Reg.hstErr F.hstErrBadDoorbell 1
  else (d.setFld Reg.hstCmdTail F.hstCmdTailTail t).takeEntries (d.cmdPending t)

/-- DOORBELL: a write to HST_CMD_TAIL (R382). -/
def execDoorbell (m : Master) (v : Word) : State → Host.Outcome State Fault Refusal :=
  onDev (fun d => if Dev.maySet m Reg.hstCmdTail then d.doorbell v else d)

/-! ## The mailbox (R383) -/

/-- A write of GO: the 16 staged words are the command. -/
def Dev.mbGo (d : Dev) : Dev :=
  let r := Reg.bosMbStatus
  if d.flag r F.bosMbStatusBusy then d.satFld Reg.hstErr F.hstErrMbBusy 1
  else if !d.flag Reg.bosBootStatus F.bosBootStatusBosunReady then d
  else
    let b := ((List.range 16).map (fun i => toBytes 4 (d.reg (Reg.bosMbCmd i)))).flatten
    let d := { d with host := { d.host with mbWaiting := some (entryOf .mailbox 0 b) } }
    ((d.setFlag r F.bosMbStatusAck true).setFlag r F.bosMbStatusDone false).setFlag r F.bosMbStatusBusy true

/-- BOS_MB_GO (R383). -/
def execBosMbGo (m : Master) : State → Host.Outcome State Fault Refusal :=
  onDev (fun d => if Dev.maySet m Reg.bosMbCtl then d.mbGo else d)

/-! ## The step CT's completions (R385, R392) -/

/-- Does the staged entry complete this HOSTMSG? -/
def endsMsg (e : List Word) (h : HostEntry) : Bool := h.opcode == 0x15 && (e.getD 0 0).toNat % 2 ^ 16 == 0x15 && e.getD 1 0 == h.q.tag

/-- A mailbox HOSTMSG is complete when the step CT posts its completion (log entry 46). -/
def Dev.endMbMsg (d : Dev) (e : List Word) : Dev :=
  let d := (List.range 8).foldl (fun d i => d.setReg (Reg.bosMbRsp i) (e.getD i 0).toNat) d
  let d := { d with host := { d.host with mbCur := none } }
  ((d.setFlag Reg.bosMbStatus F.bosMbStatusDone true).setFlag Reg.bosMbStatus F.bosMbStatusBusy false).irq 1

def Dev.cplPush (d : Dev) : Dev :=
  let e := (List.range 8).map (fun i => w32 (d.reg (Reg.hstCplStage i)))
  let mine := d.host.cur.filter (endsMsg e)
  let d := d.pushCpl e (match mine with | some h => h.q.noIrq | none => false)
  let d := if mine.isSome then { d with host := { d.host with cur := none } } else d
  if (d.host.mbCur.filter (endsMsg e)).isSome then d.endMbMsg e else d

/-- CPL_PUSH: a write of PUSH posts the staged entry (R385). -/
def execCplPush (m : Master) : State → Host.Outcome State Fault Refusal :=
  onDev (fun d => if Dev.maySet m Reg.hstCplPush then d.cplPush else d)

/-! ## Interrupts (R386) -/

/-- IRQ_HOLDOFF_END: causes merged during the holdoff go out as one message, which begins a holdoff of its own. -/
def execIrqHoldoffEnd (v : Fin 4) : State → Host.Outcome State Fault Refusal :=
  onDev (fun d =>
    let merged := d.host.holdoff.any (fun e => e.1 == v.val && e.2)
    let d := { d with host := { d.host with holdoff := Sparse.erase d.host.holdoff v } }
    if merged then d.irq v else d)

/-! ## The loss of the host (R387, R402) -/

def eventWord (ev idx : Nat) (step : Word) : DWord := w64 (0xFF * 2 ^ 56 + ev * 2 ^ 48 + idx * 2 ^ 32 + step.toNat)

/-- Is the held step's own record written? Then the device enters HELD (R402). -/
def Dev.tryHeld (d : Dev) : Dev :=
  match d.hal.heldStep with
  | some h =>
    if d.jst == JobSt.running && !d.hal.aborting && d.press.dec.isNone && !d.press.recWait && w32 (d.reg Reg.pressProofStep) == h
        && d.step == h && d.hal.restoreStep == noStep then
      (d.setJst JobSt.held).event 0x0101 0 h (w32 d.hal.heldDev.toNat)
    else d
  | none => d

/-- A held step: the highest step released here if the word came too late; a request beyond it is withdrawn. -/
def Dev.holdAt (d : Dev) (dev : BitVec 12) (h : Word) : Dev :=
  let h' := if d.step ≠ noStep ∧ h.toNat < d.step.toNat then d.step else h
  let d := { d with hal := { d.hal with heldStep := some h', heldDev := dev,
                                        hrel := d.hal.hrel.filter (fun n => decide (n.toNat ≤ h'.toNat)) } }
  (d.hostEvent (eventWord 2 dev.toNat h')).tryHeld

/-- HOST_LOST is set; a running job is held after its present step (R402). -/
def Dev.hostLost (d : Dev) : Dev :=
  if d.flag Reg.hstStatus F.hstStatusHostLost then d
  else
    let d := { d with host := { d.host with beatSinceLost := false } }
    let d := (d.setFlag Reg.hstStatus F.hstStatusHostLost true).irq 3
    if d.jst = JobSt.running then
      let own := BitVec.ofNat 12 d.ownDev
      let d := if d.multi then d.send (.heldNotice own d.step) else d
      let d := if d.multi && d.hal.hrel.isSome then d.send (.withdrawRelease (d.step + 1)) else d
      d.holdAt own d.step
    else d

/-- CPL_RING_FULL_TIMEOUT: a ring full for 30 ms is loss of the host (R385). -/
def execCplRingFullTimeout : State → Host.Outcome State Fault Refusal :=
  onDev (fun d => if d.cplFull && !d.host.cplWait.isEmpty then d.hostLost else d)

/-- A host heartbeat: the 10 ms window starts again (R387). -/
def Dev.heartbeat (d : Dev) : Dev :=
  let d := (d.setFlag Reg.hstStatus F.hstStatusHbActive true).setFld Reg.hstStatus F.hstStatusMisses 0
  let d := d.incFld Reg.hstHbCount F.hstHbCountReceived 1
  { d with host := { d.host with beatSinceLost := d.flag Reg.hstStatus F.hstStatusHostLost || d.host.beatSinceLost } }

/-- HST_HB: any write is a heartbeat (R387). -/
def execHstHb (m : Master) (_v : Word) : State → Host.Outcome State Fault Refusal :=
  onDev (fun d => if Dev.maySet m Reg.hstHb then d.heartbeat else d)

/-- HEARTBEAT_WINDOW: 10 ms without a heartbeat: a miss; the third in a row is the loss of the host (R387). -/
def execHeartbeatWindow : State → Host.Outcome State Fault Refusal :=
  onDev (fun d =>
    if !d.flag Reg.hstStatus F.hstStatusHbActive then d
    else
      let n := d.fld Reg.hstStatus F.hstStatusMisses
      let d := d.setFld Reg.hstStatus F.hstStatusMisses (min 3 (n + 1))
      if n = 2 then d.hostLost else d)

/-- DEVICE_HEARTBEAT: 8 bytes to HST_HB_ADDR, unless it is 0 (R387). -/
def execDeviceHeartbeat : State → Host.Outcome State Fault Refusal :=
  onDev (fun d =>
    let a := d.reg64 Reg.hstHbAddrLo Reg.hstHbAddrHi
    if a = 0 ∨ !d.flag Reg.hstStatus F.hstStatusUp then d
    else
      let d := d.incFld Reg.hstHbCount F.hstHbCountSent 1
      d.send (.hostWrite a (toBytes 8 (d.fld Reg.hstHbCount F.hstHbCountSent + d.jst * 2 ^ 32))))

end Sys2Proof.Machine
end

