-- ==== Sys2Proof/Machine/Mirror.lean ====
section
/-! DEFINITION. Sys2Proof/Machine/Mirror.lean: the order in which a partner's mirror arrives (R334), and the sender's OPEN
(R333). -/

namespace Sys2Proof.Machine

/-- A write arriving on lane 3 (R217, R334); false: an access error. -/
def Dev.mirrorWrite (d : Dev) (a : Nat) (bs : List Byte) : Dev × Bool := d.memWrite .mirror a bs

/-- One write of the mirror's order, at offset `off` of the region. -/
def mirrorCmd (off : Nat) (bs : List Byte) (ok : Bool) : State → Host.Outcome State Fault Refusal :=
  onDev (fun d => if ok && (d.rgnOf 2).isSome then (d.mirrorWrite (d.mirrorAt + off) bs).1 else d)

def burstState (b : List Byte) (v : Nat) : Bool := b.length == 64 && natAt b 0 1 == v

/-- MIRROR_HEAD_OPENING (R334). -/
def execMirrorHeadOpening (burst : List Byte) : State → Host.Outcome State Fault Refusal := mirrorCmd 0 burst (burstState burst 1)
/-- MIRROR_HEAD_COMPLETE (R334). -/
def execMirrorHeadComplete (burst : List Byte) : State → Host.Outcome State Fault Refusal := mirrorCmd 0 burst (burstState burst 2)
/-- MIRROR_HEAD_SPOILED (R334). -/
def execMirrorHeadSpoiled (burst : List Byte) : State → Host.Outcome State Fault Refusal := mirrorCmd 0 burst (burstState burst 3)
/-- MIRROR_IMAGE_WRITE: at offset 64 and above, the rest of the head and the image (R332, R334). -/
def execMirrorImageWrite (off : Nat) (data : List Byte) : State → Host.Outcome State Fault Refusal :=
  mirrorCmd off data (decide (64 ≤ off))

/-- A write of OPEN: 1 latches the live slot and clears MIRROR_DUE, 0 ends the send (R333). -/
def Dev.mirrorCtl (d : Dev) (open_ : Bool) : Dev :=
  let r := Reg.pressMirrorCtl
  if open_ then
    ((d.setFlag r F.pressMirrorCtlOpen true).setFld r F.pressMirrorCtlSlot d.live).setFlag Reg.pressProofStatus F.pressProofStatusMirrorDue false
  else d.setFlag r F.pressMirrorCtlOpen false

/-- MIRROR_CTL_OPEN (R333). -/
def execMirrorCtlOpen (m : Master) : State → Host.Outcome State Fault Refusal :=
  onDev (fun d => if Dev.maySet m Reg.pressMirrorCtl then d.mirrorCtl true else d)
/-- MIRROR_CTL_CLOSE (R333). -/
def execMirrorCtlClose (m : Master) : State → Host.Outcome State Fault Refusal :=
  onDev (fun d => if Dev.maySet m Reg.pressMirrorCtl then d.mirrorCtl false else d)

end Sys2Proof.Machine
end

