-- ==== Sys2Proof/Machine/Link.lean ====
section
/-! DEFINITION. Sys2Proof/Machine/Link.lean: the fabric ports: flits, pools, credits and replay (R352 to R361), packets and
forwarding (R353 to R355, R362), training (R366 to R368), calibration, swaps and strikes (R369 to R374). -/

namespace Sys2Proof.Machine
open Sys2Proof.Num

/-! ## Pools (R356) -/

/-- Flits of a pool's receive buffer. -/
def poolFlits (p : Nat) : Nat := if p = 0 then 32 else if p = 1 then 96 else if p = 2 then 64 else if p = 3 then 192 else 128
def LinkP.credit (l : LinkP) (p : Nat) : Nat := Sparse.get poolFlits l.credits p
def LinkP.setCredit (l : LinkP) (p n : Nat) : LinkP := { l with credits := Sparse.set poolFlits l.credits p n }
def LinkP.pool (l : LinkP) (p : Nat) : List Byte := Sparse.get (fun _ => []) l.pools p
def LinkP.setPool (l : LinkP) (p : Nat) (bs : List Byte) : LinkP := { l with pools := Sparse.set (fun _ => []) l.pools p bs }
def LinkP.freedOf (l : LinkP) (p : Nat) : Nat := Sparse.get (fun _ => 0) l.freed p
def LinkP.rxOf (l : LinkP) (p : Nat) : List Byte := Sparse.get (fun _ => []) l.rx p

def Dev.lnkState (d : Dev) (n : Nat) : Nat := d.fld (Reg.lnkStatus n) F.lnkStatusState
/-- The port carries flits: up on eight lanes or nine. -/
def Dev.carrying (d : Dev) (n : Nat) : Bool := d.flag (Reg.lnkStatus n) F.lnkStatusUp && (d.lnkState n == 2 || d.lnkState n == 4)

/-- An event in LNK_FAULT: 1 protocol error, 2 no route, 3 replay limit, 4 loss of lock, 5 halyard double failure. -/
def Dev.lnkFault (d : Dev) (n kind pool : Nat) : Dev :=
  let r := Reg.lnkFault n
  if d.flag r F.lnkFaultValid then d else d.setReg r (kind + pool * 2 ^ 4 + 2 ^ 31)

/-- A protocol error takes the port down with cause 0x5 (R361). -/
def Dev.protocolError (d : Dev) (n pool : Nat) : Dev := (d.lnkFault n 1 pool).portDown n 5

/-! ## Sending (R352, R358) -/

/-- May the pool send: something ready, and a credit? -/
def LinkP.ready (l : LinkP) (p : Nat) : Bool := l.pool p != [] && decide (0 < l.credit p)

/-- Turns of pools 1, 2 and 3 with weights 1 : 1 : 2. -/
def rrTurns : List Nat := [1, 2, 3, 3]

/-- The next pool under R358; none: an idle flit. -/
def LinkP.choose (l : LinkP) : Option Nat :=
  if l.ready 0 && !l.lastHal then some 0
  else if l.ready 4 && decide (63 ≤ l.wait4) then some 4
  else match ((List.range 4).map (fun i => rrTurns.getD ((l.rr + i) % 4) 1)).find? l.ready with
    | some p => some p
    | none => if l.ready 4 then some 4 else none

/-- The turn after the one that served pool `p`. -/
def LinkP.nextTurn (l : LinkP) (p : Nat) : Nat :=
  match ((List.range 4).map (fun i => (l.rr + i) % 4)).find? (fun i => rrTurns.getD i 1 == p) with
  | some i => (i + 1) % 4
  | none => l.rr

def padTo (n : Nat) (bs : List Byte) : List Byte := bs.take n ++ List.replicate (n - bs.length) 0

/-- A flit: header with the ACK in force, body, CRC. -/
def LinkP.flit (l : LinkP) (pool seq : Nat) (body : List Byte) : List Byte :=
  let ackt := if l.nak then 2 else if l.sendAck then 1 else 0
  let b := toBytes 4 (pool + seq % 4096 * 2 ^ 3 + (l.expect + 4095) % 4096 * 2 ^ 15 + ackt * 2 ^ 27) ++ padTo 248 body
  b ++ toBytes 4 (crc32 b).toNat

def flitPool (f : List Byte) : Nat := bitsAt (natAt f 0 4) 0 3
def flitSeq (f : List Byte) : Nat := bitsAt (natAt f 0 4) 3 12
def flitAck (f : List Byte) : Nat := bitsAt (natAt f 0 4) 15 12
def flitAckt (f : List Byte) : Nat := bitsAt (natAt f 0 4) 27 2
def flitBody (f : List Byte) : List Byte := (f.drop 4).take 248

/-- After a flit has gone: what it told the peer is told. -/
def LinkP.sent (l : LinkP) (pool : Nat) : LinkP :=
  { l with sendAck := false, nak := false, lastHal := pool == 0,
           wait4 := if pool = 4 ∨ !l.ready 4 then 0 else l.wait4 + 1 }

def Dev.countTx (d : Dev) (n : Nat) : Dev := d.inc64 (Reg.lnkTxFlitsLo n) (Reg.lnkTxFlitsHi n) 1

/-- FLIT_SEND: a resend first, then the pool of R358, else an idle flit; a CREDIT packet rides in an idle flit or behind the
end of a pool's stream (R353, R357, R360). -/
def execFlitSend (n : Port) : State → Host.Outcome State Fault Refusal :=
  onDev (fun d =>
    let l := d.link n
    if !d.carrying n then d
    else match l.resend with
    | f :: rest =>
      let g := l.flit (flitPool f) (flitSeq f) (flitBody f)
      ((d.setLink n ({ l with resend := rest }.sent (flitPool f))).send (.flit n g)).countTx n
    | [] =>
      match (if l.replay.length < 256 then l.choose else none) with
      | some p =>
        let body := (l.pool p).take 248
        let room := (248 - body.length) / 8
        let ride := if (l.pool p).length ≤ 248 then l.tx.take room else []
        let g := l.flit p l.seq (body ++ ride.flatten)
        let l' := (({ l with seq := (l.seq + 1) % 4096, replay := l.replay ++ [g], tx := l.tx.drop ride.length,
                             rr := l.nextTurn p }.take p 248).setCredit p (l.credit p - 1)).sent p
        ((d.setLink n l').send (.flit n g)).countTx n
      | none =>
        let g := l.flit 7 l.seq (l.tx.take 31).flatten
        (d.setLink n ({ l with tx := l.tx.drop 31 }.sent 7)).send (.flit n g))

/-- Chunks that came in at port `n` and have neither been combined nor passed on: each holds a buffer of pool 3 (R365). -/
def Dev.heldChunks (d : Dev) (n : Nat) : Nat := (d.chunks.filter (fun c => c.pos == .port n 0)).length

/-- CREDIT_RETURN: freed buffers go back in a CREDIT packet (R357). -/
def execCreditReturn (n : Port) : State → Host.Outcome State Fault Refusal :=
  onDev (fun d =>
    let l := d.link n
    let kept := min (l.freedOf 3) (d.heldChunks n)
    let back := (List.range 5).map (fun p => l.freedOf p - if p = 3 then kept else 0)
    if !d.flag (Reg.lnkStatus n) F.lnkStatusUp || back.all (· == 0) then d
    else d.setLink n { l with tx := l.tx ++ [creditPkt back], freed := if kept = 0 then [] else [(3, kept)] })

/-- COMPACT_ACK_RELEASE: the compact writes of a pool acknowledged at their targets, up to the first that is not (R355). -/
def execCompactAckRelease (n : Port) (pool : Fin 5) : State → Host.Outcome State Fault Refusal :=
  onDev (fun d =>
    let l := d.link n
    let q := Sparse.get (fun _ => []) l.cwIn pool
    let k := min 511 (q.takeWhile id).length
    if k = 0 ∨ !d.flag (Reg.lnkStatus n) F.lnkStatusUp then d
    else (d.setLink n { l with cwIn := Sparse.set (fun _ => []) l.cwIn pool (q.drop k) }).linkPush n 2 (writeAckPkt pool k))

/-! ## Packets (R353, R354) -/

inductive LPkt where
  | pad
  | credit (counts : List Nat)
  | cwrite (dev addr : Nat) (data : List Byte)
  | cunit (dev tile tag : Nat) (data : List Byte)
  | full (op dev src tag : Nat) (data : List Byte) (addr opdata : Nat)
  | wack (pool count : Nat)
  | bad

def pktOf (bs : List Byte) : LPkt :=
  let w := natAt bs 0 8
  match bitsAt w 0 4 with
  | 0 => if w = 0 then .pad else .bad
  | 1 => if bitsAt w 54 10 = 0 then .credit ((List.range 5).map (fun i => bitsAt w (4 + 10 * i) 10)) else .bad
  | 2 => .cwrite (bitsAt w 4 12) (bitsAt w 22 42 * 64) (bs.drop 8)
  | 3 => .cunit (bitsAt w 4 12) (bitsAt w 18 11) (bitsAt w 29 16) (bs.drop 8)
  | 4 =>
    if 8 < bitsAt w 4 4 ∨ 256 < bitsAt w 48 9 then .bad
    else .full (bitsAt w 4 4) (bitsAt w 8 12) (bitsAt w 20 12) (bitsAt w 32 16) ((bs.drop 16).take (if bitsAt w 4 4 = opChunk then 272 else bitsAt w 48 9)) (natAt bs 8 6) (natAt bs 14 2)
  | 5 => .wack (bitsAt w 4 3) (bitsAt w 7 9)
  | _ => .bad

/-- The whole packets at the head of a stream, and the rest. -/
def splitPkts : Nat → List Byte → List LPkt × List Byte
  | 0, bs => ([], bs)
  | fuel + 1, bs =>
    if bs.length < 8 then ([], bs)
    else
      let n := pktBytes (natAt bs 0 8)
      if bs.length < n then ([], bs)
      else
        let r := splitPkts fuel (bs.drop n)
        (pktOf (bs.take n) :: r.1, r.2)

/-! ## What a packet does here -/

def laneOfPool (p : Nat) : Nat := if p = 1 then 1 else if p = 2 then 1 else if p = 3 then 2 else 3

/-- A write from device `src` at port `n`: lane 3 is the mirror's path, the others the remote path; control space is an access
error, and logged, since a compact write's acknowledgement has no place for one (R27, R217, R287, R355; log entry 68). A mirror that is being restored into slot A is not checked against the region table (R337). -/
def Dev.remoteWrite (d : Dev) (n src pool addr : Nat) (bs : List Byte) : Dev × Bool :=
  if ctlLo ≤ addr ∧ addr < ctlLo + 0x2000000 then
    ((d.logUnpopulated addr).logWave (.remote (BitVec.ofNat 12 src)) (addr - ctlLo) bs, false)
  else if d.host.stStart.isSome && (match d.rgnOf 0 with | some r => d.rgnHas r addr | none => false) then d.memWrite .bosun addr bs
  else if pool = 4 then d.mirrorWrite addr bs else d.memWrite (.remote (portYards.getD n 0)) addr bs

/-- An answer to device `dev`, in pool 2 of its port; a response without data and an acknowledgement with OPDATA 1 tell of an
access error, a read response with OPDATA 2 of a stale read (R313; log entry 45). -/
def Dev.answer (d : Dev) (dev op tag : Nat) (data : List Byte) (opdata : Nat) : Dev :=
  match d.livePort dev with
  | some n => d.linkPush n 2 (fullPkt op dev d.ownDev tag data 0 opdata)
  | none => d

/-- A unit of a sender on device `src` reaches its tile. -/
def Dev.unitIn (d : Dev) (src tile tag : Nat) (data : List Byte) : Dev :=
  match d.slotOf tile with
  | some p => { d with units := d.units ++ [⟨p, tag, farSrc src, 0, data⟩] }
  | none => d

/-- Credits reach the sending entry of a tag (R231, R354). -/
def Dev.creditIn (d : Dev) (tile tag n : Nat) : Dev :=
  match d.slotOf tile with
  | none => d
  | some p =>
    d.modTile p (fun t => t.mapActive (fun e x =>
      if (xeOp e == opSend || xeOp e == opRsend) && xeRemote e && xeTag e == tag then { x with credits := min (xeUnits e) (x.credits + n) } else x))

/-- An RSEND of the reduction in this device's imposition: every RSEND of a reduction has the same shape (R229). -/
def Dev.rsendOf (d : Dev) (rid : Nat) : Option (BitVec 256) :=
  d.tiles.findSome? (fun t => t.2.entries.find? (fun e => xeOp e == opRsend && xeTag e == rid))

/-- The indices of the lanes of chunk `q`: by the shape of the reduction's units where this device holds an RSEND of it, else from
lane 0 on (R243; log entry 42). -/
def Dev.chunkIndex (d : Dev) (rid q lane0 : Nat) : List Word :=
  match d.rsendOf rid with
  | some e =>
    let per := max 1 (xeUnitBytes e / 256)
    (List.range 128).map (fun i => elemIndex e (q / per) (128 * (q % per) + i))
  | none => (List.range 128).map (fun i => w32 (lane0 + i))

/-- The chunk a link brings (log entry 42). -/
def Dev.chunkOf (d : Dev) (n dev tile : Nat) (bs : List Byte) : Chunk :=
  let w := natAt bs 0 4
  { pos := .port n 0, rset := 0, dest := 0, dev := BitVec.ofNat 12 dev, tile := tile, rid := bitsAt w 0 10, ord := bitsAt w 10 15,
    q := natAt bs 4 4, rop := bitsAt (natAt bs 10 1) 0 2, rnd := bitsAt (natAt bs 10 1) 2 2, rfmt := bitsAt w 25 4,
    tensor := BitVec.ofNat 16 (natAt bs 8 2), index := d.chunkIndex (bitsAt w 0 10) (natAt bs 4 4) (natAt bs 12 4),
    sat := bitsAt w 29 1 == 1, nf := bitsAt w 30 1 == 1, lanes := (List.range 128).map (fun i => BitVec.ofNat 16 (natAt bs (16 + 2 * i) 2)) }

/-- Where in the mesh a chunk from a link goes: its tile's yard, or the port toward its device. -/
def Dev.chunkDest (d : Dev) (dev tile : Nat) : Nat :=
  if dev = d.ownDev then (match d.slotOf tile with | some p => p / 24 | none => 0)
  else (match d.portOf dev with | some q => 68 + q | none => 0)

def isReq (op : Nat) : Bool := op == opReadReq || op == opWrite || op == opAtomic

/-- A packet for another device crosses the mesh to its port and goes on in the full form, in the same pool; without a route, or
where it meets a failed router, a request gets an access error and anything else is discarded and counted (R261, R362). -/
def Dev.forward (d : Dev) (n pool op dev src tag : Nat) (data : List Byte) (addr opdata : Nat) : Dev :=
  match d.portOf dev with
  | some q =>
    match d.wayBlocked 0 (portYards.getD n 0) [68 + q] with
    | none => d.linkPush q pool (fullPkt op dev src tag data addr opdata)
    | some d' =>
      if isReq op then d'.answer src (if op = opWrite then opWriteAck else if op = opAtomic then opAtomicResp else opReadResp) tag [] 1
      else d'
  | none =>
    if isReq op then d.answer src (if op = opWrite then opWriteAck else if op = opAtomic then opAtomicResp else opReadResp) tag [] 1
    else d.lnkFault n 2 pool

/-- One packet of pool `pool` from port `n`. Responses and acknowledgements complete their requesters by their own commands. -/
def Dev.packetIn (d : Dev) (n pool : Nat) (k : LPkt) : Dev :=
  let peer := d.fld (Reg.lnkPeer n) F.lnkPeerSystemId
  let way := Path.remote (portYards.getD n 0)
  match k with
  | .pad => d
  | .credit cs => d.modLink n (fun l => (List.range 5).foldl (fun l p => l.setCredit p (min (poolFlits p) (l.credit p + cs.getD p 0))) l)
  | .cwrite dev addr data =>
    if dev = d.ownDev then
      let r := d.remoteWrite n peer pool addr data
      r.1.modLink n (fun l => { l with cwIn := Sparse.set (fun _ => []) l.cwIn pool (Sparse.get (fun _ => []) l.cwIn pool ++ [true]) })
    else d.forward n pool opWrite dev d.ownDev 0 data addr 0
  | .cunit dev tile tag data => if dev = d.ownDev then d.unitIn peer tile tag data else d.forward n pool opUnit dev d.ownDev tag data tile 0
  | .full op dev src tag data addr opdata =>
    if op = opChunk then { d with chunks := d.chunks ++ [{ d.chunkOf n dev (addr % 2048) data with dest := d.chunkDest dev (addr % 2048) }] }
    else if dev ≠ d.ownDev then d.forward n pool op dev src tag data addr opdata
    else match op with
    | 0 =>
      match d.memReadS way addr (8 * opdata) with
      | (d', some (bs, stale)) => d'.answer src opReadResp tag bs (2 * b2n stale)
      | (d', none) => d'.answer src opReadResp tag [] 1
    | 2 =>
      match d.remoteWrite n src pool addr data with
      | (d', ok) => d'.answer src opWriteAck tag [] (b2n !ok)
    | 3 =>
      match d.memGadd way addr opdata (w64 (natAt data 0 8)) with
      | (d', some v) => d'.answer src opAtomicResp tag (toBytes opdata v) 0
      | (d', none) => d'.answer src opAtomicResp tag [] 1
    | 6 => d.creditIn (addr % 2048) tag opdata
    | 7 => d.unitIn src (addr % 2048) tag data
    | _ => d
  | .wack p c => d.modLink n (fun l => { l with cwOut := Sparse.set (fun _ => 0) l.cwOut p (Sparse.get (fun _ => 0) l.cwOut p - c) })
  | .bad => d.protocolError n pool

/-! ## Receiving (R350, R360, R361) -/

/-- A flit that fails: the first NAKs, every later one is discarded until the resend; a pool-0 flit failing twice is a second
halyard failure (R257), eight failures of one flit start a fast retrain. -/
def Dev.flitFails (d : Dev) (n : Nat) (f : List Byte) : Dev :=
  let l := d.link n
  let zero := flitPool f == 0
  let again := decide (0 < l.fails) && l.failPool0 && zero
  let d := d.setLink n { l with nak := true, awaiting := true, fails := l.fails + 1, failPool0 := zero }
  if again then
    let r := Reg.halFault
    let d := if d.flag r F.halFaultValid then d else d.setReg r (2 + (64 + n) * 2 ^ 2 + 2 ^ 31)
    (d.lnkFault n 5 0).fatal 8 2 (64 + n) 5 (some (0, 0))
  else if 8 ≤ l.fails + 1 then ((d.lnkFault n 3 (flitPool f)).setFld (Reg.lnkStatus n) F.lnkStatusState 3)
  else d

/-- The ACK or NAK a flit carries; false: it names a flit outside the replay buffer. -/
def Dev.ackIn (d : Dev) (n : Nat) (f : List Byte) : Dev × Bool :=
  let l := d.link n
  if flitAckt f ≠ 1 ∧ flitAckt f ≠ 2 then (d, flitAckt f == 0)
  else
    let first := match l.replay.head? with | some g => flitSeq g | none => l.seq
    let k := (flitAck f + 1 + 4096 - first) % 4096
    if l.replay.length < k then (d, false)
    else
      let rest := l.replay.drop k
      if flitAckt f = 2 then ((d.setLink n { l with replay := rest, resend := rest }).satFld (Reg.lnkReplay n) fld32 1, true)
      else (d.setLink n { l with replay := rest, resend := l.resend.drop (k - (l.replay.length - l.resend.length)) }, true)

/-- The body of an accepted flit joins its pool's stream; whole packets act, and the flit's buffer is free. -/
def Dev.bodyIn (d : Dev) (n p : Nat) (body : List Byte) : Dev :=
  let r := splitPkts 64 ((d.link n).rxOf p ++ body)
  let d := d.modLink n (fun l => { l with rx := Sparse.set (fun _ => []) l.rx p r.2,
                                          freed := Sparse.set (fun _ => 0) l.freed p (l.freedOf p + 1) })
  r.1.foldl (fun d k => d.packetIn n p k) d

/-- A peer's new SYSTEM_ID, announced in pool 2. -/
def Dev.announced (d : Dev) (n : Nat) (a : Option (BitVec 12)) : Dev :=
  match a with
  | some v => d.setFld (Reg.lnkPeer n) F.lnkPeerSystemId v.toNat
  | none => d

/-- FLIT_RECEIVE: accepted when its CRC passes and its SEQ is the next (R360). -/
def execFlitReceive (n : Port) (flit : List Byte) (fecOk : Bool) (announce : Option (BitVec 12)) : State → Host.Outcome State Fault Refusal :=
  onDev (fun d =>
    let l := d.link n
    if !d.carrying n || flit.length != 256 then d
    else
      let d := if fecOk then d else d.satFld (Reg.lnkFecUe n) fld32 1
      if !fecOk || natAt flit 252 4 != (crc32 (flit.take 252)).toNat then
        -- of the flits behind one that failed only the resend of that one can fail anew (log entry 126)
        if l.awaiting && flitSeq flit != l.expect then d else d.flitFails n flit
      else
        let p := flitPool flit
        match d.ackIn n flit with
        | (d1, false) => d1.protocolError n p
        | (d1, true) =>
          if p = 7 then
            ((splitPkts 64 (flitBody flit)).1).foldl (fun d k =>
              match k with
              | .pad => d
              | .credit _ => d.packetIn n 7 k
              | _ => d.protocolError n 7) d1
          else if p = 5 ∨ p = 6 then d1.protocolError n p
          else if flitSeq flit ≠ l.expect then (if l.awaiting then d1 else d1.flitFails n flit)
          else if poolFlits p ≤ l.freedOf p then d1.protocolError n p
          else
            let d2 := d1.modLink n (fun l => { l with expect := (l.expect + 1) % 4096, sendAck := true, nak := false, awaiting := false,
                                                       fails := 0, failPool0 := false })
            let d2 := (d2.inc64 (Reg.lnkRxFlitsLo n) (Reg.lnkRxFlitsHi n) 1)
            if p = 0 then d2.modLink n (fun l => { l with freed := Sparse.set (fun _ => 0) l.freed 0 (l.freedOf 0 + 1) })
            else (if p = 2 then d2.announced n announce else d2).bodyIn n p (flitBody flit))

/-! ## Training (R349, R366 to R368) -/

def noLane : Nat := 0xF
def countLanes (v : Nat) : Nat := ((List.range 9).filter (fun k => v / 2 ^ k % 2 == 1)).length
/-- Lanes the manifest records as failed (R373). -/
def Dev.manifestLanes (d : Dev) (n : Nat) : Nat := (Sparse.get (fun _ => (0 : BitVec 9)) d.bos.man.failedLanes n).toNat
def orNat (a b : Nat) : Nat := Nat.lor a b

def Dev.fecAllow (d : Dev) (n : Nat) : Nat := d.fld (Reg.lnkCfg n) F.lnkCfgFecAllow
/-- R349; none: no mode. -/
def Dev.fecMode (d : Dev) (n : Nat) (t : Training) : Option Nat :=
  if d.fecAllow n / 2 = 1 ∧ t.peerAllow.getLsbD 1 ∧ t.traceBer then some 1
  else if d.fecAllow n % 2 = 1 ∧ t.peerAllow.getLsbD 0 ∧ t.rsBer then some 0 else none
/-- The highest common level (R367). -/
def Dev.linkLevel (d : Dev) (n : Nat) (t : Training) : Option Nat :=
  ((List.range 16).reverse.find? (fun l => d.fld (Reg.lnkPlevel n) F.lnkPlevelSupported / 2 ^ l % 2 == 1 && t.peerLevels.getLsbD l)).map (· + 1)

/-- A port without a working spare raises LINK_SPARE (R373). -/
def Dev.noSpare (d : Dev) (n : Nat) : Dev := (d.setFlag (Reg.lnkStatus n) F.lnkStatusSpareOk false).replaceCause 4

/-- The lanes after a training: a failed lane is the spare, and then there is no working one. -/
def Dev.setLanes (d : Dev) (n failed : Nat) : Dev :=
  let bad := (List.range 9).find? (fun k => failed / 2 ^ k % 2 == 1)
  let r := Reg.lnkLanes n
  let d := d.setReg r (failed + (match bad with | some k => k | none => 8) * 2 ^ 18 + noLane * 2 ^ 22 + noLane * 2 ^ 26)
  match bad with
  | some _ => d.noSpare n
  | none => d.setFlag (Reg.lnkStatus n) F.lnkStatusSpareOk true

/-- Lane `k` of port `n` is failed for good (R373). -/
def Manifest.failLane (m : Manifest) (n k : Nat) : Manifest :=
  let old := Sparse.get (fun _ => (0 : BitVec 9)) m.failedLanes n
  { m with failedLanes := Sparse.set (fun _ => (0 : BitVec 9)) m.failedLanes n (old ||| BitVec.ofNat 9 (2 ^ k)) }

/-- Strikes since the last full training: a lane struck at three successive ones is failed for good (R373). -/
def Dev.settleStrikes (d : Dev) (n : Nat) : Dev :=
  let struck := d.fld (Reg.lnkLanes n) F.lnkLanesStruck
  (List.range 9).foldl (fun d k =>
    let l := d.link n
    let c := if struck / 2 ^ k % 2 = 1 then Sparse.get (fun _ => 0) l.strikes k + 1 else 0
    let d := d.setLink n { l with strikes := Sparse.set (fun _ => 0) l.strikes k c }
    if 3 ≤ c then d.append (d.bos.man.failLane n k)
    else d) d

/-- Capabilities of the peer; a wiring mismatch is logged (R368). -/
def Dev.meetPeer (d : Dev) (n : Nat) (t : Training) : Dev :=
  let d := d.setReg (Reg.lnkPeer n) (t.peerPos.toNat + t.peerSys.toNat * 2 ^ 3 + t.peerPort.toNat * 2 ^ 15 + 2 ^ 31)
  let wrong := decide (n ≤ 6) && t.peerPos.toNat != Nat.xor (d.fld Reg.devBoard F.devBoardBoardPos) (n + 1)
  let d := d.setFlag (Reg.lnkStatus n) F.lnkStatusWiring wrong
  if wrong then d.logEv 0 6 n 0 [w32 (d.reg (Reg.lnkPeer n))] else d

/-- The port is up (steps 8 to 10). -/
def Dev.portUp (d : Dev) (n fec level : Nat) : Dev :=
  let r := Reg.lnkStatus n
  let d := ((((d.setFld r F.lnkStatusUp 1).setFld r F.lnkStatusState 2).setFld r F.lnkStatusFec fec).setFld r F.lnkStatusDownCause 0)
  (d.setFld (Reg.lnkPlevel n) F.lnkPlevelChosen level).setFlag (Reg.lnkCtl n) F.lnkCtlRetrain false

/-- A port may train: enabled, its router alive, no manifest record of it out of use. -/
def Dev.mayTrain (d : Dev) (n : Nat) : Bool := d.flag (Reg.lnkCfg n) F.lnkCfgEnable && !(d.link n).edgeDead

/-- A training that fails leaves the port down with its cause. -/
def Dev.trainFails (d : Dev) (n cause : Nat) : Dev := (d.portDown n cause).setFlag (Reg.lnkCtl n) F.lnkCtlRetrain false

/-- The outcome of a full training (R366). -/
def Dev.fullTrain (d : Dev) (n : Nat) (t : Training) : Dev :=
  if !d.mayTrain n then d
  else
    let d := d.settleStrikes n
    let eq := orNat t.eqFailed.toNat (d.manifestLanes n)
    let failed := orNat eq t.berFailed.toNat
    if !t.signal then d.trainFails n 1
    else if 2 ≤ countLanes eq then d.trainFails n 2
    else if 2 ≤ countLanes failed ∨ !t.skewOk then d.trainFails n 3
    else if !t.reply then d.trainFails n 8
    else
      let d := d.meetPeer n t
      match d.fecMode n t, d.linkLevel n t with
      | none, _ => d.trainFails n 3
      | some _, none => d.trainFails n 4
      | some fec, some level => ((d.modLink n (fun l => { LinkP.idle with strikes := l.strikes })).setLanes n failed).portUp n fec level

/-- FULL_TRAINING ends (R366). -/
def execFullTraining (n : Port) (t : Training) : State → Host.Outcome State Fault Refusal :=
  onDev (fun d => if d.lnkState n = 2 ∨ d.lnkState n = 4 then d else d.fullTrain n t)

/-- FAST_RETRAIN ends: traffic goes on with a resend, or the port goes to full training (R366, R361, R372). -/
def execFastRetrain (n : Port) (t : Training) : State → Host.Outcome State Fault Refusal :=
  onDev (fun d =>
    if d.lnkState n ≠ 3 then d
    else
      let r := Reg.lnkLanes n
      let failed := orNat (orNat (d.fld r F.lnkLanesFailed) (d.fld r F.lnkLanesStruck)) t.berFailed.toNat
      let two := decide (2 ≤ countLanes failed)
      if t.signal && t.skewOk && t.reply && !two && (d.fecMode n t).isSome && (d.linkLevel n t).isSome then
        let d := d.modLink n (fun l => { l with resend := l.replay, fails := 0, failPool0 := false, awaiting := false, nak := false })
        (d.meetPeer n t).setFld (Reg.lnkStatus n) F.lnkStatusState 2
      else (d.portDown n (if two then 3 else 5)).setFld (Reg.lnkStatus n) F.lnkStatusState 1)

/-- SIGNAL_DETECT_RETRY: a port that found no signal tries again every 100 ms (R366, R489). -/
def execSignalDetectRetry (n : Port) : State → Host.Outcome State Fault Refusal :=
  onDev (fun d =>
    if d.mayTrain n && !d.flag (Reg.lnkStatus n) F.lnkStatusUp && d.fld (Reg.lnkStatus n) F.lnkStatusDownCause == 1 then
      d.setFld (Reg.lnkStatus n) F.lnkStatusState 1
    else d)

/-- CAPABILITY_TIMEOUT: no reply within 1 ms: cause 0x8 (R366). -/
def execCapabilityTimeout (n : Port) : State → Host.Outcome State Fault Refusal :=
  onDev (fun d => if d.lnkState n = 1 ∨ d.lnkState n = 3 then d.trainFails n 8 else d)

/-- RETRAIN: a full training starts (R366). -/
def Dev.lnkRetrain (d : Dev) (n : Nat) : Dev :=
  if d.mayTrain n then ((d.portDown n 0).setFld (Reg.lnkStatus n) F.lnkStatusState 1).setFlag (Reg.lnkCtl n) F.lnkCtlRetrain true else d

/-- WIDE: refused while a lane is struck or failed (R374). -/
def Dev.lnkWide (d : Dev) (n : Nat) (wide : Bool) : Dev :=
  let r := Reg.lnkLanes n
  let ok := d.fld r F.lnkLanesFailed == 0 && d.fld r F.lnkLanesStruck == 0 && d.flag (Reg.lnkStatus n) F.lnkStatusSpareOk
  let st := d.lnkState n
  if wide && ok && (st == 2 || st == 4) then
    (d.setFlag (Reg.lnkCtl n) F.lnkCtlWide true).setFld (Reg.lnkStatus n) F.lnkStatusState 4
  else
    let d := d.setFlag (Reg.lnkCtl n) F.lnkCtlWide false
    if st = 4 then d.setFld (Reg.lnkStatus n) F.lnkStatusState 2 else d

/-- A write of LNK_CFG: ENABLE 0 takes the port down, 1 lets it train (R489). -/
def Dev.lnkCfgWrite (d : Dev) (n v : Nat) : Dev :=
  let was := d.flag (Reg.lnkCfg n) F.lnkCfgEnable
  let d := d.setReg (Reg.lnkCfg n) (v % 2 ^ 24)
  let now := decide (v % 2 = 1)
  if was && !now then d.portDown n 7
  else if !was && now && !(d.link n).edgeDead then (d.setFld (Reg.lnkStatus n) F.lnkStatusState 1).setFld (Reg.lnkStatus n) F.lnkStatusDownCause 0
  else d

/-- LNK_RETRAIN (R366). -/
def execLnkRetrain (m : Master) (n : Port) : State → Host.Outcome State Fault Refusal :=
  onDev (fun d => if Dev.maySet m (Reg.lnkCtl n) then d.lnkRetrain n else d)
/-- LNK_WIDE: bit 1 of the value (R374). -/
def execLnkWide (m : Master) (n : Port) (v : Word) : State → Host.Outcome State Fault Refusal :=
  onDev (fun d => if Dev.maySet m (Reg.lnkCtl n) then d.lnkWide n (v.getLsbD 1) else d)
/-- LNK_CFG_ENABLE: a write of LNK_CFG (R489). -/
def execLnkCfgEnable (m : Master) (n : Port) (v : Word) : State → Host.Outcome State Fault Refusal :=
  onDev (fun d => if Dev.maySet m (Reg.lnkCfg n) then d.lnkCfgWrite n v.toNat else d)

/-! ## Calibration, swaps, strikes (R369 to R374) -/

/-- Lane carries data: neither the spare, struck nor failed. -/
def Dev.laneActive (d : Dev) (n k : Nat) : Bool :=
  let r := Reg.lnkLanes n
  decide (k < 9) && (d.fld r F.lnkLanesSpare != k || d.lnkState n == 4) && d.fld r F.lnkLanesStruck / 2 ^ k % 2 == 0
    && d.fld r F.lnkLanesFailed / 2 ^ k % 2 == 0
def Dev.activeLanes (d : Dev) (n : Nat) : List Nat := (List.range 9).filter (d.laneActive n)
def Dev.spareOk (d : Dev) (n : Nat) : Bool := d.flag (Reg.lnkStatus n) F.lnkStatusSpareOk

def Dev.setMargin (d : Dev) (n k : Nat) (mv ui : Byte) (ce : Half) : Dev :=
  d.setReg (Reg.lnkMargin n k) (mv.toNat + ui.toNat * 2 ^ 8 + ce.toNat * 2 ^ 16)

/-- R371. -/
def Dev.belowMargin (d : Dev) (n : Nat) (mv : Byte) (ce : Half) : Bool :=
  decide (mv.toNat < d.fld (Reg.lnkCfg n) F.lnkCfgMarginMv) || decide (d.fld (Reg.lnkCfg n) F.lnkCfgErrLimit * 64 < ce.toNat)

/-- The spare carries lane `k` from now on. -/
def Dev.spareTakes (d : Dev) (n k : Nat) : Dev :=
  ((d.setFld (Reg.lnkLanes n) F.lnkLanesCarries k).satFld (Reg.lnkSwaps n) F.lnkSwapsSwaps 1).noSpare n

def Dev.strike (d : Dev) (n k : Nat) : Dev :=
  let r := Reg.lnkLanes n
  (d.setFld r F.lnkLanesStruck (orNat (d.fld r F.lnkLanesStruck) (2 ^ k))).logEv 1 6 n 2 [w32 k, w32 (d.reg (Reg.lnkMargin n k))]

/-- The idle spare is adapted and measured, after each full pass (R369). -/
def Dev.calSpare (d : Dev) (n : Nat) (eyeMv eyeUi : Byte) (ce : Half) : Dev :=
  let k := d.fld (Reg.lnkLanes n) F.lnkLanesSpare
  let d := (d.setMargin n k eyeMv eyeUi ce).modLink n (fun l => { l with calNext := 0 })
  if d.belowMargin n eyeMv ce then (d.strike n k).noSpare n else d

/-- CALIBRATION_LANE: the rotation's next lane is adapted and measured with the spare in its place; below margin it is struck
and not swapped back. The last active lane ends a pass, and the idle spare follows it (R369, R371). -/
def execCalibrationLane (n : Port) (eyeMv eyeUi : Byte) (ce : Half) : State → Host.Outcome State Fault Refusal :=
  onDev (fun d =>
    if d.lnkState n ≠ 2 ∨ !d.flag (Reg.lnkCfg n) F.lnkCfgCalEn ∨ !d.spareOk n then d
    else if (d.link n).calNext = 9 then d.calSpare n eyeMv eyeUi ce
    else
      let ls := d.activeLanes n
      let l := d.link n
      let k := match ls.find? (fun k => decide (l.calNext ≤ k)) with | some k => k | none => ls.headD 0
      let last := (ls.filter (fun j => decide (k < j))).isEmpty
      let d := (d.setMargin n k eyeMv eyeUi ce).satFld (Reg.lnkSwaps n) F.lnkSwapsSwaps 1
      let d := d.setLink n { l with calNext := if last then 9 else k + 1 }
      let d := if last then d.satFld (Reg.lnkSwaps n) F.lnkSwapsPasses 1 else d
      if d.belowMargin n eyeMv ce then ((d.strike n k).setFld (Reg.lnkLanes n) F.lnkLanesCarries k).noSpare n
      else d.satFld (Reg.lnkSwaps n) F.lnkSwapsSwaps 1)

/-- A swap of the spare for lane `k`: done once 64 codewords are equal, else retried after 1 ms (R370). -/
def Dev.swap (d : Dev) (n k : Nat) (found : Bool) : Dev :=
  if found then (d.spareTakes n k).modLink n (fun l => { l with retry := none })
  else d.modLink n (fun l => { l with retry := some k })

/-- HITLESS_SWAP (R370). -/
def execHitlessSwap (n : Port) (lane : Lane) (found : Bool) : State → Host.Outcome State Fault Refusal :=
  onDev (fun d =>
    if d.lnkState n ≠ 2 ∨ !d.spareOk n ∨ d.fld (Reg.lnkLanes n) F.lnkLanesSpare = lane.val then d else d.swap n lane found)

/-- SWAP_RETRY: 1 ms after an abandoned swap (R370). -/
def execSwapRetry (n : Port) (found : Bool) : State → Host.Outcome State Fault Refusal :=
  onDev (fun d =>
    match (d.link n).retry with
    | some k => if d.lnkState n ≠ 2 ∨ !d.spareOk n then d else d.swap n k found
    | none => d)

/-- LANE_ERROR_WINDOW: a lane's 10 ms window ends; below margin it is struck, and waits for its swap (R371). -/
def execLaneErrorWindow (n : Port) (lane : Lane) (eyeMv : Byte) (ce : Half) : State → Host.Outcome State Fault Refusal :=
  onDev (fun d =>
    if !d.carrying n || !d.laneActive n lane then d
    else
      let r := Reg.lnkMargin n lane
      let d := (d.setFld r F.lnkMarginEyeMv eyeMv.toNat).setFld r F.lnkMarginCe10ms ce.toNat
      if d.belowMargin n eyeMv ce then
        let d := d.strike n lane
        if d.spareOk n && d.lnkState n == 2 then d.modLink n (fun l => { l with retry := some lane.val }) else d
      else d)

/-- LOSS_OF_LOCK: the spare takes over and the port resends; in wide mode it returns to eight lanes; without a spare it
retrains (R372, R374). -/
def execLossOfLock (n : Port) (lane : Lane) : State → Host.Outcome State Fault Refusal :=
  onDev (fun d =>
    if !d.carrying n || !d.laneActive n lane then d
    else
      let d := d.lnkFault n 4 7
      let d := d.modLink n (fun l => { l with resend := l.replay })
      let r := Reg.lnkLanes n
      let d := d.setFld r F.lnkLanesFailed (orNat (d.fld r F.lnkLanesFailed) (2 ^ lane.val))
      if d.lnkState n = 4 then
        let d := (d.lnkWide n false).setFld r F.lnkLanesCarries (if d.fld r F.lnkLanesSpare = lane.val then noLane else lane)
        d.noSpare n
      else if d.spareOk n then d.spareTakes n lane
      else d.setFld (Reg.lnkStatus n) F.lnkStatusState 3)

end Sys2Proof.Machine
end

