-- ==== Sys2Proof/Machine/Approx.lean ====
section
/-! DEFINITION. Sys2Proof/Machine/Approx.lean: the functions whose results the spec bounds by an error (R94, R113, R298): their
values to well over 100 bits, and the encodings that lie within the bound of such a value. Which of these a device gives is
Config.ulpPick (log entry 11). -/

namespace Sys2Proof.Num

/-! ## Fixed point: integers in units of 2^-320 -/

def fxBits : Nat := 320
def fxOne : Nat := 2 ^ fxBits
def piFx : Nat :=
  0x3243f6a8885a308d313198a2e03707344a4093822299f31d0082efa98ec4e6c89452821e638d01377

/-- Toward minus infinity. -/
def Dy.fx (d : Dy) : Int := if -(fxBits : Int) ≤ d.exp then d.units (-fxBits) else d.units d.exp / 2 ^ (-(fxBits : Int) - d.exp).toNat
def fxDy (i : Int) : Dy := ⟨decide (i < 0), i.natAbs, -fxBits⟩

/-- `n` more terms z^(2i+1) / (2i+1), from i, with `t` = z^(2i+1) and `q` = z². -/
def atanhTerms (q : Nat) : Nat → Nat → Nat → Nat
  | 0, _, _ => 0
  | n + 1, i, t => t / (2 * i + 1) + atanhTerms q n (i + 1) (t * q / fxOne)

/-- atanh of z from 0 to 1/3. -/
def atanhFx (z : Nat) : Nat := atanhTerms (z * z / fxOne) 110 0 z
def ln2Fx : Nat := 2 * atanhFx (fxOne / 3)

/-- `n` more terms of the series of e^r after the term `t` = r^i / i!. -/
def expTerms (r : Nat) : Nat → Nat → Nat → Nat
  | 0, _, _ => 0
  | n + 1, i, t => t + expTerms r n (i + 1) (t * r / fxOne / (i + 1))

/-- e^x: a power of two times the series of what is left. -/
def expFx (x : Int) : Dy := ⟨false, expTerms (x % ln2Fx).toNat 90 0 fxOne, x / ln2Fx - fxBits⟩

/-- `n` more terms 2^i x^(2i+1) / (2i+1)!!, `t` being the one at i and `q` = 2 x². -/
def erfTerms (q : Nat) : Nat → Nat → Nat → Nat
  | 0, _, _ => 0
  | n + 1, i, t => t + erfTerms q n (i + 1) (t * q / fxOne / (2 * i + 3))

/-! ## The functions -/

def dyOne : Dy := ⟨false, 1, 0⟩
def Dy.negate (d : Dy) : Dy := { d with neg := !d.neg }
def Dy.magn (d : Dy) : Dy := { d with neg := false }
/-- Is |d| at least 2^n? -/
def Dy.reaches (d : Dy) (n : Int) : Bool := d.man != 0 && decide (n ≤ Nat.log2 d.man + d.exp)
/-- d, or ±256 where it is larger: e^±256 lies beyond every format, and below every smallest subnormal. -/
def Dy.bound256 (d : Dy) : Dy := if d.reaches 8 then ⟨d.neg, 256, 0⟩ else d

def Dy.expOf (d : Dy) : Dy := expFx d.bound256.fx
def Dy.exp2Of (d : Dy) : Dy :=
  let x := d.bound256.fx
  let r := expFx (x % fxOne * ln2Fx / fxOne)
  { r with exp := r.exp + x / fxOne }
/-- The logarithm of a positive value, in units of 2^-320. -/
def Dy.lnFx (d : Dy) : Int :=
  let k := Nat.log2 d.man
  let m := d.man * 2 ^ fxBits / 2 ^ k
  (k + d.exp) * ln2Fx + 2 * atanhFx ((m - fxOne) * fxOne / (m + fxOne))
def Dy.lnOf (d : Dy) : Dy := fxDy d.lnFx
def Dy.log2Of (d : Dy) : Dy := fxDy (d.lnFx * fxOne / ln2Fx)
def Dy.sigmoidOf (d : Dy) : Dy := dyOne.div (dyOne.add d.negate.expOf)
def Dy.siluOf (d : Dy) : Dy := d.mul d.sigmoidOf
/-- Below 2^-30 the argument itself, whose relative error is under 2^-60. -/
def Dy.tanhOf (d : Dy) : Dy :=
  if !d.reaches (-30) then d
  else
    let e := ({ d.magn with exp := d.exp + 1 } : Dy).negate.expOf
    { (dyOne.add e.negate).div (dyOne.add e) with neg := d.neg }
/-- 2/√π, in units of 2^-320. -/
def erfFactor : Nat := isqrt (4 * fxOne ^ 3 / piFx)
/-- erf: 2/√π x for the smallest arguments, 1 from 16 on, else 2/√π e^(−x²) Σ 2^n x^(2n+1) / (2n+1)!!. -/
def Dy.erfOf (d : Dy) : Dy :=
  if !d.reaches (-30) then d.mul (fxDy erfFactor)
  else if d.reaches 4 then ⟨d.neg, 1, 0⟩
  else
    let x := d.magn.fx.toNat
    let q := x * x / fxOne
    { ((fxDy erfFactor).mul (expFx (-q))).mul (fxDy (erfTerms (2 * q) 1000 0 x)) with neg := d.neg }
/-- x Φ(x); below −16 it is nearer to zero than every subnormal of FP32. -/
def Dy.geluErfOf (d : Dy) : Dy :=
  if d.reaches 4 then (if d.neg then ⟨true, 1, -400⟩ else d)
  else d.mul ((dyOne.add (d.mul (fxDy (isqrt (fxOne * fxOne / 2)))).erfOf).mul ⟨false, 1, -1⟩)
/-- x (1 + tanh u) / 2 = x sigmoid(2u), with u = √(2/π) (x + 0.044715 x³). -/
def Dy.geluTanhOf (d : Dy) : Dy :=
  let c : Dy := (⟨false, 44715, 0⟩ : Dy).div ⟨false, 1000000, 0⟩
  let u := (fxDy (isqrt (2 * fxOne ^ 3 / piFx))).mul (d.add (c.mul (d.mul (d.mul d))))
  d.mul ({ u with exp := u.exp + 1 } : Dy).sigmoidOf

/-! ## Encodings within an error -/

/-- The exponent of an ulp of the format where the value lies. -/
def FloatFmt.ulpExp (f : FloatFmt) (a : Dy) : Int :=
  (if a.man = 0 then 1 - f.bias else max (Nat.log2 a.man + a.exp) (1 - f.bias)) - f.mb

/-- Is `v` within `k` ulp of `a`? The last 2^-50 of `a` is the doubt of the values above. -/
def FloatFmt.within (f : FloatFmt) (k : Nat) (a v : Dy) : Bool :=
  !((⟨false, k, f.ulpExp a⟩ : Dy).add ⟨false, a.man, a.exp - 50⟩).lt (v.add a.negate).magn

/-- The signed place on the continued grid of the format (R53) of a value cut to it, moved by `n`. -/
def FloatFmt.placeBy (f : FloatFmt) (a : Dy) (n : Int) : Bool × Nat :=
  let m : Int := f.roundMag .rz a.man a.exp + n
  (if m < 0 then !a.neg else a.neg, m.natAbs)

/-- The places within `k` ulp of `a`; the one just below it is always one of them. -/
def FloatFmt.places (f : FloatFmt) (k : Nat) (a : Dy) : List (Bool × Nat) :=
  ((List.range 8).map (fun i : Nat => f.placeBy a ((i : Int) - 4))).filter (fun c => f.within k a (f.grid c.1 c.2))

/-- The one that a device gives; a magnitude beyond max finite saturates (R53). -/
def FloatFmt.near (f : FloatFmt) (k : Nat) (a : Dy) (pick : Nat) : Conv :=
  let cs := f.places k a
  let c := cs.getD (pick % cs.length) (f.placeBy a 0)
  if c.2 > f.maxCode then ⟨f.signed c.1 f.maxCode, true, false⟩ else ⟨f.signed c.1 c.2, false, false⟩

/-- A special function by its number (R113). -/
def sfuValue (fn : Nat) (d : Dy) : Dy :=
  match fn with
  | 2 => d.expOf
  | 3 => d.exp2Of
  | 4 => d.lnOf
  | 5 => d.log2Of
  | 6 => d.sigmoidOf
  | 7 => d.tanhOf
  | 8 => d.siluOf
  | _ => d.erfOf

/-- Its bound: 1 ulp, for SiLU and erf 2; in binary16's subnormal range 1 (R113). -/
def sfuUlps (fn : Nat) (f : FloatFmt) (a : Dy) : Nat :=
  if fn < 8 then 1 else if f = binary16 ∧ !a.reaches (1 - f.bias) then 1 else 2

/-- A special function of a finite value. -/
def sfuNear (fn : Nat) (bin16 : Bool) (x : Half) (d : Dy) : Conv :=
  let f := if bin16 then binary16 else bf16
  let a := sfuValue fn d
  f.near (sfuUlps fn f a) a (Config.ulpPick (fn + 16 * b2n bin16) x.toNat)

/-- An activation of a finite value (R94). -/
def actNear (c : Nat) (y : Word) (d : Dy) : NV :=
  let a := match c with
    | 2 => d.geluErfOf
    | 3 => d.geluTanhOf
    | 4 => d.siluOf
    | 5 => d.sigmoidOf
    | _ => d.tanhOf
  fp32.dec (fp32.near 2 a (Config.ulpPick (32 + c) y.toNat)).code

/-- prsqrt of a finite positive value (R298). -/
def prsqrtNear (x : Word) (d : Dy) : NV := fp32.dec (fp32.near 1 (dyOne.div d).sqrt (Config.ulpPick 64 x.toNat)).code

end Sys2Proof.Num
end

