-- ==== Sys2Proof/Machine/Units.lean ====
section
/-! DEFINITION. Sys2Proof/Machine/Units.lean: the vector tile's special-function unit, reduction unit and quantiser (R112 to
R116, R147). -/

namespace Sys2Proof.Machine
open Sys2Proof.Num

/-! ## Queues -/

/-- An instruction enters its unit's queue of four; a full queue stalls issue. -/
def enqueueSfu (h : Iss) (i : Instr) (fn : Nat) (bin16 : Bool) (d a : R5) : State → Host.Outcome State Fault Refusal :=
  tileInstr h i { cls := 0x0C, fn := fn + 16 * b2n bin16, v := [d, a] } (fun dev k g =>
    if 4 ≤ (dev.tile h.slot).sfu.length then .stall dev
    else .done (dev.modTile h.slot (fun t => { t with sfu := t.sfu ++ [⟨fn, g, d, 0, 0, k.vreg a, true, bin16, 0, k.pc⟩] })))

/-- A row in the store must lie in it, 64-byte aligned (R130, R147). -/
def enqueueRed (h : Iss) (i : Instr) (fn : Nat) (d a b : R5) (vec bin16 : Bool) : State → Host.Outcome State Fault Refusal :=
  tileInstr h i { cls := 0x0D, fn := fn + 8 * b2n vec + 16 * b2n bin16, s := d :: (if vec then [] else [a, b]), v := if vec then [a] else [] }
    (fun dev k g =>
      if 4 ≤ (dev.tile h.slot).red.length then .stall dev
      else if !vec && !localOk (k.sreg a) 64 (2 * (k.sreg b).toNat) then .fault dev 2 (k.sreg a)
      else .done (dev.modTile h.slot (fun t => { t with
        red := t.red ++ [⟨fn, g, d, k.sreg a, if vec then 128 else k.sreg b, k.vreg a, vec, bin16, 0, k.pc⟩] })))

/-- FMT 0x0 to 0x4, bits [31:28] 0, STATS_G and N 0 in qrow (R147). -/
def quantLegal (fn : Nat) (hi : Word) : Bool :=
  let w := hi.toNat
  decide (bitsAt w 16 4 ≤ 4) && decide (w < 2 ^ 28) && (fn != 0 || (bitsAt w 12 4 == 0 && bitsAt w 20 8 == 0))

def enqueueQuant (h : Iss) (i : Instr) (fn : Nat) (a b : R5) (hi : Word) : State → Host.Outcome State Fault Refusal :=
  tileInstr h i { cls := 0x0E, fn := fn, long := true, legal := quantLegal fn hi, s := [a, b] }
    (fun dev k g =>
      if 4 ≤ (dev.tile h.slot).qnt.length then .stall dev
      else .done (dev.modTile h.slot (fun t => { t with qnt := t.qnt ++ [⟨fn, g, 0, k.sreg a, k.sreg b, 0, false, false, hi, k.pc⟩] })))

/-- VRCP (R113, R147). -/
def execVrcp (h : Iss) (d a : R5) (bin16 : Bool) : State → Host.Outcome State Fault Refusal := enqueueSfu h (.vrcp h d a bin16) 0 bin16 d a
/-- VRSQRT (R113, R147). -/
def execVrsqrt (h : Iss) (d a : R5) (bin16 : Bool) : State → Host.Outcome State Fault Refusal := enqueueSfu h (.vrsqrt h d a bin16) 1 bin16 d a
/-- VEXP (R113, R147). -/
def execVexp (h : Iss) (d a : R5) (bin16 : Bool) : State → Host.Outcome State Fault Refusal := enqueueSfu h (.vexp h d a bin16) 2 bin16 d a
/-- VEXP2 (R113, R147). -/
def execVexp2 (h : Iss) (d a : R5) (bin16 : Bool) : State → Host.Outcome State Fault Refusal := enqueueSfu h (.vexp2 h d a bin16) 3 bin16 d a
/-- VLOG (R113, R147). -/
def execVlog (h : Iss) (d a : R5) (bin16 : Bool) : State → Host.Outcome State Fault Refusal := enqueueSfu h (.vlog h d a bin16) 4 bin16 d a
/-- VLOG2 (R113, R147). -/
def execVlog2 (h : Iss) (d a : R5) (bin16 : Bool) : State → Host.Outcome State Fault Refusal := enqueueSfu h (.vlog2 h d a bin16) 5 bin16 d a
/-- VSIGM (R113, R147). -/
def execVsigm (h : Iss) (d a : R5) (bin16 : Bool) : State → Host.Outcome State Fault Refusal := enqueueSfu h (.vsigm h d a bin16) 6 bin16 d a
/-- VTANH (R113, R147). -/
def execVtanh (h : Iss) (d a : R5) (bin16 : Bool) : State → Host.Outcome State Fault Refusal := enqueueSfu h (.vtanh h d a bin16) 7 bin16 d a
/-- VSILU (R113, R147). -/
def execVsilu (h : Iss) (d a : R5) (bin16 : Bool) : State → Host.Outcome State Fault Refusal := enqueueSfu h (.vsilu h d a bin16) 8 bin16 d a
/-- VERF (R113, R147). -/
def execVerf (h : Iss) (d a : R5) (bin16 : Bool) : State → Host.Outcome State Fault Refusal := enqueueSfu h (.verf h d a bin16) 9 bin16 d a
/-- VRED_SUM (R114, R147). -/
def execVredSum (h : Iss) (d a b : R5) (vec bin16 : Bool) : State → Host.Outcome State Fault Refusal := enqueueRed h (.vredSum h d a b vec bin16) 0 d a b vec bin16
/-- VRED_SUMSQ (R114, R147). -/
def execVredSumsq (h : Iss) (d a b : R5) (vec bin16 : Bool) : State → Host.Outcome State Fault Refusal := enqueueRed h (.vredSumsq h d a b vec bin16) 1 d a b vec bin16
/-- VRED_MIN (R114, R147). -/
def execVredMin (h : Iss) (d a b : R5) (vec bin16 : Bool) : State → Host.Outcome State Fault Refusal := enqueueRed h (.vredMin h d a b vec bin16) 2 d a b vec bin16
/-- VRED_MAX (R114, R147). -/
def execVredMax (h : Iss) (d a b : R5) (vec bin16 : Bool) : State → Host.Outcome State Fault Refusal := enqueueRed h (.vredMax h d a b vec bin16) 3 d a b vec bin16
/-- VRED_AMAX (R114, R147). -/
def execVredAmax (h : Iss) (d a b : R5) (vec bin16 : Bool) : State → Host.Outcome State Fault Refusal := enqueueRed h (.vredAmax h d a b vec bin16) 4 d a b vec bin16
/-- QROW: two-pass (R115, R147). -/
def execQrow (h : Iss) (a b : R5) (hi : Word) : State → Host.Outcome State Fault Refusal := enqueueQuant h (.qrow h a b hi) 0 a b hi
/-- QMERGE: stats-merge (R115, R147). -/
def execQmerge (h : Iss) (a b : R5) (hi : Word) : State → Host.Outcome State Fault Refusal := enqueueQuant h (.qmerge h a b hi) 1 a b hi

/-! ## Special functions (R113) -/

/-- A special result that the spec leaves unstated, with its outcomes. -/
def sfuOpen (fn : Nat) (bin16 : Bool) (x : Half) : Conv :=
  let f := if bin16 then binary16 else bf16
  let r := Config.sfu fn bin16 x
  ⟨r.toNat, r.toNat % 2 ^ 15 == f.maxCode && Config.sfuSat fn bin16 x, !(f.dec r.toNat).isFinite⟩

/-- 1, as the special results of R113 need it; `neg` for −1. -/
def sfuOne (f : FloatFmt) (neg : Bool) : Conv := f.conv .rne (.fin ⟨neg, 1, 0⟩)

/-- A special function of one lane. Reciprocals are correctly rounded, the others lie within their bound; a NaN gives the
canonical NaN. -/
def sfuLane (fn : Nat) (bin16 : Bool) (x : Half) : Conv :=
  let f := if bin16 then binary16 else bf16
  let cv := f.conv .rne
  match fn, f.dec x.toNat with
  | _, .nan => cv .nan
  | 0, .inf n => cv (.fin ⟨n, 0, 0⟩)
  | 0, .fin d => if d.man = 0 then cv (.inf d.neg) else cv (one.div (.fin d))
  | 1, .inf n => if n then cv .nan else cv zero
  | 1, .fin d => if d.man = 0 then (if d.neg then sfuOpen 1 bin16 x else cv (.inf false)) else if d.neg then cv .nan
      else cv (Num.NV.sqrt (one.div (.fin d)))
  | 2, .inf n => if n then cv zero else cv (.inf false)
  | 3, .inf n => if n then cv zero else cv (.inf false)
  | 4, .inf n => if n then cv .nan else sfuOpen 4 bin16 x
  | 5, .inf n => if n then cv .nan else sfuOpen 5 bin16 x
  | 4, .fin d => if d.man = 0 then cv (.inf true) else if d.neg then cv .nan else sfuNear 4 bin16 x d
  | 5, .fin d => if d.man = 0 then cv (.inf true) else if d.neg then cv .nan else sfuNear 5 bin16 x d
  | 6, .inf n => if n then cv zero else sfuOne f false
  | 7, .inf n => sfuOne f n
  | 8, .inf n => if n then cv (.fin ⟨true, 0, 0⟩) else cv (.inf false)
  | 9, .inf n => sfuOne f n
  | n, .fin d => sfuNear n bin16 x d
  | n, .inf _ => sfuOpen n bin16 x

def Dev.sfuResult (d : Dev) (p : Nat) (e : VEnt) : Dev :=
  let cs := (List.range 128).map (fun i => sfuLane e.fn e.bin16 (lane e.vin i))
  let on := (List.range 128).filter (fun i => e.g.getLsbD i)
  let at_ := fun i => cs.getD i ⟨0, false, false⟩
  (d.modCore p 0 (fun k => k.putLanes e.g e.d (fun i => (at_ i).code))).vecFlags p (on.any (fun i => (at_ i).sat)) (on.any (fun i => (at_ i).nf))

/-! ## Reductions (R114) -/

/-- Sum and sum of squares start from +0, minimum and maximum from the infinities, amax from +0. -/
def redIdentity (op : Nat) : NV := if op = 2 then .inf false else if op = 3 then .inf true else zero

def redOp (op : Nat) (a b : NV) : NV :=
  if op ≤ 1 then add32 a b else if op = 2 then (if b.ltZ a then b else a) else if a.ltZ b then b else a

/-- What one element brings: sumsq squares it with one rounding; minimum, maximum and amax take finite elements only. -/
def redElem (op : Nat) (v : NV) : NV :=
  if op = 0 then v else if op = 1 then mul32 v v
  else if !v.isFinite then redIdentity op else if op = 4 then v.abs else v

/-- One level of the pairwise tree. -/
def redPairs (op : Nat) : List NV → List NV
  | a :: b :: t => redOp op a b :: redPairs op t
  | l => l

/-- Seven levels over 128 lanes. -/
def redTree (op : Nat) (t : List NV) : NV :=
  ((List.range 7).foldl (fun t _ => redPairs op t) t).headD (redIdentity op)

def rowReduce (op : Nat) (row : List NV) : NV :=
  (List.range ((row.length + 127) / 128)).foldl (fun acc c =>
    redOp op acc (redTree op ((List.range 128).map (fun i =>
      match row[128 * c + i]? with | some v => redElem op v | none => redIdentity op)))) (redIdentity op)

def Dev.redResult (d : Dev) (p : Nat) (e : VEnt) : Dev :=
  let f := if e.bin16 then binary16 else bf16
  let n := e.b.toNat
  let rd := if e.vec then (d, true) else d.readStore p e.a.toNat (2 * n) 9
  if !rd.2 then rd.1.progFault p 0 0x0D (e.fn + 8 * b2n e.vec + 16 * b2n e.bin16) e.pc 4 e.a
  else
    let d := rd.1
    let codes := if e.vec then (List.range 128).map (fun i => (lane e.vin i).toNat)
      else let bs := d.bytes (tileBase p + e.a.toNat) (2 * n); (List.range n).map (fun i => natAt bs (2 * i) 2)
    let row := codes.map f.dec
    let d := d.modCore p 0 (fun k => k.setS e.d (w64 (to32 (rowReduce e.fn row))))
    d.orBit (Reg.tileVecSticky p) 2 (row.any (fun v => !v.isFinite))

/-! ## Quantiser (R115, R116) -/

/-- Codes of 4, 8 or 16 bits laid from byte 0; the half of a last byte that no code fills keeps what it held. -/
def packCodes (old : Nat → Byte) (w : Nat) (cs : List Nat) : List Byte :=
  if w = 4 then (List.range ((cs.length + 1) / 2)).map (fun j =>
    let hi := match cs[2 * j + 1]? with | some c => c | none => (old j).toNat / 16
    BitVec.ofNat 8 (cs.getD (2 * j) 0 + 16 * hi))
  else (cs.map (fun c => toBytes (w / 8) c)).flatten

/-- A write of a hardware party into a slot, refused where a bank has another owner (R176). -/
def Dev.hwWrite (d : Dev) (p a : Nat) (bs : List Byte) (cls : Nat) : Option Dev :=
  if d.mayWrite p a bs.length cls then some (d.store (tileBase p + a) bs) else none

/-- The quantiser's four-bit fields of the high word: its galleys and the format. A row of more than 65,536 elements, for which
R115 gives no outcome, runs where its slots hold it (log entry 117). -/
def qField (e : VEnt) (l : Nat) : Nat := bitsAt e.hi.toNat l 4

/-- One row, or why not: a wait, a galley fault, a store error. -/
inductive RowOut where
  | done (d : Dev)
  | wait (d : Dev)
  | bad (d : Dev) (n : Need) (kind : Nat)
  | ue (d : Dev)

/-- Statistics of the row: from its elements, or merged from the stats slot's pairs that report a finite element. -/
def mergeStats (bs : List Byte) (n : Nat) : Range :=
  (List.range n).foldl (fun r i => Range.merge r (Range.ofBits (natAt bs (8 * i) 4) (natAt bs (8 * i + 4) 4))) none

/-- The slots of one row of L elements, one for each galley field (R185). -/
def quantNeeds (e : VEnt) : List Need :=
  let l := e.a.toNat
  let need := fun i c n => ⟨i, qField e (4 * i), c, n⟩
  [need 0 true (round64 (2 * l))]
    ++ (if e.fn = 1 then [need 3 true (round64 (8 * (bitsAt e.hi.toNat 20 8 + 1)))] else [])
    ++ [need 1 false 64, need 2 false (round64 ((l * fmtWidth (qField e 16) + 7) / 8))]

def Dev.quantRow (d : Dev) (p : Nat) (e : VEnt) : RowOut :=
  let l := e.a.toNat
  let fmt := qField e 16
  let n := bitsAt e.hi.toNat 20 8 + 1
  let merge := e.fn == 1
  let needs := quantNeeds e
  match d.slotsFor d p partyQuantiser needs with
  | .bad n k => .bad d n k
  | .shape n => .bad d n 8
  | .wait d' => .wait d'
  | .ok d1 as =>
    let at_ := addrFor needs as
    let r1 := d1.readStore p (at_ 0) (2 * l) 9
    let r2 := if merge then r1.1.readStore p (at_ 3) (8 * n) 9 else (r1.1, true)
    if !r1.2 || !r2.2 then .ue (d.unreserve r2.1 p needs)
    else
      let d2 := r2.1
      let bs := d2.bytes (tileBase p + at_ 0) (2 * l)
      let row := (List.range l).map (fun i => bf16.dec (natAt bs (2 * i) 2))
      let rng := if merge then mergeStats (d2.bytes (tileBase p + at_ 3) (8 * n)) n else row.foldl Range.add none
      let nf := row.any (fun v => !v.isFinite)
      let q := qpeFrom fmt rng nf
      let cs := row.map (qpeEncode q .rne)
      let sat := cs.any (·.sat)
      let q' := { q with sat := sat }
      match d2.hwWrite p (at_ 1) (toBytes 8 q'.word.toNat) ownTile with
      | none => .bad d2 ⟨1, qField e 4, false, 64⟩ 7
      | some d3 =>
        match d3.hwWrite p (at_ 2) (packCodes (fun j => d3.byte (tileBase p + at_ 2 + j)) (fmtWidth fmt) (cs.map (·.code))) ownTile with
        | none => .bad d3 ⟨2, qField e 8, false, 0⟩ 7
        | some d4 =>
          let d5 := (d4.orBit (Reg.tileVecSticky p) 3 sat).orBit (Reg.tileVecSticky p) 4 nf
          .done ((d5.slotsDone p needs).modTile p (fun t => { t with qrows := t.qrows + 1 }))

/-- Rows of the oldest quantise instruction while their slots allow; the last one takes it off the queue. -/
def Dev.quantRows (d : Dev) (p : Nat) (e : VEnt) : Nat → Dev
  | 0 => d.modTile p (fun t => { t with qnt := t.qnt.tail })
  | n + 1 =>
    match d.quantRow p e with
    | .done d' => d'.quantRows p { e with b := w64 n } n
    | .wait d' => d'.modTile p (fun t => { t with qnt := { e with b := w64 (n + 1) } :: t.qnt.tail })
    | .bad d' n kind => d'.galleyFault p 0 0x0E e.fn e.pc n.gal kind n.cons 0
    | .ue d' => d'.progFault p 0 0x0E e.fn e.pc 4 0

/-- VT_UNIT_RESULT: the oldest instruction of the unit completes (R112). -/
def execVtUnitResult (slot : Slot) (u : VtUnit) : State → Host.Outcome State Fault Refusal :=
  onDev (fun d =>
    let t := d.tile slot
    match u with
    | .sfu => match t.sfu with
      | [] => d
      | e :: es => (d.sfuResult slot e).modTile slot (fun t => { t with sfu := es })
    | .red => match t.red with
      | [] => d
      | e :: es => let d := d.redResult slot e; d.modTile slot (fun t => { t with red := if t.red = [] then [] else es })
    | .qnt => match t.qnt with
      | [] => d
      | e :: _ => d.quantRows slot e e.b.toNat)

end Sys2Proof.Machine
end

