-- ==== Sys2Proof/Machine/Matrix.lean ====
section
/-! DEFINITION. Sys2Proof/Machine/Matrix.lean: the matrix tile: banks, streams, accumulation groups, the epilogue, the
matrix instructions and their faults (R78 to R106, R148). -/

namespace Sys2Proof.Machine
open Sys2Proof.Num

/-! ## Shapes (R78, R84) -/

def depthOf (fmt : Nat) : Nat := if fmtWidth fmt = 4 then 128 else 64
/-- Bytes of a bank tile, of a streamed row, and T and the tile slot of a column or paired stream. -/
def bankBytes (fmt : Nat) : Nat := if fmtWidth fmt = 16 then 6144 else 3072
def rowBytes (fmt : Nat) : Nat := if fmtWidth fmt = 16 then 128 else 64
def tileT (fmt : Nat) : Nat := if fmtWidth fmt = 4 then 128 else 64
def tileBytes (fmt : Nat) : Nat := if fmtWidth fmt = 8 then 4096 else 8192

/-- Element `i` of packed codes of `w` bits (R82). -/
def codeAt (bs : List Byte) (w i : Nat) : Nat := if w = 4 then nibbleAt bs i else natAt bs (w / 8 * i) (w / 8)

def Tile.bank (t : Tile) (a b : Nat) : Bank := Sparse.get (fun _ => Bank.empty) t.banks (2 * a + b)
def Tile.setBank (t : Tile) (a b : Nat) (x : Bank) : Tile := { t with banks := Sparse.set (fun _ => Bank.empty) t.banks (2 * a + b) x }
def Tile.group (t : Tile) (a g : Nat) : Group := Sparse.get (fun _ => Group.closed) t.groups (8 * a + g)
def Tile.setGroup (t : Tile) (a g : Nat) (x : Group) : Tile := { t with groups := Sparse.set (fun _ => Group.closed) t.groups (8 * a + g) x }
def Group.at_ (g : Group) (i j : Nat) : Word := Sparse.get (fun _ => (0 : Word)) g.acc (48 * i + j)
def zw : Nat → Word := fun _ => 0

/-! ## Encoding checks (R148) -/

def b0 (b : Bool) : Bool := !b
def matrixLegal (mop : Nat) (f : MFields) : Bool :=
  let one := decide (f.arr.val ≤ 1)
  let z2 := b0 f.bank2 && f.grp2 == 0
  let zs := f.sa == 0 && f.sb == 0
  let fm := decide (f.fmt.val ≤ 6)
  match mop with
  | 0 => one && z2 && f.grp == 0 && f.ep == 0 && zs && fm
  | 1 => one && z2 && b0 f.bank && f.gal == 0 && f.ep == 0 && f.fmt == 0 && f.count == 0 && b0 f.flag && zs
  | 2 => one && z2 && f.ep == 0 && zs && fm
  | 3 => f.arr == 2 && f.ep == 0 && f.count == 0 && b0 f.flag && zs && fm
  | 4 => one && z2 && b0 f.bank && f.gal == 0 && f.fmt == 0 && b0 f.flag
  | 5 => one && z2 && b0 f.bank && f.gal == 0 && f.ep == 0 && f.fmt == 0 && f.count == 0 && b0 f.flag && zs
  | 6 => f.arr == 0 && z2 && b0 f.bank && f.grp == 0 && f.gal == 0 && f.fmt == 0 && f.count == 0 && b0 f.flag && f.sb == 0
  | 7 => decide (f.arr.val ≤ 2) && z2 && b0 f.bank && f.grp == 0 && f.gal == 0 && f.ep == 0 && f.fmt == 0 && f.count == 0 && b0 f.flag && zs
  | _ => false

/-- COUNT: Kv of mload, R of a plain mstream (0 in the column form), ncols of mclose. -/
def countOk (mop : Nat) (f : MFields) : Bool :=
  let n := f.count.toNat
  match mop with
  | 0 => decide (1 ≤ n) && decide (n ≤ depthOf f.fmt)
  | 2 => if f.flag then n == 0 else decide (1 ≤ n) && decide (n ≤ 64)
  | 4 => decide (1 ≤ n) && decide (n ≤ 48)
  | _ => true

/-! ## Queues -/

/-- Is the entry in the queue of array `a`? A paired stream is in both. Closes wait in the epilogue's queue of two. -/
def MEnt.inArray (e : MEnt) (a : Nat) : Bool := e.f.arr.val == a || e.f.arr.val == 2
def Tile.arrQ (t : Tile) (a : Nat) : Nat := (t.mq.filter (fun e => e.mop != mopClose && e.inArray a)).length
def Tile.epQ (t : Tile) (a : Nat) : Nat := (t.mq.filter (fun e => e.mop == mopClose && e.inArray a)).length

def Tile.mqFull (t : Tile) (mop : Nat) (f : MFields) : Bool :=
  if mop = mopClose then decide (2 ≤ t.epQ f.arr)
  else if mop = mopPair then decide (4 ≤ t.arrQ 0) || decide (4 ≤ t.arrQ 1)
  else decide (4 ≤ t.arrQ f.arr)

def mRaise (d : Dev) (h : Iss) (k : Core) (mop : Nat) (f : MFields) (cause : Nat) : Res :=
  .raised (d.matrixFault h.slot k.pc mop cause (f.arr.val % 2) f.grp (b2n f.bank) f.ep)

/-- An instruction that works from its array's queue. -/
def enqueueMatrix (h : Iss) (i : Instr) (mop : Nat) (f : MFields) : State → Host.Outcome State Fault Refusal :=
  tileInstr h i { cls := 0x0F, fn := mop, long := true, legal := matrixLegal mop f, s := if mop = mopClose then [f.sa, f.sb] else [] }
    (fun d k _ =>
      if !countOk mop f then mRaise d h k mop f 3
      else if (d.tile h.slot).mqFull mop f then .stall d
      else .done (d.modTile h.slot (fun t => { t with mq := t.mq ++ [⟨mop, f, k.sreg f.sa, k.sreg f.sb, h.core, k.pc, false, 0⟩] })))

/-- MLOAD (R102). -/
def execMload (h : Iss) (f : MFields) : State → Host.Outcome State Fault Refusal := enqueueMatrix h (.mload h f) 0 f
/-- MOPEN (R87, R102). -/
def execMopen (h : Iss) (f : MFields) : State → Host.Outcome State Fault Refusal := enqueueMatrix h (.mopen h f) 1 f
/-- MSTREAM (R102). -/
def execMstream (h : Iss) (f : MFields) : State → Host.Outcome State Fault Refusal := enqueueMatrix h (.mstream h f) 2 f
/-- MPAIR (R84, R102). -/
def execMpair (h : Iss) (f : MFields) : State → Host.Outcome State Fault Refusal := enqueueMatrix h (.mpair h f) 3 f
/-- MCLOSE (R97, R102). -/
def execMclose (h : Iss) (f : MFields) : State → Host.Outcome State Fault Refusal := enqueueMatrix h (.mclose h f) 4 f
/-- MDROP (R87, R102). -/
def execMdrop (h : Iss) (f : MFields) : State → Host.Outcome State Fault Refusal := enqueueMatrix h (.mdrop h f) 5 f

/-! ## Epilogue descriptors (R93, R95) -/

/-- Bits [lsb + w − 1 : lsb] of word `i`. -/
def epF (e : BitVec 256) (i lsb w : Nat) : Nat := bitsAt (e.toNat / 2 ^ (32 * i)) lsb w

/-- No reserved value or bit, and none of R95's rules broken. -/
def epLegal (e : BitVec 256) : Bool :=
  let o := epF e 0 0 4
  let rnd := epF e 0 4 2
  let qm := epF e 0 6 3
  let point := epF e 1 0 16
  decide (o ≤ 6) && decide (rnd ≠ 3) && decide (epF e 0 12 4 ≤ 7) && decide (epF e 0 16 2 ≠ 3) && decide (epF e 0 20 2 ≠ 3)
    && epF e 0 26 6 == 0 && epF e 1 24 8 == 0 && epF e 2 20 12 == 0 && epF e 3 19 13 == 0 && epF e 4 19 13 == 0
    && epF e 5 19 13 == 0 && epF e 6 16 16 == 0
    && (match qm with
        | 0 => decide (2 ≤ o)
        | 1 => decide (2 ≤ o) && decide (o ≤ 4)
        | 2 => decide (o ≤ 4)
        | 3 => decide (o ≤ 4)
        | _ => false)
    && (qm == 3 || epF e 0 9 3 == 0)
    && (rnd != 1 || (decide (0x100 ≤ point) && decide (point ≤ 0x1FF))) && (point != 0x100 || rnd == 1)
    && epF e 3 0 3 == 0 && epF e 4 0 3 == 0 && epF e 5 0 1 == 0

def Tile.setEp (t : Tile) (e : Nat) (v : BitVec 256) : Tile := { t with eps := Sparse.set (fun _ => (0 : BitVec 256)) t.eps e v }

/-- MEPL: waits for queued closes that use the descriptor, loads 32 bytes at sA and checks them (R93, R102). -/
def execMepl (h : Iss) (f : MFields) : State → Host.Outcome State Fault Refusal :=
  tileInstr h (.mepl h f) { cls := 0x0F, fn := 6, long := true, legal := matrixLegal 6 f, s := [f.sa] } (fun d k _ =>
    if (d.tile h.slot).mq.any (fun e => e.mop == mopClose && e.f.ep == f.ep) then .stall d
    else
      let a := k.sreg f.sa
      loadLocal d h a 32 32 (fun d =>
        let v := BitVec.ofNat 256 (d.nat (tileBase h.slot + a.toNat) 32)
        if epLegal v then .done (d.modTile h.slot (fun t => t.setEp f.ep v)) else mRaise d h k 6 f 4))

/-- MWAIT: every earlier matrix instruction on the named arrays is complete (R102). -/
def execMwait (h : Iss) (f : MFields) : State → Host.Outcome State Fault Refusal :=
  tileInstr h (.mwait h f) { cls := 0x0F, fn := 7, long := true, legal := matrixLegal 7 f } (fun d _ _ =>
    if (d.tile h.slot).mq.any (fun e => f.arr.val == 2 || e.inArray f.arr) then .stall d else .done d)

/-! ## Order (R102, R103) -/

def MEnt.isStream (e : MEnt) : Bool := e.mop == mopStream || e.mop == mopPair
def MEnt.span (t : Tile) (e : MEnt) : Nat := if e.mop = mopClose ∧ epF (t.ep e.f.ep) 0 6 3 = 3 then epF (t.ep e.f.ep) 0 9 3 + 1 else 1

/-- Banks, as 2 × array + bank, that an entry names. -/
def MEnt.banks (e : MEnt) : List Nat :=
  if e.mop = mopLoad ∨ e.mop = mopStream then [2 * e.f.arr.val + b2n e.f.bank]
  else if e.mop = mopPair then [b2n e.f.bank, 2 + b2n e.f.bank2] else []

/-- Groups of one array that a stream of this form fills, from group `g`. -/
def fillOf (e : MEnt) (g : Nat) : List Nat :=
  if e.mop = mopPair ∨ e.f.flag then (if fmtWidth e.f.fmt = 4 then [g, g + 1] else [g]) else [g]

/-- Groups, as 8 × array + group, that an entry names. -/
def MEnt.groups (t : Tile) (e : MEnt) : List Nat :=
  if e.mop = mopLoad then []
  else if e.mop = mopPair then (fillOf e e.f.grp).map id ++ (fillOf e e.f.grp2).map (8 + ·)
  else if e.mop = mopStream then (fillOf e e.f.grp).map (8 * e.f.arr.val + ·)
  else (List.range (e.span t)).map (fun i => 8 * e.f.arr.val + e.f.grp + i)

/-- Galleys that a close writes. -/
def MEnt.outs (t : Tile) (e : MEnt) : List Nat :=
  let w := t.ep e.f.ep
  [epF w 2 0 4] ++ (if epF w 0 6 3 = 3 then [epF w 2 8 4] else []) ++ (if epF w 0 23 1 = 1 then [epF w 2 12 4] else [])

/-- Two entries that share a bank or a group, stream through one array, or close through one epilogue or into one galley, keep
issue order. -/
def MEnt.shares (t : Tile) (a b : MEnt) : Bool :=
  a.banks.any (fun x => b.banks.contains x) || (a.groups t).any (fun x => (b.groups t).contains x)
    || (a.isStream && b.isStream && (a.inArray 0 && b.inArray 0 || a.inArray 1 && b.inArray 1))
    || (a.mop == mopClose && b.mop == mopClose && (a.f.arr == b.f.arr || (a.outs t).any (fun g => (b.outs t).contains g)))

/-- Have the waits of entry `k` ended? -/
def Tile.mayRun (t : Tile) (k : Nat) : Bool :=
  match t.mq[k]? with
  | none => false
  | some e => (t.mq.take k).all (fun x => !x.shares t e)

/-! ## Beginning (R85, R88, R99, R106) -/

/-- A matrix fault of a queued entry. Of an `mpair` the registers name the fore half, whichever half broke the rule (log
entry 121). -/
def Dev.mFault (d : Dev) (p : Nat) (e : MEnt) (cause : Nat) : Dev :=
  d.matrixFault p e.pc e.mop cause (e.f.arr.val % 2) e.f.grp (b2n e.f.bank) e.f.ep
def Dev.mGalley (d : Dev) (p : Nat) (e : MEnt) (g kind : Nat) (consumer : Bool) : Dev :=
  d.galleyFault p 0 0x0F e.mop e.pc g kind consumer 0

/-- Bytes of the slot that a load or a stream takes. -/
def srcBytes (e : MEnt) : Nat :=
  if e.mop = mopLoad then bankBytes e.f.fmt else if e.mop = mopPair ∨ e.f.flag then tileBytes e.f.fmt else rowBytes e.f.fmt

/-- The source galley: a fault kind of R188, or cause 0x3 of R106 as none of those. -/
def Dev.srcCheck (d : Dev) (p : Nat) (e : MEnt) : Option Dev :=
  let x := d.galley p e.f.gal
  match x.refuses true partyArrays with
  | some kind => some (d.mGalley p e e.f.gal kind true)
  | none => if x.slotBytes ≠ srcBytes e then some (d.mFault p e 3) else none

/-- Operand classes of a bank and a stream (R50, R79). -/
def pairable (b : Bank) (fmt : Nat) : Bool := b.valid && fmtWidth b.fmt == fmtWidth fmt && isIntFmt b.fmt == isIntFmt fmt

/-- The cause that stops a stream into the groups `gs` of array `a` with `rows` rows; none: it may begin. -/
def Tile.streamCause (t : Tile) (e : MEnt) (a b : Nat) (g : Nat) : Option Nat :=
  let gs := fillOf e g
  let rows := if e.mop = mopPair ∨ e.f.flag then 64 else e.f.count.toNat
  if gs.length = 2 ∧ g % 2 = 1 then some 3
  else if gs.any (fun g => (t.group a g).st ≠ .open_) then some 1
  else if !pairable (t.bank a b) e.f.fmt then some 2
  else if gs.any (fun g => match (t.group a g).int with | some c => c != isIntFmt e.f.fmt | none => false) then some 2
  else if gs.any (fun g => match (t.group a g).rows with | some r => r != rows | none => false) then some 3
  else none

/-- The first stream fixes class and row count (R88). -/
def Tile.fixGroups (t : Tile) (e : MEnt) (a g : Nat) : Tile :=
  let rows := if e.mop = mopPair ∨ e.f.flag then 64 else e.f.count.toNat
  (fillOf e g).foldl (fun t g => t.setGroup a g { t.group a g with int := some (isIntFmt e.f.fmt), rows := some rows }) t

/-- Array, bank and first group of each half of a stream. -/
def MEnt.halves (e : MEnt) : List (Nat × Nat × Nat) :=
  if e.mop = mopPair then [(0, b2n e.f.bank, e.f.grp.val), (1, b2n e.f.bank2, e.f.grp2.val)]
  else [(e.f.arr.val, b2n e.f.bank, e.f.grp.val)]

/-- An entry's checks, and what its beginning changes. Groups of a span with unequal row counts are cause 0x3 (log entry 120). -/
def Dev.mBegin (d : Dev) (p k : Nat) (e : MEnt) : Dev :=
  let t := d.tile p
  let go := fun (f : Tile → Tile) => d.modTile p (fun t => let t := f t; { t with mq := t.mq.set k { e with begun := true } })
  if e.mop = mopOpen then
    if (t.group e.f.arr e.f.grp).st = .open_ then d.mFault p e 1 else go id
  else if e.mop = mopDrop then go id
  else if e.mop = mopLoad then
    match d.srcCheck p e with
    | some d' => d'
    | none => go id
  else if e.mop = mopClose then
    let a := e.f.arr.val
    let n := e.span t
    let hs := (List.range n).map (fun i => e.f.grp.val + i)
    if 8 < e.f.grp.val + n then d.mFault p e 3
    else if hs.any (fun g => (t.group a g).st ≠ .open_) then d.mFault p e 1
    else if hs.any (fun g => (t.group a g).rows ≠ (t.group a e.f.grp).rows) then d.mFault p e 3
    else go (fun t => hs.foldl (fun t g => t.setGroup a g { t.group a g with st := .closing }) t)
  else
    match e.halves.filterMap (fun h => t.streamCause e h.1 h.2.1 h.2.2) with
    | c :: _ => d.mFault p e c
    | [] =>
      match d.srcCheck p e with
      | some d' => d'
      | none => go (fun t => e.halves.foldl (fun t h => t.fixGroups e h.1 h.2.2) t)

/-- MATRIX_OP_START: entry `k` of the tile's queues begins once its waits are met (R102). -/
def execMatrixOpStart (slot : Slot) (k : Nat) : State → Host.Outcome State Fault Refusal :=
  onDev (fun d =>
    match (d.tile slot).mq[k]? with
    | none => d
    | some e => if !e.begun && (d.tile slot).mayRun k then d.mBegin slot k e else d)

/-! ## Accumulation (R51, R52, R89) -/

/-- An INT32 sum, clamped, with its saturation (R52). -/
def clampInt (i : Int) : Word × Bool :=
  if i > 2147483647 then (0x7FFFFFFF#32, true) else if i < -2147483648 then (0x80000000#32, true) else (BitVec.ofInt 32 i, false)

/-- One accumulation step of a float column: the exact sum of the products and the accumulator, rounded once. 16-bit
products are cut 40 bits below the leading bit of the largest (R51). An infinite operand gives ±max finite, a NaN or
infinity × 0 the canonical NaN, which stays (R52). -/
def cutTo (q : Int) (d : Dy) : Dy := if q ≤ d.exp then d else ⟨d.neg, d.man / 2 ^ (q - d.exp).toNat, q⟩

def leadOf (d : Dy) : Int := Nat.log2 d.man + d.exp

structure AccOut where
  acc : Word
  sat : Bool
  nf : Bool
deriving DecidableEq, Repr

/-- Products that are zero take no part: an accumulator of −0 keeps its sign where all are (log entry 119). -/
def accFloat (wide16 : Bool) (acc : Word) (ps : List NV) : AccOut :=
  match fp32.dec acc.toNat with
  | .nan => ⟨0x7FC00000#32, false, false⟩
  | a =>
    if ps.any (·.isNan) then ⟨0x7FC00000#32, false, true⟩
    else
      let infs := ps.filter (fun v => !v.isFinite)
      if infs ≠ [] then
        let neg := if infs.all (·.signBit) then true else if infs.any (·.signBit) then Config.mixedInf acc else false
        ⟨if neg then 0xFF7FFFFF#32 else 0x7F7FFFFF#32, true, false⟩
      else
        let ds := ps.filterMap (fun v => match v with | .fin d => if d.man = 0 then none else some d | _ => none)
        let ds := if wide16 then
            match (ds.map leadOf).max? with
            | some m => ds.map (cutTo (m - 40))
            | none => ds
          else ds
        let c := fp32.conv .rne (ds.foldl (fun s d => s.add (.fin d)) a)
        ⟨w32 c.code, c.sat, false⟩

/-- Exact products of one streamed row with column `j` of a bank. -/
def products (b : Bank) (fmt : Nat) (row : Nat → Nat) (j : Nat) : List NV :=
  (List.range (depthOf fmt)).map (fun k => (fmtDec fmt (row k)).mul (fmtDec b.fmt (Sparse.get (fun _ => 0) b.codes (48 * k + j))))

def intSum (b : Bank) (fmt : Nat) (row : Nat → Nat) (j : Nat) : Int :=
  ((List.range (depthOf fmt)).foldl (fun s k => s + row k * Sparse.get (fun _ => 0) b.codes (48 * k + j)) 0 : Nat)

/-- Streamed row `i` of a group. -/
def Group.row (g : Group) (b : Bank) (fmt i : Nat) (row : Nat → Nat) : Group :=
  let g := (List.range 48).foldl (fun (g : Group) j =>
    if isIntFmt fmt then
      let c := clampInt ((g.at_ i j).toInt + intSum b fmt row j)
      { g with acc := Sparse.set zw g.acc (48 * i + j) c.1, sat := g.sat || c.2 }
    else
      let c := accFloat (fmtWidth fmt == 16) (g.at_ i j) (products b fmt row j)
      { g with acc := Sparse.set zw g.acc (48 * i + j) c.acc, sat := g.sat || c.sat, nf := g.nf || c.nf }) g
  if isIntFmt fmt then
    let c := clampInt ((Sparse.get zw g.rowsum i).toInt + ((List.range b.kv).foldl (fun s k => s + row k) 0 : Nat))
    { g with rowsum := Sparse.set zw g.rowsum i c.1, sat := g.sat || c.2 }
  else g

/-- Once per stream: KCOUNT adds Kv, COLSUM the bank's column code sums (R89). -/
def Group.endStream (g : Group) (b : Bank) (fmt : Nat) : Group :=
  let kc := clampInt (g.kcount.toInt + b.kv)
  let g := { g with kcount := kc.1, sat := g.sat || kc.2 }
  if isIntFmt fmt then
    (List.range 48).foldl (fun (g : Group) j =>
      let c := clampInt ((Sparse.get zw g.colsum j).toInt + (Sparse.get zw b.colsum j).toInt)
      { g with colsum := Sparse.set zw g.colsum j c.1, sat := g.sat || c.2 }) g
  else g

/-- Each saturation and each non-finite event of `f` sets the group's flag and, in the same cycle, the sticky bit, whatever the
flag was (R91). -/
def Dev.modGroup (d : Dev) (p a g : Nat) (f : Group → Group) : Dev :=
  let x := (d.tile p).group a g
  let y := f { x with sat := false, nf := false }
  ((d.modTile p (fun t => t.setGroup a g { y with sat := x.sat || y.sat, nf := x.nf || y.nf })).orBit
    (Reg.tileMtSticky p) 0 y.sat).orBit (Reg.tileMtSticky p) 1 y.nf

def Dev.endStreams (d : Dev) (p : Nat) (e : MEnt) : Dev :=
  e.halves.foldl (fun d h => (fillOf e h.2.2).foldl (fun d g =>
    d.modGroup p h.1 g (fun x => x.endStream ((d.tile p).bank h.1 h.2.1) e.f.fmt)) d) d

def Dev.mPop (d : Dev) (p k : Nat) : Dev := d.modTile p (fun t => { t with mq := t.mq.eraseIdx k })

/-- A store error at an array's or an epilogue's read: cause 0x4, the PC that queued the work (R169). -/
def Dev.mStoreError (d : Dev) (p : Nat) (e : MEnt) : Dev := d.progFault p 0 0x0F e.mop e.pc 4 0

def intakeOf (e : MEnt) : Nat := if e.f.arr.val = 1 then 6 else 5

/-- The tile of a column or paired stream: row t to the fore array (paired), column t to the aft, or to the named array. -/
def Dev.runTile (d : Dev) (p k : Nat) (e : MEnt) : Dev :=
  match d.hwTake p e.f.gal partyArrays with
  | .bad kind => d.mGalley p e e.f.gal kind true
  | .wait d' => d'
  | .got a d1 =>
    let n := tileT e.f.fmt
    let w := fmtWidth e.f.fmt
    let r := d1.readStore p a (tileBytes e.f.fmt) (intakeOf e)
    if !r.2 then r.1.mStoreError p e
    else
      let bs := r.1.bytes (tileBase p + a) (tileBytes e.f.fmt)
      let d2 := e.halves.foldl (fun d h =>
        let asRows := e.mop = mopPair ∧ h.1 = 0
        (List.range n).foldl (fun d t =>
          d.modGroup p h.1 (h.2.2 + t / 64) (fun x => x.row ((d.tile p).bank h.1 h.2.1) e.f.fmt (t % 64)
            (fun k => codeAt bs w (if asRows then n * t + k else n * k + t)))) d) r.1
      ((d2.endStreams p e).hwDone p e.f.gal true).mPop p k

/-- Rows of a plain stream, one galley slot each, while there are filled slots (R85). -/
def Dev.runRows (d : Dev) (p k : Nat) (e : MEnt) : Nat → Dev
  | 0 => (d.endStreams p e).mPop p k
  | n + 1 =>
    let hold := fun (d : Dev) => d.modTile p (fun t => { t with mq := t.mq.set k { e with row := e.f.count.toNat - (n + 1) } })
    match d.hwTake p e.f.gal partyArrays with
    | .bad kind => d.mGalley p e e.f.gal kind true
    | .wait d' => hold d'
    | .got a d1 =>
      let r := d1.readStore p a (rowBytes e.f.fmt) (intakeOf e)
      if !r.2 then r.1.mStoreError p e
      else
        let bs := r.1.bytes (tileBase p + a) (rowBytes e.f.fmt)
        let d2 := r.1.modGroup p e.f.arr e.f.grp (fun x =>
          x.row ((r.1.tile p).bank e.f.arr (b2n e.f.bank)) e.f.fmt (e.f.count.toNat - (n + 1)) (codeAt bs (fmtWidth e.f.fmt)))
        (d2.hwDone p e.f.gal true).runRows p k e n

/-- A tile slot into a bank, turned or plain, with the column code sums of integer formats (R81 to R83). -/
def bankFrom (bs : List Byte) (f : MFields) : Bank :=
  let w := fmtWidth f.fmt
  let kk := depthOf f.fmt
  let kv := f.count.toNat
  let code := fun k n => codeAt bs w (if f.flag then kk * n + k else 48 * k + n)
  let codes := (List.range kv).foldl (fun m k => (List.range 48).foldl (fun m n => Sparse.set (fun _ => 0) m (48 * k + n) (code k n)) m) []
  let sums := if isIntFmt f.fmt then
      (List.range 48).foldl (fun m n => Sparse.set zw m n (w32 ((List.range kv).foldl (fun s k => s + code k n) 0))) []
    else []
  ⟨true, f.fmt, kv, f.flag, codes, sums⟩

def Dev.runLoad (d : Dev) (p k : Nat) (e : MEnt) : Dev :=
  match d.hwTake p e.f.gal partyArrays with
  | .bad kind => d.mGalley p e e.f.gal kind true
  | .wait d' => d'
  | .got a d1 =>
    let r := d1.readStore p a (bankBytes e.f.fmt) (intakeOf e)
    if !r.2 then r.1.mStoreError p e
    else
      let d2 := r.1.modTile p (fun t => t.setBank e.f.arr (b2n e.f.bank) (bankFrom (r.1.bytes (tileBase p + a) (bankBytes e.f.fmt)) e.f))
      (d2.hwDone p e.f.gal true).mPop p k

/-! ## The epilogue (R94, R97 to R101) -/

/-- Activations: 0x1 and 0x7 exact, 0x2 to 0x6 of a finite value within 2 ulp (log entry 11). -/
def activate (c : Nat) (y : NV) : NV :=
  let pos := fun v : NV => if v.isNan then v else if zero.lt v then v else zero
  match c with
  | 0 => y
  | 1 => pos y
  | 7 => mul32 (pos y) (pos y)
  | _ => match y with
    | .fin v => actNear c (w32 (to32 y)) v
    | _ => f32 (Config.act c (w32 (to32 y))).toNat

/-- What a close has read beside the accumulators: row QPEs, column QPEs, biases by row and column, and the QPEs of
OUTQ_G. -/
structure EpIn where
  rowq : Nat → Qpe
  colq : Nat → Qpe
  bias : Nat → Nat → NV
  outq : Nat → Qpe

/-- Stages 1 to 4 for row `i`, column `j` (R97). A code sum that is not read stands as 0 (log entry 115). -/
def epStages (e : BitVec 256) (x : EpIn) (g : Group) (i j : Nat) : NV :=
  let r := x.rowq i
  let c := x.colq j
  let rf := bf16.dec (if epF e 0 22 1 = 1 then r.invScale else r.scale)
  let int := g.int == some true
  let acc := if int then rne32 (ofInt (g.at_ i j).toInt) else f32 (g.at_ i j).toNat
  let y := if r.isConst || c.isConst then zero else mul32 acc (mul32 rf (bf16.dec c.scale))
  let sum := fun w : Word => rne32 (ofInt w.toInt)
  let codes := fun (mode : Nat) (w : Word) => sum (if mode = 0 then 0 else w)
  let y := if int then
      let co := bf16.dec c.offset
      let ro := bf16.dec r.offset
      let t1 := mul32 (mul32 rf co) (codes (epF e 0 18 2) (Sparse.get zw g.rowsum i))
      let t2 := mul32 (mul32 ro (bf16.dec c.scale)) (codes (epF e 0 20 2) (Sparse.get zw g.colsum j))
      let t3 := mul32 (mul32 ro co) (sum g.kcount)
      add32 (add32 (add32 y t1) t2) t3
    else y
  let y := if epF e 0 16 2 = 0 then y else add32 y (x.bias i j)
  activate (epF e 0 12 4) y

/-- The quoin index of element (i, j), exactly (R100). -/
def epIndex (e : BitVec 256) (rowBase cb i j : Nat) : Nat :=
  if epF e 0 25 1 = 0 then (rowBase + i) * epF e 7 0 32 + cb * 48 + j else (cb * 48 + j) * epF e 7 0 32 + rowBase + i

/-- A signed byte field. -/
def signedByte (n : Nat) : Int := if n < 128 then n else (n : Int) - 256

/-- Exactly 2^e. -/
def pow2 (e : Int) : NV := .fin ⟨false, 1, e⟩

/-- Stage 5 (R97). -/
def epConvert (d : Dev) (t : Tile) (e : BitVec 256) (q : Qpe) (idx : Nat) (y : NV) : Conv :=
  let u := (quoin d.seed t.step (BitVec.ofNat 16 (epF e 1 0 16)) (BitVec.ofNat 16 (epF e 6 0 16)) (w32 idx)).toNat
  let rnd := (rndOf (epF e 0 4 2) u).getD .rne
  let o := epF e 0 0 4
  match epF e 0 6 3 with
  | 0 => fmtConv o rnd y
  | 1 => fmtConv o rnd (mul32 y (pow2 (signedByte (epF e 1 16 8))))
  | _ => qpeEncode { q with fmt := o } rnd y

/-- The slots a close needs, by galley field of its descriptor: OUT_G, ROWQ_G, OUTQ_G, STATS_G, BIAS_G. -/
def epNeeds (e : BitVec 256) (rows outElems : Nat) : List Need :=
  let need := fun i c n => ⟨i, epF e 2 (4 * i) 4, c, round64 n⟩
  [need 0 false ((outElems * fmtWidth (epF e 0 0 4) + 7) / 8)]
    ++ (if epF e 0 18 2 = 1 then [need 1 true (8 * rows)] else [])
    ++ (if epF e 0 6 3 = 2 then [need 2 true (8 * rows)] else [])
    ++ (if epF e 0 6 3 = 3 then [need 2 false (8 * rows)] else [])
    ++ (if epF e 0 23 1 = 1 then [need 3 false (8 * rows)] else [])
    ++ (if epF e 0 16 2 = 2 then [need 4 true (4 * rows)] else [])

/-- A table in the store that the epilogue reads: its bytes' range, for the checks of R130 and R169. -/
def epTables (e : BitVec 256) (rows cb ncols : Nat) : List (Nat × Nat) :=
  (match epF e 0 18 2 with
    | 2 => [(epF e 4 0 19, 8)]
    | 3 => [(epF e 4 0 19, 8 * rows)]
    | _ => [])
  ++ (match epF e 0 20 2 with
    | 1 => [(epF e 3 0 19 + 8 * (cb * 48), 8 * ncols)]
    | 2 => [(epF e 3 0 19, 8)]
    | _ => [])
  ++ (if epF e 0 16 2 = 1 then [(epF e 5 0 19 + 2 * (cb * 48), 2 * ncols)] else [])

def Dev.epIn (d : Dev) (p : Nat) (e : BitVec 256) (cb : Nat) (slot : Nat → Nat) : EpIn :=
  let b := tileBase p
  let qpe := fun a => Qpe.ofWord (w64 (d.nat (b + a) 8))
  { rowq := fun i => match epF e 0 18 2 with
      | 0 => Qpe.unit
      | 1 => qpe (slot 1 + 8 * i)
      | 2 => qpe (epF e 4 0 19)
      | _ => qpe (epF e 4 0 19 + 8 * i)
    colq := fun j => match epF e 0 20 2 with
      | 1 => qpe (epF e 3 0 19 + 8 * (cb * 48 + j))
      | 2 => qpe (epF e 3 0 19)
      | _ => Qpe.unit
    bias := fun i j => if epF e 0 16 2 = 1 then bf16.dec (d.nat (b + epF e 5 0 19 + 2 * (cb * 48 + j)) 2)
      else f32 (d.nat (b + slot 4 + 4 * i) 4)
    outq := fun i => qpe (slot 2 + 8 * i) }

/-- One finished row: elements of the span, its statistics, its QPE, its codes. -/
structure EpRow where
  rng : Range
  q : Qpe
  convs : List (Nat × Conv)

def Dev.epRow (d : Dev) (p : Nat) (m : MEnt) (e : BitVec 256) (x : EpIn) (i : Nat) : EpRow :=
  let t := d.tile p
  let a := m.f.arr.val
  let n := m.span t
  let ncols := m.f.count.toNat
  let ys := (List.range n).flatMap (fun h => (List.range ncols).map (fun j =>
    (48 * h + j, epStages e x (t.group a (m.f.grp.val + h)) i j)))
  let rng := ys.foldl (fun r y => Range.add r y.2) none
  let nf := ys.any (fun y => !y.2.isFinite)
  let q := if epF e 0 6 3 = 3 then qpeFrom (epF e 0 0 4) rng nf else x.outq i
  let cs := ys.map (fun y => (y.1, epConvert d t e q (epIndex e m.rowBase.toNat m.cb.toNat i y.1) y.2))
  ⟨rng, { q with sat := cs.any (·.2.sat) }, cs⟩

/-- Elements of the close that SR would index past 2^32 (R100). -/
def epIndexBad (m : MEnt) (t : Tile) (e : BitVec 256) (rows : Nat) : Bool :=
  epF e 0 4 2 == 1 && decide (0 < rows)
    && (decide (2 ^ 32 ≤ epIndex e m.rowBase.toNat m.cb.toNat (rows - 1) (48 * (m.span t - 1) + m.f.count.toNat - 1)))

/-- Codes by place, as runs of places without a gap. -/
def runsOf : List (Nat × Nat) → List (Nat × List Nat)
  | [] => []
  | (n, c) :: t =>
    match runsOf t with
    | (m, cs) :: rs => if m = n + 1 then (n, c :: cs) :: rs else (n, [c]) :: (m, cs) :: rs
    | [] => [(n, [c])]

/-- One run of codes of `w` bits in the slot at `a`: one write, which keeps the other half of a byte that it shares. -/
def Dev.emitRun (d : Dev) (p a w : Nat) (r : Nat × List Nat) : Dev :=
  let at_ := tileBase p + a + r.1 * w / 8
  let cs := if w = 4 ∧ r.1 % 2 = 1 then (d.byte at_).toNat % 16 :: r.2 else r.2
  d.store at_ (packCodes (fun j => d.byte (at_ + j)) w cs)

/-- Rows 0 on at their places in the output slot, with ENC_SAT and ENC_NONFINITE (R101). -/
def Dev.emitRows (d : Dev) (p a w rowLen : Nat) (rs : List EpRow) : Dev :=
  let placed := (rs.zipIdx.map (fun r => r.1.convs.map (fun c => (r.2 * rowLen + c.1, c.2.code)))).flatten
  let s := Reg.tileMtSticky p
  (((runsOf placed).foldl (fun d r => d.emitRun p a w r) d).orBit s 2 (rs.any (fun r => r.convs.any (·.2.sat)))).orBit s 3
    (rs.any (fun r => r.convs.any (·.2.nf)))

/-- TILE_MT_EPAMAX rises to the rows' largest magnitude, where the descriptor says so. -/
def Dev.amaxRows (d : Dev) (p : Nat) (m : MEnt) (e : BitVec 256) (rs : List EpRow) : Dev :=
  let r := Reg.tileMtEpamax p m.f.ep
  if epF e 0 24 1 = 1 then rs.foldl (fun d x => if (f32 (d.reg r)).lt x.rng.amax then d.setReg r (to32 x.rng.amax) else d) d else d

def MEnt.rowLen (t : Tile) (m : MEnt) : Nat := 48 * (m.span t - 1) + m.f.count.toNat

/-- All rows, the tables that go with them, the slots given on, the groups closed. -/
def Dev.finishClose (d : Dev) (p k : Nat) (m : MEnt) (e : BitVec 256) (needs : List Need) (as : List Nat) (rows : Nat) : Dev :=
  let t := d.tile p
  let slot := addrFor needs as
  let rs := (List.range rows).map (fun i => d.epRow p m e (d.epIn p e m.cb.toNat slot) i)
  let d1 := d.emitRows p (slot 0) (fmtWidth (epF e 0 0 4)) (m.rowLen t) rs
  let d2 := if epF e 0 6 3 = 3 then
      rs.zipIdx.foldl (fun d r => d.store (tileBase p + slot 2 + 8 * r.2) (toBytes 8 r.1.q.word.toNat)) d1 else d1
  let d3 := if epF e 0 23 1 = 1 then
      rs.zipIdx.foldl (fun d r => let b := r.1.rng.bits; d.store (tileBase p + slot 3 + 8 * r.2) (toBytes 4 b.1 ++ toBytes 4 b.2)) d2 else d2
  (((d3.amaxRows p m e rs).slotsDone p needs).modTile p (fun t => (List.range (m.span t)).foldl (fun t h =>
    t.setGroup m.f.arr (m.f.grp.val + h) (t.group m.f.arr (m.f.grp.val + h)).dropped) t)).mPop p k

/-- The row-fold fault at row `b` (R98). The rows below it are closed; in mode 3 the first sweep has only seen those of the
span's first group, and nothing of theirs is written. -/
def Dev.foldFault (d : Dev) (p : Nat) (m : MEnt) (e : BitVec 256) (x : EpIn) (out b : Nat) : Dev :=
  let g := (d.tile p).group m.f.arr m.f.grp
  let seen := fun i => (List.range m.f.count.toNat).foldl (fun r j => Range.add r (epStages e x g i j)) none
  let rs := (List.range b).map (fun i => if epF e 0 6 3 = 3 then ⟨seen i, Qpe.unit, []⟩ else d.epRow p m e x i)
  ((d.emitRows p out (fmtWidth (epF e 0 0 4)) (m.rowLen (d.tile p)) rs).amaxRows p m e rs).mFault p m 6

/-- The first slot to write that a bank's owner refuses (R176). -/
def Dev.epRefused (d : Dev) (p : Nat) (needs : List Need) (as : List Nat) : Option Nat :=
  ((needs.zip as).find? (fun x => !x.1.cons && !d.mayWrite p x.2 x.1.bytes ownTile)).map (·.1.gal)

/-- A close. Its index range is judged before any row (log entry 116), and a table that reaches past the store is program fault
0x2 (log entry 122). -/
def Dev.runClose (d : Dev) (p k : Nat) (m : MEnt) : Dev :=
  let t := d.tile p
  let e := t.ep m.f.ep
  let rows := (t.group m.f.arr m.f.grp).rows.getD 0
  let cb := m.cb.toNat
  let needs := epNeeds e rows (rows * m.rowLen t)
  let tabs := epTables e rows cb m.f.count.toNat
  if epIndexBad m t e rows then d.mFault p m 5
  else match tabs.find? (fun x => decide (storeBytes < x.1 + x.2)) with
  | some x => d.progFault p 0 0x0F m.mop m.pc 2 (w64 x.1)
  | none =>
    match d.slotsFor d p partyEpilogue needs with
    | .shape _ => d.mFault p m 3
    | .bad n kind => d.mGalley p m n.gal kind n.cons
    | .wait d' => d'
    | .ok d1 as =>
      let slot := addrFor needs as
      let reads := tabs ++ ((needs.zip as).filter (fun x => x.1.cons)).map (fun x => (x.2, x.1.bytes))
      let r := reads.foldl (fun (s : Dev × Bool) x => let r := s.1.readStore p x.1 x.2 (7 + m.f.arr.val % 2); (r.1, s.2 && r.2)) (d1, true)
      if !r.2 then (d.unreserve r.1 p needs).mStoreError p m
      else
        let x := r.1.epIn p e cb slot
        let bad := (List.range rows).find? (fun i => epF e 0 22 1 == 1 && epF e 0 18 2 != 0 && !(x.rowq i).pow2)
        let none_ := bad == some 0 || (bad.isSome && epF e 0 6 3 == 3)
        match if none_ then none else r.1.epRefused p needs as, bad with
        | some g, _ => r.1.mGalley p m g 7 false
        | none, some b => (if none_ then d.unreserve r.1 p needs else r.1).foldFault p m e x (slot 0) b
        | none, none => r.1.finishClose p k m e needs as rows

/-- MATRIX_OP_COMPLETE: entry `k`, begun, does its work and leaves the queue; where its galleys do not allow, it stays
(R102). -/
def execMatrixOpComplete (slot : Slot) (k : Nat) : State → Host.Outcome State Fault Refusal :=
  onDev (fun d =>
    match (d.tile slot).mq[k]? with
    | none => d
    | some e =>
      if !e.begun then d
      else if e.mop = mopLoad then d.runLoad slot k e
      else if e.mop = mopOpen then
        (d.modTile slot (fun t => t.setGroup e.f.arr e.f.grp { Group.closed with st := .open_ })).mPop slot k
      else if e.mop = mopDrop then
        (d.modTile slot (fun t => t.setGroup e.f.arr e.f.grp (t.group e.f.arr e.f.grp).dropped)).mPop slot k
      else if e.mop = mopClose then d.runClose slot k e
      else if e.mop = mopPair ∨ e.f.flag then d.runTile slot k e
      else d.runRows slot k e (e.f.count.toNat - e.row))

end Sys2Proof.Machine
end

