-- ==== Sys2Proof/Machine/Power.lean ====
section
/-! DEFINITION. Sys2Proof/Machine/Power.lean: the timebase (R469), the VIN_CORE supervisor's warning and dips (R461 to R463),
reef requests (R465), the power loop (R470, R471), junction temperatures (R473), REFCLK (R468). Brown-out and trip are in
PowerDown.lean. -/

namespace Sys2Proof.Machine

/-! ## Timebase (R469) -/

/-- One period of the timebase, 0.8 ns: what an empty queue's step does (log entry 1). -/
def Dev.tick (d : Dev) : Dev :=
  if d.bos.tb && !d.pwr.stopped then d.inc64 Reg.clkTbLo Reg.clkTbHi 1 else d

/-- ALIGN is ignored, and reads 0, while a job is loaded. -/
def Dev.alignArmed (d : Dev) : Bool := d.flag Reg.clkTbCfg F.clkTbCfgAlign && !d.jobLoaded

/-- TPULSE_EDGE: latches the counter; an armed edge loads it (R469). -/
def execTpulseEdge : State → Host.Outcome State Fault Refusal :=
  onDev (fun d =>
    if !d.bos.tb || d.pwr.stopped then d
    else
      let d := (d.setReg64 Reg.clkTbLatchLo Reg.clkTbLatchHi d.timebase).incFld Reg.clkTbCfg F.clkTbCfgEdges 1
      if d.alignArmed then
        (d.setReg64 Reg.clkTbLo Reg.clkTbHi (d.reg64 Reg.clkTbLoadLo Reg.clkTbLoadHi)).setFlag Reg.clkTbCfg F.clkTbCfgAlign false
      else d)

/-- A write of CLK_TB_CFG. -/
def Dev.writeTbCfg (d : Dev) (v : Word) : Dev :=
  if v.getLsbD 0 && !d.jobLoaded then d.setFlag Reg.clkTbCfg F.clkTbCfgAlign true else d

/-- ALIGN: arms alignment at the next edge (R469). -/
def execAlignTb (m : Master) (v : Word) : State → Host.Outcome State Fault Refusal :=
  onDev (fun d => if Dev.maySet m Reg.clkTbCfg then d.writeTbCfg v else d)

/-! ## Reef levels (R465) -/

/-- The device-wide level: the largest of the device-wide requests. -/
def Power.level (p : Power) : Nat := max (max p.lvl p.therm) (if p.supply then 2 else 0)

def Dev.showReef (d : Dev) : Dev :=
  let p := d.pwr
  (d.setFld Reg.pwrStatus F.pwrStatusReef p.level).setFld Reg.pwrStatus F.pwrStatusSrc
    (b2n (p.lvl ≠ 0) + 2 * b2n (p.therm ≠ 0) + 4 * b2n p.supply + 8 * b2n (d.bos.ageReef ≠ []))

/-- The level of yard island `y`. -/
def Dev.yardLevel (d : Dev) (y : Nat) : Nat := max d.pwr.level (if d.bos.ageReef.contains y then 3 else 0)

def Dev.setPwr (d : Dev) (p : Power) : Dev := { d with pwr := p }

/-! ## Dips (R461 to R463) -/

def mvWarning : Nat := 1710
def mvRecovery : Nat := 1740
/-- 60 s of the timebase. -/
def dipWindow : Nat := 75000000000

/-- VIN_CORE_WARNING: the rail falls below 1.71 V (R461). -/
def execVinCoreWarning (mv : BitVec 12) : State → Host.Outcome State Fault Refusal :=
  onDev (fun d =>
    if mv.toNat < mvWarning then
      d.setPwr { d.pwr with warn := true, dipMin := if d.pwr.warn then min d.pwr.dipMin mv.toNat else mv.toNat }
    else d)

/-- DIP_DEBOUNCE: 200 ns below the warning: the supply request rises to level 2; a hold that ran starts again from this
dip's recovery (R462). The dip's start is kept for R463. -/
def execDipDebounce : State → Host.Outcome State Fault Refusal :=
  onDev (fun d =>
    if !d.pwr.warn || d.pwr.dip || d.pwr.brownout then d
    else
      let d := d.setPwr { d.pwr with dip := true, supply := true, dips := d.timebase :: d.pwr.dips }
      ((d.setFlag Reg.pwrStatus F.pwrStatusWarn true).setFlag Reg.pwrStatus F.pwrStatusHold false).showReef)

/-- A dip is complete: counted, its lowest voltage kept, logged; eight that began within 60 s raise SUPPLY_QUALITY (R462,
R463). -/
def Dev.endDip (d : Dev) : Dev :=
  let dips := d.pwr.dips.filter (fun t => decide (d.pwr.dips.headD 0 < t + dipWindow))
  let d := (d.satFld Reg.pwrDip F.pwrDipTotal 1).setFld Reg.pwrDip F.pwrDipLastMin (min 15 dips.length)
  let d := if d.started then d.setFld Reg.pwrDip F.pwrDipMinMv (min (d.fld Reg.pwrDip F.pwrDipMinMv) d.pwr.dipMin) else d
  let d := (d.setPwr { d.pwr with dips := dips }).logEv 1 0x0A 0 1 [w32 d.pwr.dipMin]
  if 8 ≤ dips.length then (d.logEv 0 0x0A 0 0 [w32 dips.length]).alert 0 else d

/-- VIN_CORE_RECOVERY: above 1.74 V; the 20 µs hold runs (R461, R462). A fall shorter than the debounce was no dip. -/
def execVinCoreRecovery (mv : BitVec 12) : State → Host.Outcome State Fault Refusal :=
  onDev (fun d =>
    if mv.toNat < mvRecovery ∨ !d.pwr.warn then d
    else
      let dip := d.pwr.dip
      let d := if dip then d.endDip else d
      let d := (d.setPwr { d.pwr with warn := false, dip := false }).setFlag Reg.pwrStatus F.pwrStatusWarn false
      if dip then d.setFlag Reg.pwrStatus F.pwrStatusHold true else d)

/-- SUPPLY_HOLD_END: 20 µs after the recovery the request drops (R462). -/
def execSupplyHoldEnd : State → Host.Outcome State Fault Refusal :=
  onDev (fun d =>
    if d.flag Reg.pwrStatus F.pwrStatusHold && !d.pwr.dip then
      ((d.setPwr { d.pwr with supply := false }).setFlag Reg.pwrStatus F.pwrStatusHold false).showReef
    else d)

/-- Yards and the halyard have droop detectors (R461). -/
def hasDroop (i : Nat) : Bool := decide (i < 64) || i == 73

/-- DROOP_DETECT: the island's clock stretches: timing only (R461). -/
def execDroopDetect (island : Fin 76) : State → Host.Outcome State Fault Refusal :=
  onDev (fun d =>
    if hasDroop island && !d.pwr.stretch.contains island.val then d.setPwr { d.pwr with stretch := island.val :: d.pwr.stretch } else d)

/-- DROOP_CLEAR (R461). -/
def execDroopClear (island : Fin 76) : State → Host.Outcome State Fault Refusal :=
  onDev (fun d => d.setPwr { d.pwr with stretch := d.pwr.stretch.filter (fun i => i != island.val) })

/-! ## REFCLK (R468) -/

/-- REFCLK_LOSS: REF_LOSS and a device-fatal fault; the PLLs hold. -/
def execRefclkLoss : State → Host.Outcome State Fault Refusal :=
  onDev (fun d =>
    if d.pwr.refLost then d
    else
      let d := d.setPwr { d.pwr with refLost := true }
      let d := (d.setFlag Reg.clkRef F.clkRefRefOk false).satFld Reg.clkRef F.clkRefLosses 1
      (d.alert 3).fatal 0x0A 0 0 5 none)

/-- REFCLK_RETURN within the holdover: the PLLs follow the reference again. -/
def execRefclkReturn : State → Host.Outcome State Fault Refusal :=
  onDev (fun d => (d.setPwr { d.pwr with refLost := false }).setFlag Reg.clkRef F.clkRefRefOk true)

/-! ## Power (R470, R471) -/

/-- POWER_SAMPLE: package power, rail voltage and current, every 1 µs from boot step 7 on; the µs counts against the level
in force. -/
def execPowerSample (w : BitVec 10) (mv : BitVec 12) (amps : BitVec 10) : State → Host.Outcome State Fault Refusal :=
  onDev (fun d =>
    if !d.bos.tb || d.pwr.stopped then d
    else
      let p := d.pwr
      let d := d.setPwr { p with samples := (w.toNat :: p.samples).take 10000, dipMin := if p.warn then min p.dipMin mv.toNat else p.dipMin }
      let d := (d.setFld Reg.pwrVin F.pwrVinMv mv.toNat).setFld Reg.pwrVin F.pwrVinAmps amps.toNat
      if d.started then d.satFld (Reg.pwrReefUs d.pwr.level) fld32 1 else d)

def sumOf (l : List Nat) : Nat := l.foldl (· + ·) 0

/-- POWER_EVALUATE, the pseudocode of R470: a mean is compared by its sum against the limit times the number of samples. -/
def execPowerEvaluate : State → Host.Outcome State Fault Refusal :=
  onDev (fun d =>
    let p := d.pwr
    let one := p.samples.take 1000
    let n1 := one.length
    let n10 := p.samples.length
    if n1 = 0 then d
    else
      let s1 := sumOf one
      let s10 := sumOf p.samples
      let peak := d.fld Reg.pwrLimit F.pwrLimitPeakW
      let sus := d.fld Reg.pwrLimit F.pwrLimitSustainedW
      let high := decide (peak * n1 < s1) || decide (sus * n10 < s10)
      let calm := decide (s1 + 40 * n1 ≤ min peak sus * n1) && decide (s10 + 40 * n10 ≤ sus * n10)
      let q := p.quiet + 1
      let p : Power :=
        if high then { p with lvl := min (p.lvl + 1) 3, quiet := 0 }
        else if calm then (if q = 10 ∧ 0 < p.lvl then { p with lvl := p.lvl - 1, quiet := 0 } else { p with quiet := q })
        else { p with quiet := 0 }
      let p : Power := { p with at3 := if p.lvl = 3 then p.at3 + 1 else 0 }
      let d := (d.setPwr p).showReef
      let d := (d.setFld Reg.pwrNow F.pwrNowW1ms (s1 / n1)).setFld Reg.pwrNow F.pwrNowW10ms (s10 / n10)
      if 100 ≤ p.at3 ∧ sus * n10 < s10 then d.alert 2 else d)

def clip (lo hi v : Nat) : Nat := max lo (min hi v)

/-- A write of PWR_LIMIT: above the reset value, the reset value; below 400 W, 400 W (R471). -/
def Dev.writePwrLimit (d : Dev) (v : Word) : Dev :=
  (d.setFld Reg.pwrLimit F.pwrLimitSustainedW (clip 400 700 (bitsAt v.toNat 0 10))).setFld Reg.pwrLimit F.pwrLimitPeakW
    (clip 400 820 (bitsAt v.toNat 16 10))

/-- PWR_LIMIT (R471). -/
def execPwrLimit (m : Master) (v : Word) : State → Host.Outcome State Fault Refusal :=
  onDev (fun d => if Dev.maySet m Reg.pwrLimit then d.writePwrLimit v else d)

/-! ## Temperature (R473) -/

def Dev.writeThermCfg (d : Dev) (v : Word) : Dev :=
  d.setFld Reg.pwrThermCfg F.pwrThermCfgStart (min 0x5F (bitsAt v.toNat 0 8))

/-- PWR_THERM_CFG: values above 0x5F are stored as 0x5F (R473). -/
def execPwrThermCfg (m : Master) (v : Word) : State → Host.Outcome State Fault Refusal :=
  onDev (fun d => if Dev.maySet m Reg.pwrThermCfg then d.writeThermCfg v else d)

/-- The threshold of level 1, 2 or 3, in °C. -/
def Dev.thermAt (d : Dev) (l : Nat) : Int := (d.fld Reg.pwrThermCfg F.pwrThermCfgStart : Int) + 4 * ((l : Int) - 1)

/-- The hottest sensor and its reading: the lowest-numbered of equals. -/
def hottest (t : List Int) : Nat × Int :=
  (t.foldl (fun (acc : Nat × (Nat × Int)) v => (acc.1 + 1, if acc.1 = 0 ∨ acc.2.2 < v then (acc.1, v) else acc.2)) (0, (0, 0))).2

def byteOfInt (v : Int) : Nat := (v % 256).toNat
def intOfByte (n : Nat) : Int := if n < 128 then (n : Int) else (n : Int) - 256

/-- TJ_MAX, its sensor and the peak since job start. -/
def Dev.showTemp (d : Dev) (h : Nat × Int) : Dev :=
  let r := Reg.pwrTherm
  let d := (d.setFld r F.pwrThermTjMax (byteOfInt h.2)).setFld r F.pwrThermSensor h.1
  if d.started && decide (intOfByte (d.fld r F.pwrThermTjPeak) < h.2) then d.setFld r F.pwrThermTjPeak (byteOfInt h.2) else d

/-- THERMAL_SAMPLE: the 96 sensors are read; the request rises with the hottest of them. -/
def execThermalSample (t : List (BitVec 8)) : State → Host.Outcome State Fault Refusal :=
  onDev (fun d =>
    if t.length ≠ 96 then d
    else
      let ts := t.map (fun b => b.toInt)
      let h := hottest ts
      let d := (d.setPwr { d.pwr with temps := ts, thermPeakNow := h.2 }).showTemp h
      let rise := ([1, 2, 3].filter (fun l => decide (d.thermAt l ≤ h.2))).length
      let d := (d.setPwr { d.pwr with therm := max d.pwr.therm rise }).showReef
      if 105 ≤ h.2 then d.alert 1 else d)

/-- THERMAL_REQUEST_DROP: 1 ms at 3 °C below a level's threshold: that level's request drops. -/
def execThermalRequestDrop : State → Host.Outcome State Fault Refusal :=
  onDev (fun d =>
    let keep := ([1, 2, 3].filter (fun l => decide (l ≤ d.pwr.therm) && decide (d.thermAt l - 3 < d.pwr.thermPeakNow))).length
    (d.setPwr { d.pwr with therm := keep }).showReef)

end Sys2Proof.Machine
end

