-- ==== Sys2Proof/Machine/PressRule.lean ====
section
/-! DEFINITION. Sys2Proof/Machine/PressRule.lean: rule programs of the presses (R297 to R302), the walk over a press's elements
(R290, R291) and the combination of accumulators (R305). -/

namespace Sys2Proof.Machine
open Sys2Proof.Num

/-! ## Instructions (R298) -/

def riOp (w : Word) : Nat := bitsAt w.toNat 0 5
def riD (w : Word) : Nat := bitsAt w.toNat 5 6
def riA (w : Word) : Nat := bitsAt w.toNat 11 6
def riB (w : Word) : Nat := bitsAt w.toNat 17 6
def riC (w : Word) : Nat := bitsAt w.toNat 23 6
def riNeg (w : Word) : Bool := bitsAt w.toNat 29 1 == 1
def riPoint (w : Word) : Nat := bitsAt w.toNat 17 8

/-- Operand codes an instruction reads. -/
def riReads (w : Word) : List Nat :=
  match riOp w with
  | 1 | 2 | 6 | 7 => [riA w, riB w]
  | 3 | 8 => [riA w, riB w, riC w]
  | 4 | 5 | 9 | 0x0A | 0x0B | 0x0C | 0x0D => [riA w]
  | _ => []

def progReads (prog : List Word) (code : Nat) : Bool := prog.any (fun w => (riReads w).contains code)
/-- Is accumulator `k` one of amax? -/
def accIsMax (prog : List Word) (k : Nat) : Bool := prog.any (fun w => riOp w == 0x0D && riD w == k)

/-- What an element's instructions see: constants, streams (G, W, M1, M2, V) as FP32, the state format, the draw of a point
and a stream. -/
structure RuleEnv where
  k : List Word
  eta : Word
  comb : Comb
  rho : Word
  lk0 : Word
  lk1 : Word
  str : List Word
  fmt : FloatFmt
  draw : Nat → Nat → Word

/-- Registers, accumulators of the lane, marks, and the stores made: stream and value. -/
structure LaneSt where
  x : List Word
  a : List Word
  nf : Bool
  bad : Bool
  st : List (Nat × Nat)

def w1 : Word := 0x3F800000#32

/-- R297. -/
def ruleOperand (e : RuleEnv) (s : LaneSt) (c : Nat) : Word :=
  if c < 0x10 then s.x.getD c 0
  else if c < 0x18 then e.k.getD (c - 0x10) 0
  else if c = 0x18 then e.eta
  else if c = 0x19 then e.comb.phi
  else if c = 0x1A then e.comb.bc1
  else if c = 0x1B then e.comb.bc2
  else if c = 0x1C then e.rho
  else if c = 0x1D then w32 (to32 (sub32 one (f32 e.rho.toNat)))
  else if c = 0x1E then e.lk0
  else if c = 0x1F then e.lk1
  else if c < 0x25 then e.str.getD (c - 0x20) 0
  else if c = 0x26 then w1
  else 0

def fin32 (w : Word) : Bool := (f32 w.toNat).isFinite

/-- R298. -/
def ruleStep (e : RuleEnv) (s : LaneSt) (i : Word) : LaneSt :=
  if s.bad then s
  else
    let a := f32 (ruleOperand e s (riA i)).toNat
    let b0 := f32 (ruleOperand e s (riB i)).toNat
    let b := if riNeg i then b0.neg else b0
    let c := f32 (ruleOperand e s (riC i)).toNat
    let put := fun (v : NV) => { s with x := s.x.set (riD i) (w32 (to32 v)), nf := s.nf || !v.isFinite }
    let acc := fun (v : NV) => { s with a := s.a.set (riD i) (w32 (to32 v)) }
    let old := f32 (s.a.getD (riD i) 0).toNat
    match riOp i with
    | 0x01 => put (add32 a b)
    | 0x02 => put (mul32 a b)
    | 0x03 => put (fma32 a b c)
    | 0x04 => put (if a.isNan then .nan else if a.isZero then zero else if a.signBit then one.neg else one)
    | 0x05 => put a.abs
    | 0x06 => put (a.vmin b)
    | 0x07 => put (a.vmax b)
    | 0x08 => put (if zero.lt a then b else c)
    | 0x09 => put (match a with
        | .nan => .nan
        | .inf n => if n then .nan else zero
        | .fin v => if v.man = 0 then .inf v.neg else if v.neg then .nan
            else prsqrtNear (ruleOperand e s (riA i)) v)
    | 0x0A =>
      if !a.isFinite then { s with bad := true }
      else
        let r := e.fmt.conv (.sr (e.draw (riPoint i) (riD i)).toNat) a
        { s with x := s.x.set (riA i) (w32 (to32 (e.fmt.dec r.code))), st := s.st ++ [(riD i, r.code)] }
    | 0x0B => acc (add32 old a)
    | 0x0C => acc (add32 old (mul32 a a))
    | 0x0D => acc (if a.isFinite && old.lt a.abs then a.abs else old)
    | _ => s

/-! ## A press's elements (R290, R291) -/

namespace Layer
/-- Storage positions of the shard. -/
def total (l : Layer) : Nat := l.chCount * l.stride
def padding (l : Layer) (e : Nat) : Bool := decide (l.len ≤ e % l.stride)
/-- The logical index of storage position `e`. -/
def index (l : Layer) (e : Nat) : Word :=
  let ch := l.chFirst + e / l.stride
  let pos := e % l.stride
  w32 (if l.axis then pos * l.rowLen + ch else ch * l.rowLen + pos)
end Layer

/-- Storage positions of press `c`, granule by granule: its lanes take them in this order, element i of a granule in lane
i mod 64. -/
def pressElems (l : Layer) (c : Nat) : List Nat :=
  ((List.range (l.total / 512)).map (fun g => (List.range 128).map (fun i => (4 * g + c) * 128 + i))).flatten

/-- Where element 0 of a stream (0x20 to 0x24) of a layer lies, its slot being at `s`. -/
def streamAt (l : Layer) (s code : Nat) : Nat :=
  if code = 0x20 then l.gAddr * 0x4000
  else s + 0x4000 * (if code = 0x21 then l.wOff else if code = 0x22 then l.m1Off else if code = 0x23 then l.m2Off else l.vOff)

def stateFmt (l : Layer) : FloatFmt := if l.fmt = 6 then binary16 else bf16
def widen (l : Layer) (code : Nat) : Word := w32 (to32 ((stateFmt l).dec code))

def streamTensor (l : Layer) (code : Nat) : Nat :=
  if code = 0x21 then l.tW else if code = 0x22 then l.tM1 else if code = 0x23 then l.tM2 else l.tV

/-- The streams a program names, as FP32, of the element at storage position `e` in the slot at `s`; the others are not read. -/
def Dev.elemStreams (d : Dev) (l : Layer) (s : Nat) (prog : List Word) (e : Nat) : List Word :=
  (List.range 5).map (fun i => if progReads prog (0x20 + i) then widen l (d.nat (streamAt l s (0x20 + i) + 2 * e) 2) else 0)

/-- What a walk over the elements keeps: the lanes' accumulators, the marks, and the device its stores go to. -/
structure Walk where
  d : Dev
  acc : List (List Word)
  nf : Bool
  bad : Bool

def Walk.start (d : Dev) : Walk := ⟨d, List.replicate 64 (List.replicate 8 0), false, false⟩

/-- One element: its streams from the slot at `s`, its stores into the slot at `t`; nothing more once a store met a non-finite value. -/
def Walk.elem (l : Layer) (r : Rule) (prog : List Word) (s t : Nat) (step eta : Word) (cb : Comb) (w : Walk) (e : Nat) : Walk :=
  if w.bad then w
  else if l.padding e then
    let zeros := ([0x21, 0x22, 0x23, 0x24].filter (fun c => prog.any (fun i => riOp i == 0x0A && riD i == c)))
    { w with d := zeros.foldl (fun d c => d.storeNat (streamAt l t c + 2 * e) 2 0) w.d }
  else
    let lane := e % 64
    let str := w.d.elemStreams l s prog e
    let env : RuleEnv := ⟨r.k, eta, cb, l.avgDecay, l.lk0, l.lk1, str, stateFmt l, fun pt code =>
      quoin (w64 (w.d.reg64 Reg.devSeedLo Reg.devSeedHi)) step (BitVec.ofNat 16 pt) (BitVec.ofNat 16 (streamTensor l code)) (l.index e)⟩
    let s0 : LaneSt := ⟨List.replicate 16 0, w.acc.getD lane [], str.any (fun v => !fin32 v), false, []⟩
    let s1 := prog.foldl (ruleStep env) s0
    { d := if s1.bad then w.d else s1.st.foldl (fun d p => d.storeNat (streamAt l t p.1 + 2 * e) 2 p.2) w.d,
      acc := w.acc.set lane s1.a, nf := w.nf || s1.nf, bad := s1.bad }

/-! ## Combination (R305) -/

def addW (a b : Word) : Word := w32 (to32 (add32 (f32 a.toNat) (f32 b.toNat)))
def maxW (a b : Word) : Word := if (f32 a.toNat).lt (f32 b.toNat) then b else a
def accOp (isMax : Bool) : Word → Word → Word := if isMax then maxW else addW

/-- One level of the pairwise tree. -/
def treeLevel (f : Word → Word → Word) : List Word → List Word
  | a :: b :: t => f a b :: treeLevel f t
  | l => l

def treeOf (f : Word → Word → Word) (t : List Word) : Word := ((List.range 6).foldl (fun t _ => treeLevel f t) t).headD 0

/-- A press's eight accumulators from its lanes. -/
def lanesTree (prog : List Word) (lanes : List (List Word)) : List Word :=
  (List.range 8).map (fun k => treeOf (accOp (accIsMax prog k)) (lanes.map (fun a => a.getD k 0)))

/-- The device's accumulators from its four presses'. -/
def deviceAcc (prog : List Word) (p : List (List Word)) : List Word :=
  (List.range 8).map (fun k =>
    let f := accOp (accIsMax prog k)
    let v := fun c => (p.getD c []).getD k 0
    f (f (v 0) (v 1)) (f (v 2) (v 3)))

/-- Over the shards in SHARD_POS order. -/
def jobAcc (prog : List Word) (p : List (List Word)) : List Word :=
  (List.range 8).map (fun k =>
    match p.map (fun a => a.getD k 0) with
    | [] => 0
    | a :: t => t.foldl (accOp (accIsMax prog k)) a)

/-! ## Layer constants (R302) -/

/-- β^t by squaring, least significant bit first. -/
def powBits : Nat → Nat → NV → NV → NV
  | 0, _, _, p => p
  | fuel + 1, e, s, p => if e = 0 then p else powBits fuel (e / 2) (mul32 s s) (if e % 2 = 1 then mul32 p s else p)

def biasCorr (beta : Word) (t : Nat) : Word := w32 (to32 (div32 one (sub32 one (powBits 33 t (f32 beta.toNat) one))))

def trustRatio (mode : Nat) (s1 wnorm2 trMax : Word) : Word :=
  let s := f32 s1.toNat
  let w := f32 wnorm2.toNat
  if mode = 0 ∨ s.isZero ∨ w.isZero then w1
  else w32 (to32 ((sqrt32 (div32 w s)).vmin (f32 trMax.toNat)))

end Sys2Proof.Machine
end

