-- ==== Sys2Proof/Machine/Press.lean ====
section
/-! DEFINITION. Sys2Proof/Machine/Press.lean: a step in the presses: ready shards and pass A (R303 to R306), the decision
arrival (R307 to R309), pass B, regeneration and the commit work (R310 to R318, R325, R335). -/

namespace Sys2Proof.Machine
open Sys2Proof.Num

def lookup {α : Type} (m : Sparse α) (k : Nat) : Option α := (m.find? (fun e => e.1 == k)).map (·.2)

namespace PressSt
def idle : Nat := 0
def preparing : Nat := 1
def passA : Nat := 2
def atDecision : Nat := 3
def passB : Nat := 4
def atCommit : Nat := 5
def stopped : Nat := 6
end PressSt

def Dev.pst (d : Dev) (c : Nat) : Nat := d.fld (Reg.pressStatus c) F.pressStatusState
def Dev.setPst (d : Dev) (c st : Nat) (layer : Nat) : Dev :=
  (d.setFld (Reg.pressStatus c) F.pressStatusState st).setFld (Reg.pressStatus c) F.pressStatusLayer layer
def ctls : List Nat := [0, 1, 2, 3]
/-- The presses act for a running job that is not between an abort and its restore. -/
def Dev.pressing (d : Dev) : Bool := d.runningJob && !d.hal.aborting
def Dev.ruleOf (d : Dev) (y : Layer) : Rule :=
  match d.press.rules[y.rule]? with
  | some r => r
  | none => ⟨0, 0, 0, 0, 0, [], [], []⟩

/-! ## Layer records (R296) -/

/-- AGE of the live record; a layer frozen there and no longer in its descriptor starts at 0 (R318). -/
def Dev.ageOf (d : Dev) (c l : Nat) : Nat :=
  let a := d.recAt (d.slotAt d.live) l c
  match d.press.layer l with
  | some y => if (d.byte (a + 4)).getLsbD 0 && !y.frozen then 0 else d.nat a 4
  | none => d.nat a 4

/-- WNORM2 in force: what the last preparation recombined, else the live record's (R318). -/
def Dev.wnormOf (d : Dev) (l : Nat) : Word :=
  match lookup d.press.wn l with
  | some w => w
  | none => w32 (d.nat (d.recAt (d.slotAt d.live) l 0 + 16) 4)

/-- A burst that failed before and was not written since fails the press's read: fault 0x5 and what its region's kind means
(R211, R320). -/
def Dev.pressUe (d : Dev) (c l pass a : Nat) : Dev := ((d.recordHoldUe a 1).pressFault c 5 l pass).holdUeClass a 1

/-- The streams that a program stores are written whole bursts at a time (R210, R298). -/
def Dev.freshStreams (d : Dev) (y : Layer) (t : Nat) (prog : List Word) (c : Nat) : Dev :=
  { d with ecc := d.ecc.filter (fun e => !(ctlOf e.1 == c && [0x21, 0x22, 0x23, 0x24].any (fun k =>
    prog.any (fun i => riOp i == 0x0A && riD i == k) && decide (streamAt y t k ≤ e.1) && decide (e.1 < streamAt y t k + 2 * y.total)))) }

/-- A press's read of bytes of which a burst has failed before: whether it fails again, and where, the packages decide anew (R210;
log entry 104). -/
def Dev.pressReads (d : Dev) (marked : Option Nat) : Dev × Option Nat :=
  match marked with
  | none => (d, none)
  | some w => (d.free.2, if d.free.1.getLsbD 0 then some w else none)

/-- Such a burst in press `c`'s replica of a layer's live record, or of any layer's. -/
def Dev.recordUe (d : Dev) (c l : Nat) : Option Nat := d.eccFirst (d.recAt (d.slotAt d.live) l c) 64
def Dev.recordsUe (d : Dev) (c : Nat) : Option Nat := (List.range d.press.layers.length).findSome? (fun l => d.recordUe c l)

/-- The arrays and the gradient shard of a layer, after every request to them that arrived before (R207). -/
def Dev.orderLayer (d : Dev) (y : Layer) : Dev :=
  (y.arrays.flatMap (fun o => [d.slotAt 0 + o, d.slotAt 1 + o]) ++ [y.gAddr * 0x4000]).foldl (fun d a => d.orderHold a y.arrayBytes) d

/-- A write by a press: checked against the region table, in the order of its bursts (R207, R217). -/
def Dev.pressStore (d : Dev) (a : Nat) (bs : List Byte) : Dev := (d.memWrite .press a bs).1

/-- The first such burst in press `c`'s part of the streams that a program reads. -/
def Dev.streamUe (d : Dev) (y : Layer) (s : Nat) (prog : List Word) (c : Nat) : Option Nat :=
  (d.ecc.find? (fun e => decide (2 ≤ e.2) && ctlOf e.1 == c && [0x20, 0x21, 0x22, 0x23, 0x24].any (fun k =>
    progReads prog k && decide (streamAt y s k ≤ e.1) && decide (e.1 < streamAt y s k + 2 * y.total)))).map (·.1)

/-! ## Ready and pass A -/

/-- A write of PRESS_READY marks a layer's shard (R303, R317). -/
def Dev.pressReady (d : Dev) (l : Nat) : Dev :=
  match d.press.layer l with
  | none => d.pressFault 0 1 l 1
  | some y =>
    if d.reg Reg.pressLtCount ≤ l then d.pressFault 0 1 l 1
    else if y.frozen then
      let d := d.satFld Reg.pressDiscard fld32 1
      if d.flag Reg.pressCfg F.pressCfgStrict then { d with press := { d.press with frozenStrict := true } } else d
    else
      let n := Sparse.get (fun _ => 0) d.press.ready l + 1
      if y.readyExpect < n then d.pressFault 0 1 l 1
      else { d with press := { d.press with ready := Sparse.set (fun _ => 0) d.press.ready l n,
                                            readyQ := if n = y.readyExpect then d.press.readyQ ++ [l] else d.press.readyQ } }

/-- PRESS_READY (R303). -/
def execPressReady (m : Master) (v : Word) : State → Host.Outcome State Fault Refusal :=
  onDev (fun d => if Dev.maySet m Reg.pressReady then d.pressReady (v.toNat % 4096) else d)

/-- PASS_A_LAYER_START: the next ready layer, once the record of the step before stands (R40, R304). -/
def execPassALayerStart (c : Ctl) : State → Host.Outcome State Fault Refusal :=
  onDev (fun d =>
    let p := d.pr c
    match d.press.readyQ.find? (fun l => !p.aDone.contains l) with
    | some l =>
      if !d.pressing || d.press.prep || p.cur.isSome || d.press.dec.isSome || d.pst c == PressSt.stopped then d
      else (d.setPr c { p with cur := some l }).setPst c PressSt.passA l
    | none => d)

/-- What a press brings to a combination. -/
def Dev.setAcc (d : Dev) (c l : Nat) (a : List Word × Bool) : Dev :=
  d.modPr c (fun p => { p with acc := Sparse.insert p.acc l a })

/-- The device's part of a combination, once all four presses have brought theirs (R305). -/
def Dev.accOf (d : Dev) (l : Nat) (prog : List Word) : Option (List Word × Bool) :=
  match ctls.map (fun c => lookup (d.pr c).acc l) with
  | [some a, some b, some c, some e] => some (deviceAcc prog [a.1, b.1, c.1, e.1], a.2 || b.2 || c.2 || e.2)
  | _ => none

/-- To the layer's leader, once whole. -/
def Dev.sendSums (d : Dev) (l : Nat) (prog : List Word) : Dev :=
  match d.accOf l prog with
  | some a => if d.multi then d.send (.sums l a.1 a.2) else d
  | none => d

def noComb : Comb := ⟨[], false, w1, w1, w1⟩

/-- PASS_A_LAYER_END: PROG_A has run on every element of the press's part; its lanes combine (R304, R305). -/
def execPassALayerEnd (c : Ctl) : State → Host.Outcome State Fault Refusal :=
  onDev (fun d =>
    let p := d.pr c
    match p.cur.bind (fun l => (d.press.layer l).map (fun y => (l, y))) with
    | some (l, y) =>
      if d.pst c ≠ PressSt.passA ∨ !d.pressing then d
      else
        let r := d.ruleOf y
        let d := d.orderLayer y
        match d.pressReads ((d.streamUe y (d.slotAt d.live) r.progA c).or (d.recordUe c l)) with
        | (d, some a) => d.pressUe c l 1 a
        | (d, none) =>
        let es := pressElems y c
        let cb : Comb := { noComb with bc1 := biasCorr r.beta1 (d.ageOf c l + 1), bc2 := biasCorr r.beta2 (d.ageOf c l + 1) }
        let w := es.foldl (Walk.elem y r r.progA (d.slotAt d.live) d.altAt d.step 0 cb) (Walk.start d)
        let d := w.d.inc64 (Reg.pressElemsLo c) (Reg.pressElemsHi c) (es.filter (fun e => !y.padding e)).length
        let d := d.setAcc c l (lanesTree r.progA w.acc, w.nf)
        let d := d.modPr c (fun p => { p with cur := none, aDone := l :: p.aDone })
        (d.setPst c PressSt.idle 0).sendSums l r.progA
    | none => d)

/-! ## Combinations (R305, R306) -/

/-- The shards' sums in SHARD_POS order, when every one is there. -/
def allSums (y : Layer) (own : Option (List Word × Bool)) (peers : List CombPeer) : Option (List (List Word × Bool)) :=
  (List.range (y.shardsM1 + 1)).mapM (fun pos =>
    if y.chCount ≠ 0 ∧ pos = y.shardPos then own
    else (peers.find? (fun q => q.pos == pos)).map (fun q => (q.acc, q.nf)))

/-- R306, R302. -/
def Dev.combOf (d : Dev) (l : Nat) (y : Layer) (s : List (List Word × Bool)) : Comb :=
  let r := d.ruleOf y
  let sums := jobAcc r.progA (s.map (·.1))
  let t := d.ageOf 0 l + 1
  { sums := sums, nf := s.any (·.2), bc1 := biasCorr r.beta1 t, bc2 := biasCorr r.beta2 t,
    phi := trustRatio r.trMode (sums.getD 1 0) (d.wnormOf l) y.trMax }

/-- The program that squares W alone, of the preparation's recombination (R318): psumsq a0, W. -/
def normProg : List Word := [w32 (0x0C + 0x21 * 2 ^ 11)]

/-- Preparation ends once WNORM2 of every layer is recombined; the accumulators that brought it are cleared (R318, R321). -/
def Dev.endPrep (d : Dev) : Dev :=
  if d.press.prep && (List.range d.press.layers.length).all (fun l => (lookup d.press.wn l).isSome) then
    ctls.foldl (fun d c => d.setPst c PressSt.idle 0) { d with press := { d.press with
      prep := false, p := d.press.p.map (fun (e : Nat × Press) => (e.1, { e.2 with acc := [] })) } }
  else d

def Dev.putNorm (d : Dev) (l : Nat) (w : Word) : Dev :=
  let old := w32 (d.nat (d.recAt (d.slotAt d.live) l 0 + 16) 4)
  let d := if w = old then d else d.logEv 0 5 0 0 [w32 l, old, w]
  Dev.endPrep { d with press := { d.press with wn := Sparse.insert d.press.wn l w } }

/-- COMBINATION_RETURN: the combined accumulators of a layer reach every press: WNORM2 in a preparation and in pass B, the
tests and constants of the step in pass A (R305, R306, R311, R318). -/
def execCombinationReturn (layer : Nat) (peers : List CombPeer) : State → Host.Outcome State Fault Refusal :=
  onDev (fun d =>
    match d.press.layer layer with
    | none => d
    | some y =>
      let r := d.ruleOf y
      let inB := match d.press.dec with | some x => x.2 | none => false
      let prog := if d.press.prep then normProg else if inB then r.progB else r.progA
      if !d.started || (y.frozen && !d.press.prep) then d
      else match allSums y (d.accOf layer prog) peers with
      | none => d
      | some s =>
        if d.press.prep then
          if (lookup d.press.wn layer).isSome then d else d.putNorm layer ((jobAcc prog (s.map (·.1))).getD 0 0)
        else if inB then
          { d with press := { d.press with bsum := Sparse.insert d.press.bsum layer ((jobAcc prog (s.map (·.1))).getD 0 0) } }
        else { d with press := { d.press with comb := Sparse.insert d.press.comb layer (d.combOf layer y s) } })

/-! ## Step sizes (R308) -/

def Dev.showSsq (d : Dev) : Dev := d.setFld Reg.pressSsq F.pressSsqCount d.press.ssq.length
def negOrNonfinite (v : Word) : Bool := !fin32 v || (v.getLsbD 31 && v != 0x80000000#32)

/-- A write of PRESS_STEP_TAG pushes the held size with the tag. -/
def Dev.stepPush (d : Dev) (v : Word) : Dev :=
  let x := w32 (d.reg Reg.pressStepSize)
  if decide (4 ≤ d.press.ssq.length) || negOrNonfinite x then d.satFld Reg.pressSsq F.pressSsqRejected 1
  else Dev.showSsq { d with press := { d.press with ssq := d.press.ssq ++ [(v, x)] } }

/-- STEP_SIZE_PUSH (R308). -/
def execStepSizePush (m : Master) (v : Word) : State → Host.Outcome State Fault Refusal :=
  onDev (fun d => if Dev.maySet m Reg.pressStepTag then d.stepPush v else d)

/-- Has press `c` ended pass A on every unfrozen layer it holds a part of? -/
def Dev.endedA (d : Dev) (c : Nat) : Bool := d.press.sharded.all (fun l => (d.pr c).aDone.contains l)
def Dev.latched (d : Dev) : Bool := w32 (d.reg Reg.pressSsStep) == d.step
/-- Does the device wait for the step size of the step it runs? -/
def Dev.wantsSize (d : Dev) : Bool :=
  d.pressing && !d.press.prep && d.step != noStep && !d.hal.first && !d.hal.decGiven && !d.latched && !d.press.stepTimedOut
    && ctls.all d.endedA

/-- STEP_SIZE_LATCH: once, when all four presses have ended pass A. -/
def execStepSizeLatch : State → Host.Outcome State Fault Refusal :=
  onDev (fun d =>
    if !d.wantsSize then d
    else
      let n := d.step
      let old := d.press.ssq.takeWhile (fun e => decide (e.1.toNat < n.toNat))
      let rest := d.press.ssq.dropWhile (fun e => decide (e.1.toNat < n.toNat))
      let d := d.satFld Reg.pressSsq F.pressSsqDropped old.length
      match rest with
      | (t, x) :: q =>
        if t = n then
          (Dev.showSsq { d with press := { d.press with ssq := q } }).setReg Reg.pressSsLatched x.toNat |>.setReg Reg.pressSsStep n.toNat
        else Dev.showSsq { d with press := { d.press with ssq := rest } }
      | [] => Dev.showSsq { d with press := { d.press with ssq := [] } })

/-- STEP_SIZE_TIMEOUT: 5 ms without a latch. -/
def execStepSizeTimeout : State → Host.Outcome State Fault Refusal :=
  onDev (fun d =>
    if !d.wantsSize then d
    else { d.satFld Reg.pressSsq F.pressSsqTimeouts 1 with press := { d.press with stepTimedOut := true } })

/-! ## The decision arrival (R307, R309) -/

/-- R307. -/
def Dev.ageDigest (d : Dev) (c : Nat) : Word :=
  crc32 ((List.range d.press.layers.length).flatMap (fun l => toBytes 2 l ++ toBytes 4 (d.ageOf c l)))

def Comb.bad (c : Comb) : Bool := c.nf || c.sums.any (fun v => !fin32 v)
def Comb.absurd (c : Comb) (bound : Word) : Bool := (mul32 (f32 bound.toNat) (f32 bound.toNat)).lt (f32 (c.sums.getD 0 0).toNat)

/-- NONFINITE, ABSURD, STEP_SIZE and FROZEN_STRICT (R306, R308, R317). -/
def Dev.pressBits (d : Dev) : Word :=
  let cs := d.press.sharded.filterMap (fun l => (lookup d.press.comb l).bind (fun c => (d.press.layer l).map (fun y => (c, y))))
  w32 (b2n (cs.any (fun c => c.1.bad)) + 2 * b2n (cs.any (fun c => c.1.absurd c.2.absBound)) + 8 * b2n d.press.stepTimedOut
    + 16 * b2n d.press.frozenStrict)

/-- PRESS_DECISION_ARRIVAL (R309). -/
def execPressDecisionArrival (c : Ctl) : State → Host.Outcome State Fault Refusal :=
  onDev (fun d =>
    if !d.pressing || d.press.prep || d.hal.first || d.hal.decGiven || (d.pr c).decArr || d.pst c == PressSt.stopped || !d.endedA c
        || !d.press.sharded.all (fun l => (lookup d.press.comb l).isSome) || !(d.latched || d.press.stepTimedOut) then d
    else match d.pressReads (d.recordsUe c) with
    | (d, some a) => d.pressUe c 0 1 a
    | (d, none) =>
      let g := d.ageDigest c
      let d := (d.setReg (Reg.pressAgeDigest c) g.toNat).setPst c PressSt.atDecision 0
      let d := d.modPr c (fun p => { p with decArr := true, digest := g })
      { d with hal := { d.hal with pressFlags := d.hal.pressFlags ||| d.pressBits } })

/-! ## What PRESS_STATUS and PRESS_PROGRESS show -/

/-- PRESS_STATUS.WAIT: 1 ready, 2 step size, 3 decision, 4 release count, 5 combination. -/
def Dev.pressWait (d : Dev) (c : Nat) : Nat :=
  if !d.pressing || d.press.prep || (d.pr c).cur.isSome || d.pst c == PressSt.stopped || d.step == noStep || d.hal.first then 0
  else if d.pst c == PressSt.atDecision then (if d.hal.decGiven then 0 else 3)
  else if (d.pr c).decArr then
    (match (d.press.unfrozen.find? (fun l => !(d.pr c).bDone.contains l)).bind d.press.layer with
      | some y => if y.chCount != 0 && d.press.dec.isSome then 4 else 0
      | none => 0)
  else if !d.endedA c then 1
  else if !(d.latched || d.press.stepTimedOut) then 2
  else if d.press.sharded.all (fun l => (lookup d.press.comb l).isSome) then 0 else 5

/-- Layers ended in pass A and in pass B: of one press, or of all four in controller 0's window. -/
def Dev.pressProgress (d : Dev) (c : Nat) : Nat × Nat :=
  let f := fun (sel : Press → List Nat) =>
    if c = 0 then ((sel (d.pr 0)).filter (fun l => [1, 2, 3].all (fun k => (sel (d.pr k)).contains l))).length else (sel (d.pr c)).length
  (f Press.aDone, f Press.bDone)

/-! ## Regeneration (R312) -/

/-- FP32 values of the channel at shard index `i`, from the slot at `base`. -/
def Dev.channelVals (d : Dev) (y : Layer) (base i : Nat) : List NV :=
  (List.range y.len).map (fun pos => f32 (widen y (d.nat (base + y.wOff * 0x4000 + 2 * (i * y.stride + pos)) 2)).toNat)

/-- Codes packed into bytes: two 4-bit codes a byte, the even one low. -/
def packRegen (bits : Nat) : List Nat → List Byte
  | [] => []
  | a :: t =>
    if bits = 4 then
      match t with
      | b :: r => BitVec.ofNat 8 (a % 16 + b % 16 * 16) :: packRegen bits r
      | [] => [BitVec.ofNat 8 (a % 16)]
    else BitVec.ofNat 8 a :: packRegen bits t

/-- A channel's QPE and codes, written where R293 puts them; padding has code 0 (R291). -/
def Dev.regenChannel (d : Dev) (y : Layer) (base i : Nat) : Dev :=
  let vs := d.channelVals y base i
  let q := qpeFrom y.wcFmt (vs.foldl Range.add none) (vs.any (fun v => !v.isFinite))
  let cs := vs.map (qpeEncode q .rne)
  let q := { q with sat := isFloatFmt y.wcFmt && cs.any (·.sat) }
  let codes := cs.map (·.code) ++ List.replicate (y.stride - y.len) 0
  let ch := y.chFirst + i
  let d := d.orderHold y.headAt (1024 + y.codeBytes)
  let d := (List.range (y.stride / 128)).foldl (fun d g =>
    d.store (y.pieceAt (ch * y.stride / 128 + g)) (packRegen y.bits ((codes.drop (128 * g)).take 128))) d
  d.store (y.qpeAt ch) (toBytes 8 q.word.toNat)

/-- The pieces of this device's part of the codes, in ascending hold address. -/
def Layer.partPieces (y : Layer) : List Nat :=
  let q0 := y.chFirst * y.stride / 512
  let n := y.total / 512
  ((List.range (ceilDiv n y.perBlock)).map (fun b => ((List.range 4).map (fun k =>
    ((List.range y.perBlock).filter (fun j => decide (b * y.perBlock + j < n))).map (fun j =>
      y.pieceAt (4 * (q0 + b * y.perBlock + j) + k)))).flatten)).flatten

/-- WC_SUM: the words of the part, each rotated left by its index modulo 64, summed (R312). -/
def Dev.wcSum (d : Dev) (y : Layer) : DWord :=
  if y.chCount = 0 ∨ !y.hasCopy then 0
  else
    let words := y.partPieces.flatMap (fun a => (List.range (y.pieceBytes / 8)).map (fun i => w64 (d.nat (a + 8 * i) 8)))
    (words.foldl (fun (acc : DWord × Nat) w => (acc.1 + w.rotateLeft (acc.2 % 64), acc.2 + 1)) (0, 0)).1

/-! ## Preparation (R318) -/

/-- The arrays of a frozen layer go from the live slot to the alternate one. -/
def Dev.copyFrozen (d : Dev) (y : Layer) : Dev :=
  y.arrays.foldl (fun d o => d.store (d.altAt + o) (d.bytes (d.slotAt d.live + o) y.arrayBytes)) d

/-- A burst that failed before among what a preparation reads: the W of every layer with a shard, the live records, and at job start
the arrays of frozen layers: press, layer, address (R318, R319). -/
def Dev.prepUe (d : Dev) (ls : List (Nat × Layer)) (start : Bool) : Option (Nat × Nat × Nat) :=
  ls.findSome? (fun e =>
    (ctls.findSome? (fun c => ((d.streamUe e.2 (d.slotAt d.live) normProg c).or (d.recordUe c e.1)).map (fun a => (c, e.1, a)))).or
      (if start && e.2.frozen then
        (e.2.arrays.findSome? (fun o => d.eccFirst (d.slotAt d.live + o) e.2.arrayBytes)).map (fun a => (ctlOf a, e.1, a))
      else none))

/-- PRESS_ELEMS counts the elements that the press has processed. -/
def Dev.countElems (d : Dev) (c : Nat) (y : Layer) : Dev :=
  d.inc64 (Reg.pressElemsLo c) (Reg.pressElemsHi c) ((pressElems y c).filter (fun e => !y.padding e)).length

/-- A press's squares of the live W. -/
def Dev.normPart (d : Dev) (y : Layer) (c : Nat) : List Word × Bool :=
  let w := (pressElems y c).foldl (Walk.elem y (d.ruleOf y) normProg (d.slotAt d.live) d.altAt d.step 0 noComb) (Walk.start d)
  (lanesTree normProg w.acc, w.nf)

/-- The presses prepare every layer for step `v`; `start`: at job start, where frozen arrays are copied. -/
def Dev.prepare (d : Dev) (v : Word) (start : Bool) : Dev :=
  let ls := (List.range d.press.layers.length).filterMap (fun l => (d.press.layer l).map (fun y => (l, y)))
  let d := ls.foldl (fun d e => d.orderLayer e.2) d
  let x := d.prepUe ls start
  let f := d.pressReads (x.map (fun e => e.2.2))
  let d := if start && f.2.isNone then (ls.filter (fun e => e.2.frozen)).foldl (fun d e => d.copyFrozen e.2) f.1 else f.1
  let d := { d with press := { d.press with
    p := [], ready := [], readyQ := [], rel := [], relOld := [], copyIn := [], comb := [], bsum := [], regen := [], wn := [],
    prep := true, ver := some v, verDone := [], stepTimedOut := false, frozenStrict := false, dec := none, hdrOpen := false,
    spoilWait := false } }
  let d := ctls.foldl (fun d c => d.setPst c PressSt.preparing 0) d
  match x.filter (fun _ => f.2.isSome) with
  | some x => d.pressUe x.1 x.2.1 3 x.2.2
  | none =>
  let d := ls.foldl (fun d e =>
    let d := if e.2.hasCopy then
        let d := (List.range e.2.chCount).foldl (fun d i => d.regenChannel e.2 (d.slotAt d.live) i) d
        { d with press := { d.press with regen := Sparse.set (fun _ => 0) d.press.regen e.1 (2 ^ e.2.chCount - 1) } }
      else d
    let d := if e.2.chCount = 0 then d
      else (ctls.foldl (fun d c => (d.setAcc c e.1 (d.normPart e.2 c)).countElems c e.2) d).sendSums e.1 normProg
    if e.2.shardsM1 = 0 ∧ e.2.chCount ≠ 0 then
      match d.accOf e.1 normProg with
      | some a => d.putNorm e.1 ((jobAcc normProg [a.1]).getD 0 0)
      | none => d
    else d) d
  d.endPrep.tryVersions

/-! ## Pass B -/

/-- The decision the presses act out: commit of this step. -/
def Dev.committing (d : Dev) : Option Word :=
  match d.press.dec with
  | some (n, true) => some n
  | _ => none

/-- The header of the alternate slot, open (R325). -/
def Dev.openHeader (d : Dev) : Dev :=
  let d := d.pressStore d.altAt (d.headerBytes (1 - d.live) noStep)
  { d with press := { d.press with hdrOpen := true } }.showProof

/-- R335: does an open mirror name the alternate slot? -/
def Dev.mirrorInWay (d : Dev) : Bool :=
  d.flag Reg.pressMirrorCtl F.pressMirrorCtlOpen && d.fld Reg.pressMirrorCtl F.pressMirrorCtlSlot != d.live

/-- OPEN clears, the spoil is counted and logged. -/
def Dev.spoiled (d : Dev) : Dev :=
  let d := (d.setFlag Reg.pressMirrorCtl F.pressMirrorCtlOpen false).satFld Reg.pressMirrorSpoiled fld32 1
  { d with press := { d.press with spoilWait := false } }.logEv 0 5 0 1 [w32 (d.fld Reg.pressMirrorCfg F.pressMirrorCfgPartner)]

/-- Before the first header of a step: an open mirror of the slot is spoiled at its partner first (R335). -/
def Dev.startSpoil (d : Dev) : Dev :=
  let partner := d.fld Reg.pressMirrorCfg F.pressMirrorCfgPartner
  match d.remoteReq partner 3 (d.kindBase 2) (.write [3]) with
  | some d' => { d' with press := { d'.press with spoilWait := true } }
  | none => d.spoiled

/-- MIRROR_SPOIL_ACK: the spoil write is acknowledged (R335). -/
def execMirrorSpoilAck : State → Host.Outcome State Fault Refusal :=
  onDev (fun d => if d.press.spoilWait then d.spoiled else d)

/-- Release counts of the decided step (log entry 43). -/
def Dev.relOf (d : Dev) (n : Word) (l : Nat) : Nat :=
  Sparse.get (fun _ => 0) (if d.step = n then d.press.rel else d.press.relOld) l

/-- The layer press `c` takes next in pass B. -/
def Dev.nextB (d : Dev) (c : Nat) : Option Nat := d.press.unfrozen.find? (fun l => !(d.pr c).bDone.contains l)

def Dev.combFor (d : Dev) (l : Nat) : Comb := (lookup d.press.comb l).getD noComb

/-- Every element of the press's part by PROG_B; a non-finite value at a pst is fault 0x6, and at the same step and layer
twice ends the job (R311, R320). -/
def Dev.runB (d : Dev) (c l : Nat) (y : Layer) (n : Word) : Dev :=
  let r := d.ruleOf y
  let d := d.orderLayer y
  match d.pressReads ((d.streamUe y (d.slotAt d.live) r.progB c).or (d.recordUe c l)) with
  | (d, some a) => d.pressUe c l 2 a
  | (d, none) =>
  let es := pressElems y c
  let eta := w32 (d.reg Reg.pressSsLatched)
  let w := es.foldl (Walk.elem y r r.progB (d.slotAt d.live) d.altAt n eta (d.combFor l)) (Walk.start d)
  let d := w.d
  if w.bad then
    if d.press.lastFault6 = some (n, l) then (d.pressFault c 6 l 2).fatal 5 6 c 4 none
    else { d.pressFault c 6 l 2 with press := { (d.pressFault c 6 l 2).press with lastFault6 := some (n, l) } }
  else
    let d := d.inc64 (Reg.pressElemsLo c) (Reg.pressElemsHi c) (es.filter (fun e => !y.padding e)).length
    let d := d.freshStreams y d.altAt r.progB c
    ((d.setAcc c l (lanesTree r.progB w.acc, w.nf)).modPr c (fun p => { p with cur := some l })).setPst c PressSt.passB l
      |>.sendSums l r.progB

/-- PASS_B_LAYER_START: commit, a latched step size and the full release count, of which other devices' tiles brought
`peers` (R255, R310, R311); a device without a shard runs no element. -/
def execPassBLayerStart (c : Ctl) (peers : Nat) : State → Host.Outcome State Fault Refusal :=
  onDev (fun d =>
    match d.committing, (d.nextB c).bind (fun l => (d.press.layer l).map (fun y => (l, y))) with
    | some n, some (l, y) =>
      let rel := d.relOf n l + peers
      if !d.pressing || (d.pr c).cur.isSome || d.pst c == PressSt.stopped || w32 (d.reg Reg.pressSsStep) != n || d.press.spoilWait then d
      else if y.chCount = 0 then (d.modPr c (fun p => { p with cur := some l })).setPst c PressSt.passB l
      else if y.relExpect < rel then d.pressFault c 2 l 2
      else if rel < y.relExpect then d
      else if d.press.hdrOpen then d.runB c l y n
      else if d.mirrorInWay then d.startSpoil
      else d.openHeader.runB c l y n
    | _, _ => d)

/-- RELEASE_COUNT_LIMIT: the count of a layer with a shard here is still short at the limit, with what other devices' tiles brought
(R255, R310). -/
def execReleaseCountLimit (c : RelLimit) : State → Host.Outcome State Fault Refusal :=
  onDev (fun d =>
    match d.committing, d.press.layer c.layer with
    | some n, some y =>
      if d.pressing && d.pst c.ctl != PressSt.stopped && !y.frozen && y.chCount != 0 && decide (d.relOf n c.layer + c.peers < y.relExpect) then
        d.pressFault c.ctl 3 c.layer 2
      else d
    | _, _ => d)

/-- CHANNEL_REGEN: the four presses' partial ranges combine; every press encodes its part (R312). -/
def execChannelRegen (layer : Nat) (ch : Nat) : State → Host.Outcome State Fault Refusal :=
  onDev (fun d =>
    match d.press.layer layer with
    | none => d
    | some y =>
      let done := Sparse.get (fun _ => 0) d.press.regen layer
      if d.committing.isNone || !d.pressing || !y.hasCopy || decide (y.chCount ≤ ch) || done.testBit ch
          || !ctls.all (fun c => (d.pr c).cur == some layer && d.pst c == PressSt.passB) then d
      else
        let d := d.regenChannel y d.altAt ch
        { d with press := { d.press with regen := Sparse.set (fun _ => 0) d.press.regen layer (done + 2 ^ ch) } }.tryVersion layer)

/-- PASS_B_LAYER_END: the press writes its replica of the layer's record (R296, R311). -/
def execPassBLayerEnd (c : Ctl) : State → Host.Outcome State Fault Refusal :=
  onDev (fun d =>
    match (d.pr c).cur.bind (fun l => (d.press.layer l).map (fun y => (l, y))) with
    | some (l, y) =>
      match lookup d.press.bsum l with
      | some wn =>
        if d.committing.isNone || !d.pressing || d.pst c != PressSt.passB || (y.hasCopy && !d.regenDone l y) then d
        else
          let rec_ := toBytes 4 (d.ageOf c l + 1) ++ List.replicate 4 0 ++ toBytes 8 (d.wcSum y).toNat ++ toBytes 4 wn.toNat
            ++ List.replicate 236 0
          let d := d.pressStore (d.recAt d.altAt l c) rec_
          (d.modPr c (fun p => { p with cur := none, bDone := l :: p.bDone })).setPst c PressSt.passB 0
      | none => d
    | none => d)

/-- A write of PRESS_COPY_IN counts the codes that have come in (R314). -/
def Dev.pressCopyIn (d : Dev) (l : Nat) : Dev :=
  match d.press.layer l with
  | none => d.pressFault 0 4 l 0
  | some y =>
    let n := d.copyIns l + 1
    if !y.hasCopy || decide (y.inExpect < n) then d.pressFault 0 4 l 0
    else { d with press := { d.press with copyIn := Sparse.set (fun _ => 0) d.press.copyIn l n } }.tryVersion l

/-- PRESS_COPY_IN (R314). -/
def execPressCopyIn (m : Master) (v : Word) : State → Host.Outcome State Fault Refusal :=
  onDev (fun d => if Dev.maySet m Reg.pressCopyIn then d.pressCopyIn (v.toNat % 4096) else d)

/-! ## The commit work (R68, R315 to R317, R325) -/

/-- E of R68's enc_exp before its clamp: the largest with m × 2^E at most max finite. -/
def scaleExp (f : FloatFmt) (m : NV) : Int :=
  match m, f.dec f.maxCode with
  | .fin a, .fin b =>
    let em : Int := a.exp + Nat.log2 a.man
    let ef : Int := b.exp + Nat.log2 b.man
    let e := ef - em
    if a.man * 2 ^ Nat.log2 b.man > b.man * 2 ^ Nat.log2 a.man then e - 1 else e
  | _, _ => 0

def clampExp (e : Int) : Int := max (-126) (min 126 e)
def sExp (b : Nat) : Int := if b < 128 then (b : Int) else (b : Int) - 256
def fmtFloat (c : Nat) : FloatFmt :=
  match fmtOf c with
  | some (.flt f) => f
  | _ => e4m3

/-- scale_commit (R68) on the 64 bytes of an entry; MODE 0b01 stays cold (R70). -/
def scaleCommit (e : List Byte) : List Byte :=
  let w0 := natAt e 0 4
  let w1 := natAt e 4 4
  let w2 := natAt e 8 4
  let h := bitsAt w1 8 4
  let cur := natAt e 12 2
  let sat := bitsAt w1 19 1
  let ring := (List.range 16).map (fun k => if k = h then cur else natAt e (16 + 2 * k) 2)
  let valid := putBits (bitsAt w2 0 16) h 1 1
  let w2' := putBits (putBits w2 0 16 valid) (16 + h) 1 sat
  let cold := bitsAt w1 12 1
  let left := bitsAt w1 13 5
  let just := bitsAt w0 16 2 == 1
  let left' := if cold = 1 ∧ !just then left - 1 else left
  let cold' := if cold = 1 ∧ !just ∧ left' = 0 then 0 else cold
  let w1a := putBits (putBits (putBits w1 8 4 ((h + 1) % 16)) 12 1 cold') 13 5 left'
  let w1b :=
    if cold' = 1 then w1a
    else
      let m := (List.range 16).foldl (fun (m : NV) k =>
        if valid / 2 ^ k % 2 = 1 then m.vmax (bf16.dec (ring.getD k 0)) else m) zero
      let ex := if m.isZero then 0 else clampExp (scaleExp (fmtFloat (bitsAt w0 18 4)) m - (bitsAt w0 22 4 : Nat))
      let ex := if sat = 1 then min ex (sExp (bitsAt w1 0 8) - 1) else ex
      putBits (putBits w1a 18 1 (b2n m.isZero)) 0 8 ((max ex (-126)) % 256).toNat
  toBytes 4 w0 ++ toBytes 4 (putBits w1b 19 1 0) ++ toBytes 4 w2' ++ List.replicate 4 0 ++ (ring.map (toBytes 2)).flatten ++ (e.drop 48).take 16

/-- The fields "in proof": JIT, AMAX_CUR and SAT_PENDING are not. -/
def scaleProof (e : List Byte) : List Byte :=
  toBytes 4 (putBits (natAt e 0 4) 26 1 0) ++ toBytes 4 (putBits (natAt e 4 4) 19 1 0) ++ (e.drop 8).take 4 ++ List.replicate 4 0
    ++ (e.drop 16).take 32 ++ List.replicate 16 0

/-- The entries whose granule in the alternate slot the controller holds. -/
def Dev.commitScales (d : Dev) (c : Nat) : Dev :=
  ((List.range d.job.scaleCount).filter (fun i => ctlOf (d.scaleSlotAt d.altAt i) == c)).foldl (fun d i =>
    let at_ := d.job.scaleAt + 64 * i
    let old := d.bytes at_ 64
    let e := scaleCommit old
    let d := { d with press := { d.press with scaleUndo := (at_, old) :: d.press.scaleUndo } }
    (d.pressStore at_ e).pressStore (d.scaleSlotAt d.altAt i) (scaleProof e)) d

/-- The frozen layers' records, unchanged (R317). -/
def Dev.keepFrozen (d : Dev) (c : Nat) : Dev :=
  ((List.range d.press.layers.length).filter (fun l => match d.press.layer l with | some y => y.frozen | none => false)).foldl
    (fun d l => d.pressStore (d.recAt d.altAt l c) (d.bytes (d.recAt (d.slotAt d.live) l c) 256)) d

/-- A burst that failed before among what press `c` reads for the commit work: frozen layers' records, its scale entries (R319). -/
def Dev.workUe (d : Dev) (c : Nat) : Option Nat :=
  (d.recordsUe c).or (((List.range d.job.scaleCount).filter (fun i => ctlOf (d.scaleSlotAt d.altAt i) == c)).findSome? (fun i =>
    d.eccFirst (d.job.scaleAt + 64 * i) 64))

def Dev.comArrive (d : Dev) (c : Nat) : Dev :=
  (d.modPr c (fun p => { p with comArr := true, worked := true, cur := none })).setPst c PressSt.atCommit 0

/-- PRESS_COMMIT_WORK: the scale commit, the frozen layers' records and, on controller 0, the final header; then the arrival
at the commit barrier. A skip leaves only the arrival (R315, R316). -/
def execPressCommitWork (c : Ctl) : State → Host.Outcome State Fault Refusal :=
  onDev (fun d =>
    match d.press.dec with
    | none => d
    | some (n, commit) =>
      let p := d.pr c
      if !d.pressing || p.worked || p.cur.isSome || d.pst c == PressSt.stopped then d
      else if !commit then d.comArrive c
      else if !d.press.unfrozen.all (fun l => p.bDone.contains l)
          || !(List.range d.press.layers.length).all (fun l => match d.press.layer l with
            | some y => !y.hasCopy || d.press.verDone.contains l | none => true) || d.press.spoilWait then d
      else if c.val = 0 ∧ !d.press.hdrOpen ∧ d.mirrorInWay then d.startSpoil
      else match d.pressReads (d.workUe c) with
      | (d, some a) => d.pressUe c 0 2 a
      | (d, none) =>
        let d := if c.val = 0 ∧ !d.press.hdrOpen then d.openHeader else d
        let d := (d.commitScales c).keepFrozen c
        let d := if c.val = 0 then (d.pressStore d.altAt (d.headerBytes (1 - d.live) n)).showProof else d
        d.comArrive c)

end Sys2Proof.Machine
end

