-- ==== Sys2Proof/Machine/Steal.lean ====
section
/-! DEFINITION. Sys2Proof/Machine/Steal.lean: the steal queues, task records, taking, landing and task channels (R269 to R281,
R150). -/

namespace Sys2Proof.Machine

/-! ## Records (R270) -/

namespace QRec
def word (r : QRec) (i : Nat) : Nat := natAt r.bytes (4 * i) 4
def task (r : QRec) : Nat := bitsAt (r.word 0) 0 16
def wave (r : QRec) : Nat := bitsAt (r.word 0) 16 4
def ndesc (r : QRec) : Nat := bitsAt (r.word 0) 20 3
def mask (r : QRec) : Nat := bitsAt (r.word 0) 24 6
def slot (r : QRec) : Nat := bitsAt (r.word 1) 0 10
def pair (r : QRec) : Nat := bitsAt (r.word 1) 16 11
def desc (r : QRec) (i : Nat) : DescRun := descOf ((r.bytes.drop (64 + 32 * i)).take 32)
end QRec

def Dev.slotBase (d : Dev) (y s : Nat) : Nat :=
  d.reg64 (Reg.yardSqSlotBaseLo y) (Reg.yardSqSlotBaseHi y) + s * 64 * d.fld (Reg.yardSqSlotSize y) F.yardSqSlotSizeUnits

/-- Does every row that a drain writes lie in the task's slot (R270, R281)? -/
def Dev.drainFits (d : Dev) (y : Nat) (r : QRec) (x : DescRun) : Bool :=
  let lo := d.slotBase y r.slot
  let hi := lo + 64 * d.fld (Reg.yardSqSlotSize y) F.yardSqSlotSizeUnits
  d.isLocal x.dst && (List.range x.rows).all (fun i =>
    decide (lo ≤ gaAddr x.dst + i * x.dstStride) && decide (gaAddr x.dst + i * x.dstStride + x.rowBytes ≤ hi))

/-- One template: exactly one galley side, its address 0, otherwise a descriptor of R218, drains within the slot. -/
def Dev.templateOk (d : Dev) (y : Nat) (r : QRec) (i : Nat) : Bool :=
  let x := r.desc i
  (x.srcGal != x.dstGal) && descShape x && (if x.srcGal then x.src == 0 && d.drainFits y r x else x.dst == 0)

def Dev.recordOk (d : Dev) (y : Nat) (r : QRec) : Bool :=
  bitsAt (r.word 0) 23 1 == 0 && bitsAt (r.word 0) 30 2 == 0 && bitsAt (r.word 1) 10 6 == 0 && bitsAt (r.word 1) 27 5 == 0
    && ofBytes ((r.bytes.drop 8).take 24) == 0 && decide (r.ndesc ≤ 6)
    && (r.pair == 0x7FF || (match d.slotOf r.pair with | some p => slotIsMt p && p / 24 == y | none => false))
    && (List.range r.ndesc).all (d.templateOk y r) && !(d.yard y).tasksUsed.contains r.task

def Dev.sqClosed (d : Dev) (y : Nat) : Bool := d.flag (Reg.yardSqState y) F.yardSqStateClosed

/-- The lowest entry number that no untaken record holds (log entry 33). -/
def YardS.freeEntry (q : YardS) : Nat := ((List.range 64).find? (fun e => !q.recs.any (fun r => r.entry == e))).getD 0

/-- A steal fault of a tile: its yard's register, and a program fault of cause 0x6 (R271, R279). -/
def stealRaise (d : Dev) (h : Iss) (k : Core) (cls fn y kind entry task : Nat) : Res :=
  .raised ((d.sqFault y kind (h.slot.val % 24) entry task).progFault h.slot h.core cls fn k.pc 6 0)

/-- SPOST: the record at sA joins the yard's queue (R269 to R271). A closed queue refuses it unseen; a record that does not lie
in the store on a 64-byte boundary breaks R270 and is not read (log entry 105: TASK_ID then reads 0). -/
def execSpost (h : Iss) (a : R5) : State → Host.Outcome State Fault Refusal :=
  tileInstr h (.spost h a) { cls := 0x12, fn := 0, s := [a] } (fun d k _ =>
    let y := h.slot.val / 24
    if 64 ≤ (d.yard y).recs.length ∧ !d.sqClosed y then .stall d
    else if !localOk (k.sreg a) 64 256 then stealRaise d h k 0x12 0 y (if d.sqClosed y then 3 else 2) (d.yard y).freeEntry 0
    else loadLocal d h (k.sreg a) 64 256 (fun d =>
      let q := d.yard y
      let r : QRec := ⟨q.freeEntry, d.bytes (tileBase h.slot + (k.sreg a).toNat) 256⟩
      if d.sqClosed y then stealRaise d h k 0x12 0 y 3 r.entry r.task
      else if d.fld (Reg.yardSqSlotCount y) F.yardSqSlotCountCount ≤ r.slot ∨ q.slotsUsed.contains r.slot then
        stealRaise d h k 0x12 0 y 1 r.entry r.task
      else if !d.recordOk y r then stealRaise d h k 0x12 0 y 2 r.entry r.task
      else
        .done ((d.setYard y { q with recs := q.recs ++ [r], slotsUsed := r.slot :: q.slotsUsed, tasksUsed := r.task :: q.tasksUsed }).incFld
          (Reg.yardSqWave y r.wave) F.yardSqWavePosted 1)))

/-! ## Queue states (R269) -/

def sctl (h : Iss) (i : Instr) (f : Dev → Nat → Dev) : State → Host.Outcome State Fault Refusal :=
  tileInstr h i { cls := 0x12, fn := 1 } (fun d _ _ => .done (f d (h.slot.val / 24)))

/-- SCTL_OPEN: posts accepted, takes served (R269). -/
def execSctlOpen (h : Iss) : State → Host.Outcome State Fault Refusal :=
  sctl h (.sctlOpen h) (fun d y => d.setFlag (Reg.yardSqState y) F.yardSqStateClosed false)
/-- SCTL_CLOSE: further posts refused (R269). -/
def execSctlClose (h : Iss) : State → Host.Outcome State Fault Refusal :=
  sctl h (.sctlClose h) (fun d y => d.setFlag (Reg.yardSqState y) F.yardSqStateClosed true)
/-- SCTL_DRAIN: closed, and every untaken record counts as done in its wave (R269); an arrival that waits for it may now leave
(R280). -/
def execSctlDrain (h : Iss) : State → Host.Outcome State Fault Refusal :=
  sctl h (.sctlDrain h) (fun d y =>
    let d := d.setFlag (Reg.yardSqState y) F.yardSqStateClosed true
    let d := (d.yard y).recs.foldl (fun d r => d.incFld (Reg.yardSqWave y r.wave) F.yardSqWaveDone 1) d
    (d.modYard y (fun q => { q with recs := [] })).settle h.slot)

/-! ## Taking (R273) -/

/-- Open: no PAIR, or its wave is open to all. -/
def Dev.recOpen (d : Dev) (y : Nat) (r : QRec) : Bool :=
  r.pair == 0x7FF || d.reg (Reg.yardSqWaveOpen y) / 2 ^ r.wave % 2 == 1

/-- Records stand oldest first. -/
def Dev.take_ (d : Dev) (y t : Nat) (own : Bool) : Option QRec :=
  let q := (d.yard y).recs
  match (if own then q.find? (fun r => r.pair == t) else none) with
  | some r => some r
  | none => q.find? (d.recOpen y)

/-- Enabled victims in field order (R274). -/
def Dev.victims (d : Dev) (y : Nat) : List Nat :=
  (List.range 4).filterMap (fun i =>
    let f := bitsAt (d.reg (Reg.yardSqVictim y)) (8 * i) 8
    if f / 128 = 1 then some (f % 64) else none)

/-- The record a tile of yard `y` with logical ID `t` gets, and from which yard. -/
def Dev.findTask (d : Dev) (y t : Nat) : Option (Nat × QRec) :=
  match d.take_ y t true with
  | some r => some (y, r)
  | none => (d.victims y).findSome? (fun v => (d.take_ v t false).map (v, ·))

def Dev.allClosed (d : Dev) (y : Nat) : Bool :=
  (y :: d.victims y).all (fun v => d.sqClosed v && (d.yard v).recs.isEmpty)

def Dev.heldCount (d : Dev) (p : Nat) : Nat := (d.tile p).held.length + (d.tile p).landing.length

/-- The lower-numbered landing area that the tile does not use (R275): false for area 0. -/
def Dev.freeArea (d : Dev) (p : Nat) : Bool :=
  ((d.tile p).held ++ (d.tile p).landing.map (·.held)).any (fun x => !x.area)

def Dev.freeChan (d : Dev) (y : Nat) : Option Nat :=
  (List.range 32).find? (fun c => !(d.yard y).chans.any (fun e => e.1 == c) &&
    !(List.range 24).any (fun s => (d.tile (24 * y + s)).landing.any (fun l => l.held.ch == c)))

def handleOf (r : QRec) (y : Nat) (paired area : Bool) : DWord :=
  w64 (r.entry + y * 2 ^ 6 + r.task * 2 ^ 12 + r.wave * 2 ^ 28 + b2n paired * 2 ^ 32 + b2n area * 2 ^ 33)

/-- What a take comes to. `badLand`: the landing write is a store that a core could not make (R130, R161, R275). -/
inductive Take where
  | got (d : Dev)
  | none (closed : Bool)
  | refused (kind y entry task : Nat)
  | badLand (addr : Nat)

/-- R273 to R275: the record leaves the queue for the taker's landing area, where 64 bytes are stored as core 0 stores them: in
the store and clear of the code region, in banks that TILE owns. -/
def Dev.takeTask (d : Dev) (p : Nat) (c : Fin 4) (r : R5) : Take :=
  let y := p / 24
  if 2 ≤ d.heldCount p then .refused 4 y 0 0
  else
    match d.findTask y (d.logical p), d.freeChan y with
    | some (v, q), some ch =>
      let area := d.freeArea p
      let paired := q.pair == d.logical p && v == y
      let at_ := d.fld (Reg.tileSqLand p) F.tileSqLandAddr + 64 * b2n area
      if storeBytes < at_ + 64 ∨ at_ < (d.tile p).image.codeEnd then .badLand at_
      else if !d.mayWrite p at_ 64 ownTile then .refused 7 v q.entry q.task
      else
        let d := d.modYard v (fun x => { x with recs := x.recs.filter (fun e => e.entry != q.entry) })
        let d := if v = y then (if paired then d else d.satFld (Reg.yardSqStolen v) F.yardSqStolenLocal 1)
          else d.satFld (Reg.yardSqStolen v) F.yardSqStolenRemote 1
        .got (d.modTile p (fun t => { t with
          landing := t.landing ++ [⟨⟨handleOf q v paired area, v, q.wave, area, ch⟩, at_, q.bytes, paired, c, r⟩] }))
    | _, _ => .none (d.allClosed y)

/-- Statuses of stake (R150). -/
def statusEmpty : DWord := 0x8000000000000001#64
def statusClosed : DWord := 0x8000000000000002#64

def stakeBody (h : Iss) (fn : Nat) (wait : Bool) (r : R5) (d : Dev) (k : Core) : Res :=
  match d.takeTask h.slot h.core r with
  | .got d' => .done d'
  | .none closed => if closed then .done (d.putS h r statusClosed) else if wait then .stall d else .done (d.putS h r statusEmpty)
  | .refused kind y e t => stealRaise d h k 0x11 fn y kind e t
  | .badLand a => .fault d 2 (w64 a)

/-- STAKE: never stalls (R150, R273). -/
def execStake (h : Iss) (d : R5) : State → Host.Outcome State Fault Refusal :=
  tileInstr h (.stake h d) { cls := 0x11, fn := 0, s := [d] } (fun dev k _ => stakeBody h 0 false d dev k)

/-- STAKE_W: stalls while the queue is empty and open (R150, R273). -/
def execStakeW (h : Iss) (d : R5) : State → Host.Outcome State Fault Refusal :=
  tileInstr h (.stakeW h d) { cls := 0x11, fn := 1, s := [d] } (fun dev k _ => stakeBody h 1 true d dev k)

/-- The stake.w at which a core waits. -/
def Dev.waitingStake (d : Dev) (p c : Nat) : Option (Iss × R5) :=
  let k := d.core p c
  if k.run = .stalled then (match k.stalled with | some (.stakeW h r) => some (h, r) | _ => none) else none

/-- STAKE_W_POLL: a waiting stake.w queries its queue and victims again (R274). -/
def execStakeWPoll (slot : Slot) (core : Fin 4) : State → Host.Outcome State Fault Refusal :=
  onCore slot core (fun d =>
    match d.waitingStake slot core with
    | some (h, r) =>
      match stakeBody h 1 true r d (d.core slot core) with
      | .done d' => (d'.modCore slot core (fun k => k.advance false)).counted slot
      | .fault d' cause a => d'.progFault slot core 0x11 1 (d.core slot core).pc cause a
      | .raised d' => d'
      | _ => d
    | none => d)

/-- STAKE_W_LIMIT: kind 0x5 (R279). -/
def execStakeWLimit (slot : Slot) (core : Fin 4) : State → Host.Outcome State Fault Refusal :=
  onCore slot core (fun d =>
    match d.waitingStake slot core with
    | some _ => (d.sqFault (slot.val / 24) 5 (slot.val % 24) 0 0).progFault slot core 0x11 1 (d.core slot core).pc 6 0
    | none => d)

/-! ## Landing and channels (R275, R276) -/

/-- A template with the taker's store in place of the galley side's address. -/
def DescRun.forTaker (r : DescRun) (p : Nat) : DescRun :=
  let b := tileBase p
  let put := fun (i : Nat) => (r.w.set i (w32 b)).set (i + 1) (w32 (b / 2 ^ 32))
  if r.srcGal then { r with w := put 0 } else { r with w := put 2 }

/-- TASK_LANDING: header and ARGS are in the taker's store, the channel starts, the handle returns (R272, R275, R276). -/
def execTaskLanding (slot : Slot) : State → Host.Outcome State Fault Refusal :=
  onDev (fun d =>
    match (d.tile slot).landing with
    | [] => d
    | l :: rest =>
      let y := slot.val / 24
      let q : QRec := ⟨0, l.record⟩
      let ds := (List.range q.ndesc).filter (fun i => !l.paired || q.mask / 2 ^ i % 2 == 1) |>.map (fun i => (q.desc i).forTaker slot)
      let d := d.store (tileBase slot + l.at_) (l.record.take 64)
      let d := d.modYard y (fun x => { x with
        chans := Sparse.insert x.chans l.held.ch ⟨l.held.handle, slot, l.held.yard, l.held.wave, ds, false, false⟩ })
      let d := d.modTile slot (fun t => { t with landing := rest, held := t.held ++ [l.held] })
      d.modCore slot l.core (fun k => k.setS l.d l.held.handle))

def Dev.chan (d : Dev) (y c : Nat) : Option Channel := ((d.yard y).chans.find? (fun e => e.1 = c)).map (·.2)
def Dev.setChan (d : Dev) (y c : Nat) (x : Channel) : Dev := d.modYard y (fun q => { q with chans := Sparse.insert q.chans c x })

/-- CHANNEL_REQUEST_ISSUE: the next request of descriptor `i` of the channel, to its completion; an access error stops the
channel with kind 0x6 and aborts the step (R276, R279). -/
def execChannelRequestIssue (y : Yard) (ch : Fin 32) (i : Nat) (r : Remote) : State → Host.Outcome State Fault Refusal :=
  onDev (fun d =>
    match d.chan y ch with
    | none => d
    | some c =>
      match c.descs[i]? with
      | none => d
      | some run =>
        if c.stopped then d
        else if !d.descGalley run then
          let task := bitsAt c.handle.toNat 12 16
          ((d.setChan y ch { c with stopped := true }).sqFault y 6 0x1F ch task).notice 2 6 y
        else
          let o := d.descIssue run
          match o.1.descComplete (.desc (24 * y.val + 23)) o.2 (o.2.out.length - 1) r with
          | .same => o.1
          | .ok d' run' => d'.setChan y ch { c with descs := c.descs.set i run' }
          | .err d' run' _ =>
            let task := bitsAt c.handle.toNat 12 16
            ((d'.setChan y ch { c with descs := c.descs.set i run', stopped := true }).sqFault y 6 0x1F ch task).notice 2 6 y)

/-- SDONE: the taker is done with the handle in sA (R150, R277). -/
def execSdone (h : Iss) (a : R5) : State → Host.Outcome State Fault Refusal :=
  tileInstr h (.sdone h a) { cls := 0x11, fn := 2, s := [a] } (fun d k _ =>
    let y := h.slot.val / 24
    match (d.tile h.slot).held.find? (fun x => x.handle == k.sreg a) with
    | none => stealRaise d h k 0x11 2 y 4 0 0
    | some x =>
      let d := d.modTile h.slot (fun t => { t with held := t.held.erase x })
      match d.chan y x.ch with
      | some c => .done (d.setChan y x.ch { c with sdone := true })
      | none => .done d)

/-- TASK_COMPLETE: sdone and every descriptor complete: the channel frees, DONE of the wave rises (R277), and an arrival of the
queue's CT that waits for it may leave (R280). -/
def execTaskComplete (y : Yard) (ch : Fin 32) : State → Host.Outcome State Fault Refusal :=
  onDev (fun d =>
    match d.chan y ch with
    | none => d
    | some c =>
      if c.sdone && !c.stopped && c.descs.all (·.finished) then
        ((d.modYard y (fun q => { q with chans := Sparse.erase q.chans ch })).incFld (Reg.yardSqWave c.yard c.wave) F.yardSqWaveDone 1).settle
          (24 * c.yard + 23)
      else d)

end Sys2Proof.Machine
end

