-- ==== Sys2Proof/Machine/Registers.lean ====
section
/-! DEFINITION. Sys2Proof/Machine/Registers.lean: reads and writes of control space (R6 to R9, R27, R28, R132): what a
register shows, access codes and the lock of R8, the pairs of R7, and the registers whose write does more than store. -/

namespace Sys2Proof.Machine

/-! ## What a register shows -/

/-- A core's state as TILE_CORE_PC codes it. -/
def Run.code : Run → Nat
  | .halted => 0
  | .running => 1
  | .stalled => 2
  | .stopped => 3

def sumBits (l : List (Nat × Nat)) : Nat := l.foldl (fun acc e => acc + e.2 * 2 ^ e.1) 0
def flagsOf (n : Nat) (f : Nat → Bool) : Nat := sumBits ((List.range n).map (fun i => (i, b2n (f i))))

/-- TILE_MT_STATUS. -/
def Tile.mtStatus (t : Tile) : Nat :=
  let busy := !t.mq.isEmpty
  sumBits [(0, flagsOf 8 (fun g => (t.group 0 g).st != .closed)), (8, flagsOf 8 (fun g => (t.group 1 g).st != .closed)),
    (16, t.arrQ 0), (19, t.arrQ 1), (22, t.epQ 0), (24, t.epQ 1),
    (26, flagsOf 4 (fun k => (t.bank (k / 2) (k % 2)).valid)), (31, b2n busy)]
/-- TILE_MT_GFLAGS (R91). -/
def Tile.mtGflags (t : Tile) : Nat :=
  sumBits [(0, flagsOf 8 (fun g => (t.group 0 g).sat)), (8, flagsOf 8 (fun g => (t.group 1 g).sat)),
    (16, flagsOf 8 (fun g => (t.group 0 g).nf)), (24, flagsOf 8 (fun g => (t.group 1 g).nf))]

/-- TILE_MT_DBGDATA in debug mode (R92); an address beyond the group's rows and columns selects nothing and reads 0. -/
def Dev.dbgData (d : Dev) (p : Nat) : Nat :=
  let a := Reg.tileMtDbgaddr p
  let g := (d.tile p).group (d.fld a F.tileMtDbgaddrArray) (d.fld a F.tileMtDbgaddrGroup)
  let i := d.fld a F.tileMtDbgaddrRow
  let j := d.fld a F.tileMtDbgaddrCol
  match d.fld a F.tileMtDbgaddrSel with
  | 0 => if i < 64 ∧ j < 48 then (g.at_ i j).toNat else 0
  | 1 => if i < 64 then (Sparse.get zw g.rowsum i).toNat else 0
  | 2 => if j < 48 then (Sparse.get zw g.colsum j).toNat else 0
  | _ => g.kcount.toNat

def Dev.xchStatus (d : Dev) (p : Nat) : Nat :=
  let t := d.tile p
  sumBits [(0, match t.xcur with | some x => x.active.length | none => 0), (4, t.xq.length), (6, b2n t.xaband), (16, t.xlast.toNat)]

def Dev.ctCores (d : Dev) (p : Nat) : Nat :=
  let r := Reg.tileCtCores p
  sumBits ([0, 1, 2, 3].map (fun c => (2 * c, (d.core p c).run.code)))
    + d.fld r F.tileCtCoresFaultCore * 2 ^ 8 + b2n (d.started && d.stepCt == some p) * 2 ^ 31

def Dev.descStatus (d : Dev) (p : Nat) : Nat :=
  let t := d.tile p
  sumBits ([0, 1, 2, 3].map (fun e => (5 * e, (t.engine e).q.length)))
    + flagsOf 4 (fun e => (t.engine e).q.any (fun r => r.out ≠ [])) * 2 ^ 20 + flagsOf 4 (fun e => (t.engine e).stopped) * 2 ^ 24

def Dev.sqState (d : Dev) (y : Nat) : Nat :=
  let q := d.yard y
  let waves := (List.range 16).any (fun w =>
    decide (d.fld (Reg.yardSqWave y w) F.yardSqWaveDone < d.fld (Reg.yardSqWave y w) F.yardSqWavePosted))
  sumBits [(0, b2n (d.sqClosed y)), (1, q.recs.length), (8, q.chans.length), (31, b2n (!q.recs.isEmpty || waves))]

def Dev.sqHeldView (d : Dev) (p : Nat) : Nat :=
  let task := match (d.tile p).held.head?, (d.tile p).landing.head? with
    | some h, _ => bitsAt h.handle.toNat 12 16
    | none, some l => bitsAt l.held.handle.toNat 12 16
    | none, none => 0
  d.heldCount p + task * 2 ^ 2

/-- The ports of HAL_JOB_BOARD and HAL_JOB_TREE. -/
def Dev.jobPorts (d : Dev) : List Nat :=
  let board := d.fld Reg.halJobBoard F.halJobBoardPorts
  let kids := d.fld Reg.halJobTree F.halJobTreeChildren
  let par := d.fld Reg.halJobTree F.halJobTreeParent
  (List.range 16).filter (fun n => board.testBit n || kids.testBit n || par == n)
/-- HAL_STATUS.JOB_LINKS: every such port carries lane 0; 0 while no port is named, as at reset (log entry 52). -/
def Dev.jobLinks (d : Dev) : Bool := !d.jobPorts.isEmpty && d.jobPorts.all d.carrying

/-! ## Islands (R444, R457, R465) -/

def islandRated (i : Nat) : Nat :=
  if i < 64 then 1800 else if i < 68 then 1200 else if i < 72 then 1600 else if i = 72 then 1000 else if i = 73 then 2000
  else if i = 74 then 800 else 1250
def islandBin (i : Nat) : Nat := if i = 74 then 50 else if i < 74 then 100 else 0
/-- Bins between the rated clock and the lowest. -/
def islandBins (i : Nat) : Nat :=
  if i < 64 then 3 else if i < 68 then 2 else if i < 72 then 2 else if i = 72 then 2 else if i = 73 then 2 else if i = 74 then 2 else 0
def Dev.vSteps (d : Dev) (i : Nat) : Nat := Sparse.get (fun _ => 0) d.bos.man.vSteps i
def Dev.bins (d : Dev) (i : Nat) : Nat := Sparse.get (fun _ => 0) d.bos.man.bins i
/-- An island's voltage in mV. Steps below the calibrated base are negative, in 8 bits (log entry 47). -/
def Dev.islandMv (d : Dev) (i : Nat) : Nat := ((Config.vBase i : Int) + 5 * intOfByte (d.vSteps i % 256)).toNat
def Dev.islandMhz (d : Dev) (i : Nat) : Nat :=
  let f := islandRated i - d.bins i * islandBin i
  if decide (i < 64) && d.yardLevel i == 3 then f / 2 else f
def Dev.manifestIn (d : Dev) : Bool := d.fld Reg.devMap F.devMapMapGen != 0

def Dev.islData (d : Dev) : Nat :=
  let i := d.fld Reg.pwrIslSel F.pwrIslSelIsland
  if !d.manifestIn || decide (76 ≤ i) then 0
  else sumBits [(0, d.islandMv i), (10, d.islandMhz i), (22, if i < 64 then d.yardLevel i else 0),
    (24, d.reg (Reg.clkLock (i / 32)) / 2 ^ (i % 32) % 2)]

def Dev.slackOf (d : Dev) (i : Nat) : Option Int := lookup d.bos.slack i
def Dev.ageData (d : Dev) : Nat :=
  let i := d.fld Reg.devAgeSel F.devAgeSelIsland
  if 75 ≤ i then 0
  else sumBits [(0, match d.slackOf i with | some s => byteOfInt s | none => 0x80), (8, d.vSteps i % 256), (16, d.bins i),
    (20, b2n (d.bos.guardHit.contains i)), (21, b2n (d.bos.man.marginOut.contains i))]

/-! ## Reads -/

/-- Quantities counted in cycles, and the bursts moved at the packages by the presses, which this model does not count, are
free while a job runs (log entry 4). -/
def timingReg : RegName → Bool
  | .tileMtBusyLo | .tileMtBusyHi | .tileVecBusyLo | .tileVecBusyHi | .tileStallLo | .tileStallHi | .tileConflict
  | .holdRdBytesLo | .holdRdBytesHi | .holdWrBytesLo | .holdWrBytesHi => true
  | _ => false

/-- What the register at `off` shows; the stored word unless another part of the device holds it. -/
def Dev.shown (d : Dev) (off : Nat) (r : RegAt) : Nat :=
  let p := r.inst
  match r.d.name with
  | .tileMtStatus => (d.tile p).mtStatus
  | .tileMtGflags => (d.tile p).mtGflags
  | .tileMtDbgdata => if d.debugOpen 1 then d.dbgData p else 0
  | .tileVtQstatus => sumBits [(0, (d.tile p).sfu.length), (3, (d.tile p).red.length), (6, (d.tile p).qnt.length), (16, (d.tile p).qrows.toNat)]
  | .tileCtCores => d.ctCores p
  | .tileCtDescStatus => d.descStatus p
  | .tileFlags => (d.contribution p).toNat
  | .tileCorePc => if coreExists p r.idx then (d.core p r.idx).pc + (d.core p r.idx).run.code * 2 ^ 30 else 0
  | .tileGstatLo => (d.galley p r.idx).stat % 2 ^ 32
  | .tileGstatHi => (d.galley p r.idx).stat / 2 ^ 32
  | .tileXchStatus => d.xchStatus p
  | .tileSqHeld => d.sqHeldView p
  | .yardSqState => d.sqState p
  | .halStatus => putBits (d.reg off) 2 1 (b2n d.jobLinks)
  | .pressProgress => (d.pressProgress p).1 + (d.pressProgress p).2 * 2 ^ 16
  | .pressStatus => putBits (d.reg off) 15 3 (d.pressWait p)
  | .pwrIslData => d.islData
  | .devAgeData => d.ageData
  | .clkTbCfg => putBits (d.reg off) 0 1 (b2n d.alignArmed)
  | .pwrStatus => putBits (d.reg off) 8 1 (b2n d.pins.pwrGood)
  | _ => d.reg off

/-- The upper half of the pair whose lower half is named; none: no pair (R7). -/
def isLo : RegName → Bool
  | .devSeedLo | .tileMtBusyLo | .tileVecBusyLo | .tileProgAddrLo | .tileIssueLo | .tileStallLo | .tileGstatLo | .holdUeAddrLo
  | .holdRdBytesLo | .holdWrBytesLo | .yardRtrFlitsLo | .yardSqSlotBaseLo | .pressLtBaseLo | .pressRuleBaseLo | .pressElemsLo
  | .pressProofSeqLo | .pressMirrorRxLo | .lnkFecCeLo | .lnkTxFlitsLo | .lnkRxFlitsLo | .hstCmdBaseLo | .hstCplBaseLo
  | .hstIrqAddrLo | .hstHbAddrLo | .bosSerialLo | .bosLogNewestLo | .bosLogOldestLo | .clkTbLo | .clkTbLatchLo | .clkTbLoadLo => true
  | _ => false
def isHi : RegName → Bool
  | .devSeedHi | .tileMtBusyHi | .tileVecBusyHi | .tileProgAddrHi | .tileIssueHi | .tileStallHi | .tileGstatHi | .holdUeAddrHi
  | .holdRdBytesHi | .holdWrBytesHi | .yardRtrFlitsHi | .yardSqSlotBaseHi | .pressLtBaseHi | .pressRuleBaseHi | .pressElemsHi
  | .pressProofSeqHi | .pressMirrorRxHi | .lnkFecCeHi | .lnkTxFlitsHi | .lnkRxFlitsHi | .hstCmdBaseHi | .hstCplBaseHi
  | .hstIrqAddrHi | .hstHbAddrHi | .bosSerialHi | .bosLogNewestHi | .bosLogOldestHi | .clkTbHi | .clkTbLatchHi | .clkTbLoadHi => true
  | _ => false

def writeOnly (fs : List RegField) : Nat := fs.foldl (fun acc f => if f.acc = .wo then acc + (2 ^ f.width - 1) * 2 ^ f.lsb else acc) 0

/-- The word a read of one register delivers: write-only fields read 0 (R8); a timing counter is free while a job runs. -/
def Dev.peek (d : Dev) (off : Nat) (r : RegAt) : Dev × Word :=
  if timingReg r.d.name && d.started then ((d.free).2, (d.free).1.setWidth 32)
  else (d, w32 (Nat.land (d.shown off r) (2 ^ 32 - 1 - writeOnly r.d.fields)))

def Dev.capOf (d : Dev) (m : Master) (off : Nat) : Cap :=
  (d.caps.find? (fun c => c.m == m && c.off == off)).getD ⟨m, off, none, none⟩
def Dev.putCap (d : Dev) (c : Cap) : Dev :=
  let rest := d.caps.filter (fun e => !(e.m == c.m && e.off == c.off))
  { d with caps := if c.hi.isNone && c.held.isNone then rest else rest ++ [c] }

/-- A read of the register at `off` by `m`; none: an access error (R6, R7, R9, R27, R132). -/
def Dev.ctlRead (d : Dev) (m : Master) (off : Nat) : Dev × Option Word :=
  match regAt off with
  | none => (d.logUnpopulated (ctlLo + off), none)
  | some r =>
    if !Dev.mayReg m off then (d, none)
    else if r.d.name = .tileMtDbgdata ∧ !d.debugOpen 1 then (d.logEv 0 1 r.inst 0 [w32 off], some 0)
    else if isLo r.d.name then
      let lo := d.peek off r
      let hi := match regAt (off + 4) with
        | some rh => lo.1.peek (off + 4) rh
        | none => (lo.1, 0)
      (hi.1.putCap { hi.1.capOf m off with hi := some hi.2 }, some lo.2)
    else if isHi r.d.name then
      let c := d.capOf m (off - 4)
      match c.hi with
      | some v => (d.putCap { c with hi := none }, some v)
      | none => ((d.peek off r).1, some (d.peek off r).2)
    else ((d.peek off r).1, some (d.peek off r).2)

/-! ## Writes -/

/-- What the fields of a register become under a write (R8, R9). -/
def fieldsAfter (fs : List RegField) (locked : Bool) (old v : Nat) : Nat :=
  fs.foldl (fun acc f =>
    let x := bitsAt v f.lsb f.width
    match f.acc with
    | .rw => putBits acc f.lsb f.width x
    | .rwl => if locked then acc else putBits acc f.lsb f.width x
    | .w1c => putBits acc f.lsb f.width (bitsAt acc f.lsb f.width - Nat.land (bitsAt acc f.lsb f.width) x)
    | .w1s => putBits acc f.lsb f.width (Nat.lor (bitsAt acc f.lsb f.width) x)
    | .ro => acc
    | .wo => acc) old

/-- MORE goes with VALID, UE_MORE with UE. -/
def alsoClears : RegName → Option (Nat × Nat)
  | .tileProgFault | .yardSqFault | .pressFault => some (31, 30)
  | .yardCaseEcc | .tileEccStatus => some (16, 31)
  | _ => none

/-- The write of one register's stored word. -/
def Dev.put (d : Dev) (m : Master) (off : Nat) (r : RegAt) (v : Nat) : Dev :=
  let lockable := r.d.fields.any (fun f => f.acc == .rwl)
  let d := if lockable && d.started then d.logEv 0 9 0 1 [w32 off, w32 (masterCode m)] else d
  let old := d.reg off
  let d := d.setReg off (fieldsAfter r.d.fields d.started old v)
  match alsoClears r.d.name with
  | some (b, more) => if v.testBit b then d.setReg off (putBits (d.reg off) more 1 0) else d
  | none => d

/-- TILE_BANK_NEXT: a field of 0b11 keeps its value; an owner other than TILE for a code bank is logged, and that bank
stays TILE when the fields take effect (R175, R177). -/
def Dev.writeBankNext (d : Dev) (p v : Nat) : Dev :=
  let r := Reg.tileBankNext p
  let ns := (List.range 16).map (fun b => if bitsAt v (2 * b) 2 = 3 then bitsAt (d.reg r) (2 * b) 2 else bitsAt v (2 * b) 2)
  let d := if (List.range 16).any (fun b => d.codeBank p b && bitsAt v (2 * b) 2 != 0 && bitsAt v (2 * b) 2 != 3) then
      d.logEv 0 1 p 1 [w32 v] else d
  d.setReg r (ofBits2 ns)

/-- Writers of a yard's slice registers: its own CT and the bosun (R198). -/
def mayArm (m : Master) (y : Nat) : Bool :=
  match m with
  | .tile p _ => p.val == 24 * y + 23
  | .bosun => true
  | _ => false
/-- Writers of YARD_SQ_WAVE_OPEN: the cores of the yard's own CT (R287). -/
def mayOpenWave (m : Master) (y : Nat) : Bool :=
  match m with
  | .tile p _ => p.val == 24 * y + 23
  | _ => false

/-- YARD_SQ_WAVE_OPEN; false: an access error, logged with the writing master (R287). -/
def Dev.waveOpen (d : Dev) (m : Master) (y v : Nat) : Dev × Bool :=
  let r := Reg.yardSqWaveOpen y
  if mayOpenWave m y then (d.setReg r (Nat.lor (d.reg r) (v % 2 ^ 16)), true)
  else (d.logWave m r (toBytes 4 v), false)

/-- DEV_BOARD: a new SYSTEM_ID is announced to the peer of every port that is up. -/
def Dev.writeBoard (d : Dev) (m : Master) (off : Nat) (r : RegAt) (v : Nat) : Dev :=
  let old := d.ownDev
  let d := d.put m off r v
  if d.ownDev = old then d
  else ((List.range 16).filter (fun n => d.flag (Reg.lnkStatus n) F.lnkStatusUp)).foldl (fun d n => d.send (.mapSysId n (BitVec.ofNat 12 d.ownDev))) d

/-- A size that is out of range keeps the previous one. -/
def Dev.putIf (d : Dev) (m : Master) (off : Nat) (r : RegAt) (v lo hi : Nat) : Dev :=
  if lo ≤ v % 16 ∧ v % 16 ≤ hi then d.put m off r v else if d.started then d.put m off r v else d

/-- A write of one 32-bit register; false: an access error. -/
def Dev.write1 (d : Dev) (m : Master) (off : Nat) (r : RegAt) (v : Word) : Dev × Bool :=
  let n := v.toNat
  match r.d.name with
  | .pressReady => (d.pressReady (n % 4096), true)
  | .pressCopyIn => (d.pressCopyIn (n % 4096), true)
  | .pressStepTag => (d.stepPush v, true)
  | .pressMirrorCtl => (d.mirrorCtl (n.testBit 0), true)
  | .lnkCtl => ((if n.testBit 0 then d.lnkRetrain r.inst else d).lnkWide r.inst (n.testBit 1), true)
  | .lnkCfg => (d.lnkCfgWrite r.inst n, true)
  | .hstCmdTail => (d.doorbell v, true)
  | .hstCplHead => ((d.put m off r n).drainCpl, true)
  | .hstHb => (d.heartbeat, true)
  | .hstCplPush => (if n.testBit 0 then d.cplPush else d, true)
  | .bosMbCtl => (if n.testBit 0 then d.mbGo else d, true)
  | .pwrLimit => (d.writePwrLimit v, true)
  | .pwrThermCfg => (d.writeThermCfg v, true)
  | .clkTbCfg => (d.writeTbCfg v, true)
  | .yardSliceNext | .yardSliceCtl => if mayArm m r.inst then (d.put m off r n, true) else (d, false)
  | .yardSqWaveOpen => d.waveOpen m r.inst n
  | .tileBankNext => (d.writeBankNext r.inst n, true)
  | .tileMtDbgaddr => (if d.debugOpen 1 then d.put m off r n else d, true)
  | .hstCmdSize => (d.putIf m off r n 6 12, true)
  | .hstCplSize => (d.putIf m off r n 8 14, true)
  | .devBoard => (d.writeBoard m off r n, true)
  | _ => (d.put m off r n, true)

/-- A write by `m` at `off`: an upper half is held for the master's next write of the lower one (R7). -/
def Dev.ctlWrite (d : Dev) (m : Master) (off : Nat) (v : Word) : Dev × Bool :=
  match regAt off with
  | none => (d.logUnpopulated (ctlLo + off), false)
  | some r =>
    if !Dev.maySet m off && !(r.d.name = .yardSqWaveOpen) then (d, false)
    else if isHi r.d.name then (d.putCap { d.capOf m (off - 4) with held := some v }, true)
    else if isLo r.d.name then
      let c := d.capOf m off
      let d := d.putCap { c with held := none }
      let d := match c.held, regAt (off + 4) with
        | some h, some rh => d.put m (off + 4) rh h.toNat
        | _, _ => d
      (d.put m off r v.toNat, true)
    else d.write1 m off r v

/-! ## The commands -/

def ctlReadCmd (m : Master) (off : Nat) (d : Dev) : Dev :=
  let r := if off % 4 = 0 ∧ off < 0x2000000 then d.ctlRead m off else (d, none)
  r.1.send (.regData r.2.isSome (r.2.getD 0))
def ctlWriteCmd (m : Master) (off : Nat) (v : Word) (d : Dev) : Dev :=
  let r := if off % 4 = 0 ∧ off < 0x2000000 then d.ctlWrite m off v else (d, false)
  r.1.send (.regData r.2 0)

/-- PAIR_LO_READ: both halves are captured (R7). -/
def execPairLoRead (m : Master) (off : Nat) : State → Host.Outcome State Fault Refusal := onDev (ctlReadCmd m off)
/-- PAIR_HI_READ: the captured half, once (R7). -/
def execPairHiRead (m : Master) (off : Nat) : State → Host.Outcome State Fault Refusal := onDev (fun d => ctlReadCmd m off d)
/-- PAIR_HI_WRITE: held (R7). -/
def execPairHiWrite (m : Master) (off : Nat) (v : Word) : State → Host.Outcome State Fault Refusal := onDev (ctlWriteCmd m off v)
/-- PAIR_LO_WRITE: takes effect with the held upper half (R7). -/
def execPairLoWrite (m : Master) (off : Nat) (v : Word) : State → Host.Outcome State Fault Refusal := onDev (fun d => ctlWriteCmd m off v d)
/-- REGISTER_WRITE (R6, R8, R9). -/
def execRegisterWrite (m : Master) (off : Nat) (v : Word) : State → Host.Outcome State Fault Refusal :=
  onDev (fun d => (ctlWriteCmd m off v) d)
/-- DBGDATA_READ (R92). -/
def execDbgdataRead (m : Master) (slot : Slot) : State → Host.Outcome State Fault Refusal := onDev (ctlReadCmd m (Reg.tileMtDbgdata slot))
/-- TILE_BANK_NEXT (R177). -/
def execTileBankNext (m : Master) (slot : Slot) (v : Word) : State → Host.Outcome State Fault Refusal :=
  onDev (ctlWriteCmd m (Reg.tileBankNext slot) v)
/-- YARD_SLICE_ARM: a write of YARD_SLICE_CTL (R198). -/
def execYardSliceArm (m : Master) (y : Yard) (v : Word) : State → Host.Outcome State Fault Refusal :=
  onDev (ctlWriteCmd m (Reg.yardSliceCtl y) v)
/-- YARD_SQ_WAVE_OPEN (R273, R287). -/
def execYardSqWaveOpen (m : Master) (y : Yard) (v : Word) : State → Host.Outcome State Fault Refusal :=
  onDev (ctlWriteCmd m (Reg.yardSqWaveOpen y) v)

end Sys2Proof.Machine
end

