-- ==== Sys2Proof/Machine/Lifecycle.lean ====
section
/-! DEFINITION. Sys2Proof/Machine/Lifecycle.lean: what aborts, clears and job starts do to every block: fault registers into
the logbook (R435, R438), stopping everything (R253, R398), the clears of a job boundary (R190, R220 to R223 and the
boundary tables of every chapter), a tile's restore from its image (R159, R162). -/

namespace Sys2Proof.Machine

/-! ## Fault registers -/

/-- Logbook block, valid bit, and place and width of the kind of a fault register. -/
def faultShape : RegName → Option (Nat × Nat × Nat × Nat)
  | .tileProgFault => some (1, 31, 0, 4)
  | .tileMtFault => some (1, 31, 0, 4)
  | .tileGalleyFault => some (1, 31, 4, 4)
  | .tileCtDescFault => some (1, 31, 6, 2)
  | .tileXchFault => some (1, 31, 0, 3)
  | .tileEccStatus => some (1, 16, 16, 1)
  | .yardSqFault => some (2, 31, 0, 3)
  | .yardCaseEcc => some (2, 16, 16, 1)
  | .holdEccUe => some (4, 31, 16, 2)
  | .holdPathEcc => some (4, 31, 0, 0)
  | .pressFault => some (5, 31, 0, 4)
  | .lnkFault => some (6, 31, 0, 4)
  | .halFault => some (8, 31, 0, 2)
  | _ => none

/-- A fault register with the address registers of its fault. -/
def Dev.faultData (d : Dev) (r : RegAt) (v : Word) : List Word :=
  let i := r.inst
  match r.d.name with
  | .tileProgFault => [v, w32 (d.reg (Reg.tileProgPc i)), w32 (d.reg (Reg.tileProgAddrLo i)), w32 (d.reg (Reg.tileProgAddrHi i))]
  | .tileEccStatus => [v, w32 (d.reg (Reg.tileEccAddr i))]
  | .yardCaseEcc => [v, w32 (d.reg (Reg.yardCaseEccAddr i))]
  | .holdEccUe => [v, w32 (d.reg (Reg.holdUeAddrLo i)), w32 (d.reg (Reg.holdUeAddrHi i))]
  | _ => [v]

/-- Every valid fault register goes into the logbook. -/
def Dev.logFaults (d : Dev) : Dev :=
  d.regs.foldl (fun acc e =>
    match regAt e.1 with
    | none => acc
    | some r =>
      match faultShape r.d.name with
      | some (blk, vb, lsb, w) =>
        if e.2.toNat.testBit vb then acc.logEv 2 blk r.inst (bitsAt e.2.toNat lsb w) (d.faultData r e.2) else acc
      | none => acc) d

/-- Fault and sticky registers that an abort zeroes; counts beside them stay (R107, R125, R163, R190, R223, R263, R288, R321). -/
def abortReset : RegName → Bool
  | .tileProgFault | .tileProgPc | .tileProgAddrLo | .tileProgAddrHi | .tileMtFault | .tileMtSticky | .tileMtEpamax | .tileVecSticky
  | .tileGalleyFault | .tileCtDescFault | .tileXchFault | .tileEccAddr | .tileCtCores | .tileBankOwner | .tileBankNext | .yardSqState
  | .yardSqWaveOpen | .yardSqWave | .yardSqFault | .yardCaseEccAddr | .yardSliceOwner | .yardSliceNext | .yardSliceCtl | .halFault
  | .pressFault | .holdUeAddrLo | .holdUeAddrHi => true
  | _ => false

/-- Registers whose low half counts and stays while the error beside it is zeroed. -/
def keepsCount : RegName → Bool
  | .tileEccStatus | .yardCaseEcc | .holdEccUe | .holdPathEcc => true
  | _ => false

def Dev.zeroFaults (d : Dev) : Dev :=
  let d := d.dropRegs abortReset
  d.regs.foldl (fun acc e =>
    match regAt e.1 with
    | some r => if keepsCount r.d.name then acc.setReg e.1 (e.2.toNat % 2 ^ 16) else acc
    | none => acc) d

/-! ## Everything stops (R253, R398, R435) -/

/-- A halyard instruction that waits at an abort completes without effect (R253). -/
def Core.letGo (k : Core) : Core := if (k.stalled.bind halFn).isSome then k.advance false else k

/-- Nothing of the step in hand goes on in the tile: writes already issued are complete. -/
def Dev.quiet (d : Dev) (p : Nat) : Dev :=
  let d := d.modCores p (fun k => { k.letGo with loads := [], stores := [], bq := [], arrived := 0, synced := false })
  (d.stopTile p).modTile p (fun t => { t with
    xq := [], xcur := none, xaband := t.xaband || t.xcur.isSome || t.xq ≠ [], landing := [], held := [], arrived := 0, arrFlags := [] })

/-- Every tile, engine, router, port and press stops; barriers are cancelled, broadcasts and the job's packets discarded. -/
def Dev.stopAll (d : Dev) : Dev :=
  let d := (d.tiles.map (·.1)).foldl (fun d p => d.quiet p) d
  let d := { d with
    yards := d.yards.map (fun (e : Nat × YardS) => (e.1, { YardS.idle with last := e.2.last })),
    chunks := [], units := [], bufs := [],
    links := d.links.map (fun (e : Nat × LinkP) => (e.1, e.2.discard isExchPkt)),
    hal := { d.hal with bcq := [], pressFlags := 0, hrel := none, sentArr := 0 },
    press := { d.press with p := [], ready := [], readyQ := [], rel := [], relOld := [], copyIn := [], comb := [], bsum := [],
                            dec := none, hdrOpen := false, spoilWait := false, recWait := false, prep := false } }
  ctls.foldl (fun d c => d.setPst c PressSt.idle 0) d

/-! ## A tile from its image (R159, R162) -/

/-- Descriptors of an initialisation table, one per set bit of `mask` in increasing order: index and local address. -/
def tableRows (mask at_ size n : Nat) : List (Nat × Nat) :=
  ((List.range n).filter (fun i => mask.testBit i)).zipIdx.map (fun e => (e.1, at_ + size * e.2))

/-- The store image at 0, zeros above, galleys and epilogue descriptors as the image gives them, registers and flag contribution
cleared. -/
def Dev.restoreTile (d : Dev) (p : Nat) (step : Word) (replayed : Bool) : Dev :=
  let t := d.tile p
  let im := t.image
  let d := d.dropMem (fun a => decide (tileBase p ≤ a) && decide (a < tileBase p + storeBytes))
  let d := d.store (tileBase p) (d.bytes im.addr im.loadBytes)
  let at_ := fun (a n : Nat) => d.bytes (tileBase p + a) n
  let gal : Sparse Galley := (tableRows im.galMask im.galInit 16 16).filterMap (fun e => (galleyOf (at_ e.2 16)).map (fun g => (e.1, g)))
  let eps : Sparse (BitVec 256) := (tableRows im.epMask im.epInit 32 8).map (fun e => (e.1, BitVec.ofNat 256 (ofBytes (at_ e.2 32))))
  d.setTile p { Tile.idle with
    image := im, gal := gal, eps := eps, phases := t.phases, entries := t.entries, step := step, replayed := replayed,
    flags := 0, xlast := t.xlast, decs := t.decs,
    engines := t.engines.map (fun (e : Nat × Engine) => (e.1, Engine.idle)) }

/-- Cores begin at their entries; 0xFFFF_FFFF: the core stays halted. -/
def Dev.startCores (d : Dev) (p : Nat) (entries : List Nat) : Dev :=
  entries.zipIdx.foldl (fun d e =>
    if e.1 = absent then d.setCore p e.2 Core.idle else d.setCore p e.2 { Core.idle with run := .running, pc := e.1 }) d

/-- A tile begins: its cores at their entries, its flag contribution at the forme's default (R162, R163). -/
def Dev.startTile (d : Dev) (p : Nat) (entries : List Nat) : Dev :=
  (d.startCores p entries).modTile p (fun t => { t with flags := w32 (d.reg (Reg.tileHalFlagdef p)) })

/-- Tiles of the job: in service, with an image, and not held in the power-on state since its start. -/
def Dev.jobTiles (d : Dev) : List Nat :=
  (d.tiles.map (·.1)).filter (fun p => d.inService p && (d.tile p).image.loaded && !d.job.heldOut.contains p)

/-- A slot that is furl-pending when the job starts holds the power-on state (R107, R125, R163; log entry 111). -/
def Dev.holdOut (d : Dev) (p : Nat) : Dev :=
  (d.dropMem (fun a => decide (tileBase p ≤ a) && decide (a < tileBase p + storeBytes))).modTile p (fun t =>
    { Tile.idle with image := t.image, phases := t.phases, entries := t.entries })
def Dev.holdOutPending (d : Dev) : Dev :=
  let ps := d.jobTiles.filter d.pendingFurl
  ps.foldl (fun d p => d.holdOut p) { d with job := { d.job with heldOut := ps } }

/-- The forme's case images (R200). -/
def Dev.putCaseImages (d : Dev) : Dev :=
  d.job.caseImgs.foldl (fun d (e : Nat × List Byte) => if inCase e.1 then d.store e.1 e.2 else d) d

/-! ## The clears of a job boundary (R190, R220 to R223, R401, R442) -/

/-- Counters that the clear records in the logbook before it zeroes them. -/
def endRecorded : RegName → Bool
  | .tileIssueLo | .tileIssueHi | .tileConflict | .tileCtDescDone | .tileDbgMark | .yardConflict | .yardRtrDrop | .yardRtrRetry | .yardRtrRed
  | .yardRtrFlitsLo | .yardRtrFlitsHi | .yardSqStolen | .halReleases | .holdEccLinkCe | .holdEccRetry | .holdPathEcc | .holdRdBytesLo
  | .holdRdBytesHi | .holdWrBytesLo | .holdWrBytesHi | .holdRfmCount | .pressSsq | .pressDiscard | .pressStale | .pressElemsLo | .pressElemsHi
  | .pressProofStatus | .pressProofStep | .pressProofJobstep | .pressProofSeqLo | .pressProofSeqHi | .pressMirrorHeld
  | .pressMirrorHeldStep | .pressMirrorRxLo | .pressMirrorRxHi | .pressMirrorSpoiled | .lnkRed | .devAbort | .devReplays | .pwrReefUs => true
  | _ => false

/-- Registers the clear sets to their reset values. -/
def endReset (n : RegName) : Bool :=
  endRecorded n || abortReset n ||
  match n with
  | .tileMtBusyLo | .tileMtBusyHi | .tileVecBusyLo | .tileVecBusyHi | .tileStallLo | .tileStallHi | .tileEccStatus | .tileXchSticky
  | .tileHalMember | .tileHalFlagdef | .tileHalFlagmap | .tileHalRflags | .tileHalRbar | .yardCaseEcc | .halStep
  | .halDec | .halDecStep | .halDecFlags | .halStepCfg | .halSkipSet | .halFlagMode | .halBarScope | .halCfg | .halJobBoard | .halJobTree
  | .holdEccUe | .pressStatus | .pressSsLatched | .pressSsStep | .pressMirrorCfg | .pressMirrorCtl | .lnkMap | .lnkFault
  | .hstCmdTail | .hstCmdHead | .hstCplTail | .hstCplHead => true
  | _ => false

/-- Logbook block of a register's block. -/
def blockCode : Block → Nat
  | .tile => 1
  | .yard => 2
  | .hold => 4
  | .press => 5
  | .lnk => 6
  | .hst => 7
  | .hal => 8
  | .pwr => 10
  | .bos => 9
  | .dev => 9

/-- Registers of which a field counts since job start and the rest outlives the job (R476). -/
def recordedOnly : RegName → Bool
  | .pwrDip | .pwrTherm => true
  | _ => false

/-- What is not already recorded as a fault register. -/
def Dev.logCounters (d : Dev) : Dev :=
  d.regs.foldl (fun acc e =>
    match regAt e.1 with
    | some r => if (endRecorded r.d.name || keepsCount r.d.name || recordedOnly r.d.name) && !(faultShape r.d.name).any (fun f => e.2.toNat.testBit f.2.1) then
        acc.logEv 0 (blockCode r.d.block) r.inst 0 [w32 e.1, e.2] else acc
    | none => acc) d

/-- Does a hold address lie in the recorded retained range (R222)? -/
def Dev.inRetained (d : Dev) (a : Nat) : Bool :=
  match d.bos.retained with
  | some r => r.regions.any (fun g => decide (g.1 * rgnUnit ≤ a) && decide (a < (g.1 + g.2.1) * rgnUnit))
  | none => false

/-- Is the region entry one of the retained ones? -/
def Dev.rgnKept (d : Dev) (r : Nat) : Bool :=
  match d.bos.retained with
  | some x => d.rgnValid r && x.regions.any (fun g => g.1 == d.fld (Reg.holdRgnBase r) F.holdRgnBaseBase
      && g.2.1 == d.fld (Reg.holdRgnSize r) F.holdRgnSizeSize)
  | none => false

/-- Region entries other than the retained ones become invalid. -/
def Dev.dropRegions (d : Dev) : Dev :=
  (List.range 64).foldl (fun acc r =>
    if d.rgnKept r then acc else acc.setFlag (Reg.holdRgnAttr r) F.holdRgnAttrValid false) d

/-- The memories: tile stores, case memory, and the hold but for the retained range. -/
def Dev.clearMemories (d : Dev) : Dev := d.dropMem (fun a => !(inHold a && d.inRetained a))

def Dev.setClearing (d : Dev) (b : Bool) : Dev := ctls.foldl (fun d c => d.setFlag (Reg.holdStatus c) F.holdStatusClearing b) d

/-- What a job leaves in the power registers goes (R476). -/
def Dev.powerEnd (d : Dev) : Dev :=
  let d := (d.setFld Reg.pwrDip F.pwrDipMinMv 0xFFF).setFld Reg.pwrTherm F.pwrThermTjPeak 0
  (Dev.showReef { d with bos := { d.bos with ageReef := [], guardHit := [] } })

/-- A spare test that runs is abandoned: the store is cleared with all others, the slot is an idle spare again (R451). -/
def Dev.abandonSpare (d : Dev) : Dev :=
  let d := d.bos.spare.foldl (fun d p => d.setFld (Reg.tileIdent p) F.tileIdentState 1) d
  { d with bos := { d.bos with spare := [] } }

/-- The clears complete: every block as its chapter's table says for job end, job kill and debug entry; the native proof level is the
firmware's (R343). YARD_RTR_STATUS keeps FAILED until the furls are applied (clearRouters). -/
def Dev.clearAll (d : Dev) : Dev :=
  let d := (d.logFaults.logCounters).clearMemories
  let lvl := d.proofLevel
  let d := ((d.dropRegs endReset).dropRegions).setFld Reg.pressProofStatus F.pressProofStatusLevel lvl
  let d := (List.range 16).foldl (fun d n => d.lnkWide n false) d
  let d := (d.setFlag Reg.halStatus F.halStatusAbort false).setFlag Reg.hstStatus F.hstStatusHostLost false
  let d := { d with
    tiles := [], yards := [], routes := [], nodes := [], bufs := [], chunks := [], units := [], hal := Hal.idle, press := PressS.idle,
    hold := d.hold.map (fun (e : Nat × HoldC) => (e.1, { HoldC.idle with retire := e.2.retire })),
    links := d.links.map (fun (e : Nat × LinkP) => (e.1, e.2.discard (fun _ => true))),
    job := Job.none,
    host := { d.host with waiting := [], cur := none, cplWait := [], cplPhase := true, beatSinceLost := false, stStart := none },
    bos := { d.bos with formeDigest := [], ueSeen := [] } }
  d.powerEnd.setClearing false

/-- FAILED and CAUSE go once the furls are applied; ROUTER_DEAD stays as the manifest has it (R262, R263). -/
def Dev.clearRouters (d : Dev) : Dev :=
  (List.range 64).foldl (fun d y =>
    if d.flag (Reg.yardRtrStatus y) F.yardRtrStatusFailed then d.setReg (Reg.yardRtrStatus y) (d.reg (Reg.yardRtrStatus y) % 2) else d) d

/-! ## Job start (R497) -/

/-- Counters kept since job start. -/
def startReset : RegName → Bool
  | .tileIssueLo | .tileIssueHi | .tileStallLo | .tileStallHi | .tileMtBusyLo | .tileMtBusyHi | .tileVecBusyLo | .tileVecBusyHi | .tileDbgMark
  | .tileCtDescDone | .tileMtSticky | .tileMtFault | .tileMtEpamax | .tileVecSticky | .tileCtDescFault | .tileProgFault | .tileProgPc
  | .tileProgAddrLo | .tileProgAddrHi | .tileBankOwner | .tileBankNext | .tileConflict | .tileEccStatus | .tileEccAddr | .tileGalleyFault
  | .yardSqStolen | .yardSqWave | .yardSqWaveOpen | .yardSqFault | .devAbort | .devReplays | .holdRdBytesLo | .holdRdBytesHi | .holdWrBytesLo
  | .holdWrBytesHi | .holdEccLinkCe | .holdEccRetry | .holdRfmCount | .pressFault | .pressDiscard | .pressStale | .pressElemsLo | .pressElemsHi
  | .pwrReefUs | .halReleases | .yardRtrDrop | .yardRtrRetry | .yardRtrRed | .yardRtrFlitsLo | .yardRtrFlitsHi | .lnkRed
  | .pressMirrorSpoiled => true
  | _ => false

def Dev.startCounters (d : Dev) : Dev :=
  let d := d.dropRegs startReset
  let d := (d.setFld Reg.pwrDip F.pwrDipMinMv 0xFFF).setFld Reg.pwrTherm F.pwrThermTjPeak 0
  let d := ((d.setFld Reg.pressSsq F.pressSsqDropped 0).setFld Reg.pressSsq F.pressSsqRejected 0).setFld Reg.pressSsq F.pressSsqTimeouts 0
  let d := ctls.foldl (fun d c => (d.setFld (Reg.holdEccUe c) F.holdEccUeCount 0).setFld (Reg.holdPathEcc c) F.holdPathEccCeCount 0) d
  let d := allYards.foldl (fun d y => d.setFld (Reg.yardCaseEcc y) F.yardCaseEccCeCount 0) d
  d.setFld Reg.devAgeWorst F.devAgeWorstSamples 0

/-- The registers that START writes: it puts them back when a mirror's arrival refuses it (R497). -/
def startWrites (n : RegName) : Bool :=
  startReset n ||
  match n with
  | .pwrDip | .pwrTherm | .pressSsq | .holdEccUe | .holdPathEcc | .yardCaseEcc | .devAgeWorst | .pressProofStatus | .pressProofStep
  | .pressProofJobstep | .pressProofSeqLo | .pressProofSeqHi | .pressMirrorHeld | .pressMirrorHeldStep | .pressMirrorRxLo
  | .pressMirrorRxHi => true
  | _ => false

def Dev.saveRegs (d : Dev) : Dev :=
  { d with host := { d.host with stRegs := d.regs.filter (fun e => match regAt e.1 with | some r => startWrites r.d.name | none => false) } }
def Dev.putBackRegs (d : Dev) : Dev :=
  { d.host.stRegs.foldl (fun d e => d.setReg e.1 e.2.toNat) (d.dropRegs startWrites) with host := { d.host with stRegs := [] } }

/-- What LOAD zeroes: the counters of the boundary tables but for those that restart at START alone, error registers, the step-size
queue (R77, R107, R125, R163, R190, R223, R263, R288, R321). -/
def loadReset (n : RegName) : Bool :=
  match n with
  | .pwrReefUs | .lnkRed | .pressMirrorSpoiled => false
  | .yardCaseEcc | .yardCaseEccAddr | .yardConflict | .holdEccUe | .holdUeAddrLo | .holdUeAddrHi | .holdPathEcc | .tileXchFault
  | .tileXchSticky | .halFault | .pressSsq | .pressSsLatched | .pressSsStep => true
  | _ => startReset n
def Dev.loadCounters (d : Dev) : Dev := { d.dropRegs loadReset with press := { d.press with ssq := [], mirrorUe := d.press.mirrorUe } }

/-! ## The clear begins -/

/-- A job that was loaded with the recorded token and does not retain its proof: its clear removes the range (R341). -/
def Dev.dropRetained (d : Dev) : Dev :=
  if JobSt.loaded ≤ d.jst ∧ d.jst ≤ JobSt.failed ∧ !d.job.retain then
    { d with bos := { d.bos with retained := none } }.setFlag Reg.hstJob F.hstJobRetained false
  else d

/-- CLEARING: everything stops, the spare test is abandoned, the hold answers nobody but the bosun (R221, R398, R442). -/
def Dev.startClear (d : Dev) : Dev := ((d.dropRetained.stopAll.abandonSpare).setClearing true).setJst JobSt.clearing

end Sys2Proof.Machine
end

