-- ==== Sys2Proof/Machine/Harvest.lean ====
section
/-! DEFINITION. Sys2Proof/Machine/Harvest.lean: the published map and its changes at a boundary (R17 to R22, R34, R262, R440,
R443), the replacement causes that follow from the manifest (R448), ageing (R444 to R447), repairs of the hold (R214, R215). -/

namespace Sys2Proof.Machine

/-! ## The map -/

/-- The harvest word of a yard, as YARD_HARVEST shows it. -/
def Manifest.yardWord (m : Manifest) (y : Nat) : Nat := (Sparse.get (fun _ => harvestFactory) m.harvest y).toNat
def spareOf (h : Nat) : Nat := bitsAt h 0 5
def yardStateOf (h : Nat) : Nat := bitsAt h 5 2
def furledIn (h s : Nat) : Bool := h.testBit (8 + s)
def harvestWord (spare state furled : Nat) : Nat := spare + state * 2 ^ 5 + furled * 2 ^ 8

/-- R19. -/
def logicalIn (y h s : Nat) : Option Nat :=
  if yardStateOf h ≠ 0 ∨ furledIn h s ∨ s = spareOf h then none
  else if 17 ≤ s then some (23 * y + (s - 1))
  else
    let l := ((List.range s).filter (fun k => decide (k ≤ 16) && !furledIn h k && k != spareOf h)).length
    if 15 < l then none else some (23 * y + l)

/-- TILE_IDENT.STATE: 0 in service, 1 idle spare, 2 furled. -/
def stateIn (h s : Nat) : Nat := if yardStateOf h ≠ 0 ∨ furledIn h s then 2 else if s = spareOf h then 1 else 0

def kindOfSlot (s : Nat) : Nat := if s < 17 then 0 else if s < 23 then 1 else 2

def Dev.showIdent (d : Dev) (y h s : Nat) : Dev :=
  let r := Reg.tileIdent (24 * y + s)
  ((d.setFld r F.tileIdentKind (kindOfSlot s)).setFld r F.tileIdentState (if d.bos.spare.contains (24 * y + s) then 3 else stateIn h s)).setFld r F.tileIdentLogicalId
    (match logicalIn y h s with | some t => t | none => 0x7FF)

def Dev.showYard (d : Dev) (y : Nat) : Dev :=
  let h := d.bos.man.yardWord y
  let d := (d.setReg (Reg.yardHarvest y) h).setFlag (Reg.yardRtrStatus y) F.yardRtrStatusRouterDead (d.bos.man.dead.contains y)
  (List.range 24).foldl (fun d s => d.showIdent y h s) d

/-- In service in a yard: slots `lo` to `hi`. -/
def servedIn (h lo hi : Nat) : Nat := ((List.range 24).filter (fun s => decide (lo ≤ s) && decide (s ≤ hi) && stateIn h s == 0)).length

/-- A spare under test that has entered service or is furled is an idle spare no longer: its test is over, its store cleared. -/
def Dev.dropTests (d : Dev) : Dev :=
  let gone := d.bos.spare.filter (fun p => stateIn (d.bos.man.yardWord (p / 24)) (p % 24) != 1)
  { d.dropMem (fun a => inStore a && gone.contains ((a - storeLo) / 0x80000)) with
    bos := { d.bos with spare := d.bos.spare.filter (fun p => !gone.contains p) } }

/-- The map registers are those of the manifest; a spare under test shows 0b11 (R451). -/
def Dev.showMap (d : Dev) : Dev :=
  let d := d.dropTests
  let hs := allYards.map d.bos.man.yardWord
  let d := allYards.foldl (fun d y => d.showYard y) d
  let sum := fun (lo hi : Nat) => sumOf (hs.map (fun h => servedIn h lo hi))
  let d := d.setReg Reg.devTiles (sum 0 16 + sum 17 22 * 2 ^ 11 + sum 23 23 * 2 ^ 20)
  (d.setFld Reg.devMap F.devMapMapGen d.bos.man.mapGen).setFld Reg.devMap F.devMapYardsInService
    (hs.filter (fun h => yardStateOf h == 0)).length

/-! ## Causes that persist (R448) -/

def cornerYards : List Nat := [0, 7, 56, 63]
def Manifest.rowsLeft (m : Manifest) (bank : Nat) : Nat := Config.spareRows bank - Sparse.get (fun _ => 0) m.rowsUsed bank

def Manifest.mtShort (m : Manifest) : Bool := allYards.any (fun y =>
  yardStateOf (m.yardWord y) == 0 && decide (servedIn (m.yardWord y) 0 16 < 16))
def Manifest.tileLost (m : Manifest) : Bool := allYards.any (fun y =>
  yardStateOf (m.yardWord y) != 0 || (List.range 7).any (fun s => furledIn (m.yardWord y) (17 + s)))

/-- Causes 0 to 6 as the manifest gives them. -/
def Manifest.causes (m : Manifest) : List Nat :=
  [(0, m.bins.any (fun e => e.2 != 0)), (1, m.marginOut != []), (2, m.mtShort), (3, m.tileLost),
   (4, m.failedLanes.any (fun e => e.2 != 0)), (5, m.rowsUsed.any (fun e => m.rowsLeft e.1 == 0)),
   (6, m.dead.any (fun y => cornerYards.contains y))].filterMap (fun e => if e.2 then some e.1 else none)

def Dev.raiseCauses (d : Dev) (cs : List Nat) : Dev := cs.foldl (fun d i => d.replaceCause i) d

/-! ## Furls (R443) -/

/-- What a yard's pending furls make of its harvest word; `test`: the spare's test, run only when the spare is to substitute. -/
def furledWord (h pend : Nat) (whole test : Bool) : Nat :=
  let spare := spareOf h
  let furled := Nat.lor (h / 2 ^ 8) pend
  let state := if yardStateOf h ≠ 0 then yardStateOf h else if pend.testBit 23 then 2 else if whole then 1 else 0
  let spare1 := if spare < 24 ∧ pend.testBit spare then 0x1F else spare
  let lost := (List.range 17).any (fun s => pend.testBit s && stateIn h s == 0)
  if lost ∧ spare1 ≠ 0x1F ∧ state = 0 then
    if test then harvestWord 0x1F state furled else harvestWord 0x1F state (Nat.lor furled (2 ^ spare1))
  else harvestWord spare1 state furled

/-- Is the spare of yard `y` to substitute, so that its test runs? -/
def Dev.substitutes (d : Dev) (y : Nat) : Bool :=
  let h := d.bos.man.yardWord y
  let pend := d.fld (Reg.yardFurlPending y) F.yardFurlPendingSlots
  (List.range 17).any (fun s => pend.testBit s && stateIn h s == 0) && spareOf h != 0x1F && !pend.testBit (spareOf h)
    && yardStateOf h == 0 && !pend.testBit 23 && !d.flag (Reg.yardFurlPending y) F.yardFurlPendingYard

def Dev.furlPendingIn (d : Dev) (y : Nat) : Bool := d.reg (Reg.yardFurlPending y) != 0

/-- The yard's pending furls enter the harvest map, with a failed router as dead (R262). -/
def Dev.furlYard (d : Dev) (y : Nat) (test : Bool) : Dev :=
  let r := Reg.yardFurlPending y
  let m := d.bos.man
  let h := furledWord (m.yardWord y) (d.fld r F.yardFurlPendingSlots) (d.flag r F.yardFurlPendingYard) test
  let dead := if d.flag (Reg.yardRtrStatus y) F.yardRtrStatusFailed && !m.dead.contains y then m.dead ++ [y] else m.dead
  { d with bos := { d.bos with man := { m with harvest := Sparse.set (fun _ => harvestFactory) m.harvest y (w32 h), dead := dead } } }.setReg r 0

/-- The next map generation (R20). -/
def nextGen (g : Nat) : Nat := if g = 0xFFFF then 1 else g + 1

/-- Steps 4 and 5 of R442: every pending furl, then the append and the new generation. `oks`: the spares' tests in yard order; one that
the command does not give ends as a free bit says (log entry 129). -/
def Dev.applyFurls (d : Dev) (oks : List Bool) : Dev :=
  let ys := allYards.filter d.furlPendingIn
  if ys.isEmpty then d
  else
    let d := (ys.foldl (fun (acc : Dev × List Bool) y =>
      if acc.1.substitutes y then
        match acc.2 with
        | t :: rest => (acc.1.furlYard y t, rest)
        | [] => let f := acc.1.free; (f.2.furlYard y (f.1.getLsbD 0), [])
      else (acc.1.furlYard y true, acc.2)) (d, oks)).1
    let d := (d.append { d.bos.man with mapGen := nextGen d.bos.man.mapGen }).showMap
    let d := d.logEv 0 0x0F 0 0 [w32 d.bos.man.mapGen]
    (d.setFlag Reg.devMap F.devMapPending false).raiseCauses d.bos.man.causes

/-- A fence: while a job is loaded only pending; otherwise steps 4 and 5 run at once (R440). -/
def Dev.settle1 (d : Dev) (oks : List Bool) : Dev := if d.jobLoaded then d else d.applyFurls oks

/-! ## Ageing (R444 to R447) -/

def islandsAged : List Nat := List.range 75

/-- DEV_AGE_WORST: the island with the smallest SLACK_MIN. -/
def Dev.showWorst (d : Dev) : Dev :=
  let w := d.bos.slack.foldl (fun (acc : Option (Nat × Int)) e =>
    match acc with | some a => if e.2 < a.2 then some e else acc | none => some e) none
  match w with
  | some e => (d.setFld Reg.devAgeWorst F.devAgeWorstIsland e.1).setFld Reg.devAgeWorst F.devAgeWorstSlack (byteOfInt e.2)
  | none => (d.setFld Reg.devAgeWorst F.devAgeWorstIsland 0).setFld Reg.devAgeWorst F.devAgeWorstSlack 0x80

/-- One bin of island `i` is lost. -/
def Manifest.loseBin (m : Manifest) (i : Nat) : Manifest :=
  { m with bins := Sparse.set (fun _ => 0) m.bins i (Sparse.get (fun _ => 0) m.bins i + 1) }

/-- An ageing record holds the SLACK_MIN of every island beside its steps and bins (R447; log entry 130). -/
def Dev.ageRecord (d : Dev) (m : Manifest) : Manifest := { m with slack := d.bos.slack }

/-- A sample below GUARD while a job is loaded acts at once (R446); an island at its lowest bin has no bin to lose. -/
def Dev.guardBreach (d : Dev) (i : Nat) : Dev :=
  let d := { d with bos := { d.bos with guardHit := if d.bos.guardHit.contains i then d.bos.guardHit else i :: d.bos.guardHit } }
  if i < 64 then
    Dev.showReef { d with bos := { d.bos with ageReef := if d.bos.ageReef.contains i then d.bos.ageReef else i :: d.bos.ageReef } }
  else if d.bins i < islandBins i then (d.append (d.ageRecord (d.bos.man.loseBin i))).replaceCause 0
  else d

def Dev.sampleIsland (d : Dev) (i : Nat) (s : Int) : Dev :=
  let m := match d.slackOf i with | some o => min o s | none => s
  let d := { d with bos := { d.bos with slack := Sparse.insert d.bos.slack i m } }
  if d.jobLoaded && decide (s < (Config.ageGuard i : Int)) then (d.logEv 5 0x0C i 0 [w32 (byteOfInt s)]).guardBreach i else d

/-- AGEING_SAMPLE: the smallest slack of every island but the timebase, in ps (R444). -/
def execAgeingSample (slack : List (BitVec 8)) : State → Host.Outcome State Fault Refusal :=
  onDev (fun d =>
    if slack.length ≠ 75 ∨ !d.bos.tb ∨ d.pwr.stopped then d
    else
      let d := slack.zipIdx.foldl (fun d e => d.sampleIsland e.2 e.1.toInt) d
      let d := d.showWorst
      if d.started then d.satFld Reg.devAgeWorst F.devAgeWorstSamples 1 else d)

/-- V of an island in 5 mV steps above its base. -/
def Manifest.volt (m : Manifest) (i : Nat) : Int := intOfByte (Sparse.get (fun _ => 0) m.vSteps i % 256)
def Manifest.setVolt (m : Manifest) (i : Nat) (v : Int) : Manifest := { m with vSteps := Sparse.set (fun _ => 0) m.vSteps i (byteOfInt v) }

/-- The procedure of R447: the manifest after it, the replacement causes, and whether yard `i` is fenced. -/
def replan (m : Manifest) (i : Nat) (slack : Option Int) : Manifest × List Nat × Bool :=
  match slack with
  | none => (m, [], false)
  | some s =>
    let target : Int := Config.ageTarget i
    let sens : Int := Config.ageSens i
    let v : Int := Config.vBase i + 5 * m.volt i
    if s < target then
      let k := (target - s + sens - 1) / sens
      if v + 5 * k ≤ Config.vCeil i then (m.setVolt i (m.volt i + k), [], false)
      else if Sparse.get (fun _ => 0) m.bins i < islandBins i then (m.loseBin i, [0], false)
      else
        let m := m.setVolt i (((Config.vCeil i : Int) - Config.vBase i) / 5)
        ({ m with marginOut := if m.marginOut.contains i then m.marginOut else i :: m.marginOut }, [1], decide (i < 64))
    else if target + 2 * sens ≤ s ∧ (Config.vFloor i : Int) < v then (m.setVolt i (m.volt i - 1), [], false)
    else (m, [], false)

/-- Step 6 of R442: every island; an ageing record if a voltage or a bin changed. A yard without margin is fenced. -/
def Dev.replanAll (d : Dev) : Dev :=
  let r := islandsAged.foldl (fun (acc : Manifest × List Nat × List Nat) i =>
    let x := replan acc.1 i (d.slackOf i)
    (x.1, acc.2.1 ++ x.2.1, if x.2.2 then acc.2.2 ++ [i] else acc.2.2)) (d.bos.man, [], [])
  let changed := r.1 != d.bos.man
  let d := if changed then d.append (d.ageRecord r.1) else d
  let d := ({ d with bos := { d.bos with slack := [] } }.showWorst).raiseCauses r.2.1
  r.2.2.foldl (fun d y => d.fenceYard y) d

/-! ## Repairs (R214, R215) -/

/-- Eight granules 16 KiB apart make up the page. -/
def pageGranules (page : Nat) : List Nat := (List.range 8).map (fun k => page / 64 * 2 ^ 17 + page % 64 * 256 + k * 2 ^ 14)

def Dev.showRows (d : Dev) (c : Nat) : Dev :=
  d.setReg (Reg.holdRepairLeft c) ((List.range 511).foldl (fun m b => min m (d.bos.man.rowsLeft (512 * c + b + 1))) (d.bos.man.rowsLeft (512 * c)) % 256)

/-- A page is repaired with a spare row of its bank, zeroed and recorded; with no row left it stays in service. -/
def Dev.repairPage (d : Dev) (page : Nat) : Dev :=
  let a := page / 64 * 2 ^ 17 + page % 64 * 256
  let bank := bankOfAddr a
  let m := d.bos.man
  if m.rowsLeft bank = 0 then d.replaceCause 5
  else
    let d := (pageGranules page).foldl (fun d g => d.dropMem (fun x => decide (g ≤ x) && decide (x < g + 256))) d
    (d.append { m with rowsUsed := Sparse.set (fun _ => 0) m.rowsUsed bank (Sparse.get (fun _ => 0) m.rowsUsed bank + 1) }).showRows (ctlOf a)

/-- Are repairs still to be made? -/
def Dev.repairing (d : Dev) : Bool := ctls.any (fun c => !(d.ctl c).retire.isEmpty)

def Dev.showRepair (d : Dev) : Dev :=
  ctls.foldl (fun d c =>
    let n := (d.ctl c).retire.length
    (d.setFld (Reg.holdRetirePending c) F.holdRetirePendingPages (min 0xFF n)).setFlag (Reg.holdStatus c) F.holdStatusRepairing (decide (n ≠ 0))) d

/-! ## Self-tests (R440, R441, R450, R451) -/

/-- A unit that failed its self-test twice (R440, R441); furled ones are left. -/
def Dev.unitFailed (d : Dev) (u : Nat) : Dev :=
  if u < 0x600 then
    if stateIn (d.bos.man.yardWord (u / 24)) (u % 24) = 2 then d else d.fenceSlot u
  else if u < 0x640 then
    if yardStateOf (d.bos.man.yardWord (u - 0x600)) ≠ 0 then d else d.fenceYard (u - 0x600)
  else if u < 0x680 then d.replaceCause 8
  else d

/-- The units of a test (R450, R451). -/
def testUnits (scope index : Nat) : List Nat :=
  match scope with
  | 0 => List.range 0x600 ++ allYards.map (0x600 + ·) ++ [0x640] ++ ctls.map (0x650 + ·) ++ ctls.map (0x660 + ·) ++ [0x670]
  | 1 => (List.range 24).map (24 * index + ·) ++ [0x600 + index]
  | 2 => [0x660 + index]
  | _ => if index < 4 then (List.range 16).map (0x680 + 16 * index + ·) else (List.range 64).map (0x680 + ·)

/-- The memories a test leaves zeroed. -/
def Dev.testClears (d : Dev) (scope index a : Nat) : Bool :=
  match scope with
  | 0 => inStore a || inCase a
  | 1 => (inStore a && (a - storeLo) / 0x80000 / 24 == index) || (inCase a && (a - caseLo) / 0x4000000 == index)
  | 2 => false
  | _ => inHold a && !d.inRetained a && (decide (4 ≤ index) || ctlOf a == index)

/-- A test has run: its result in the registers and the logbook, and what follows for the units that failed. -/
def Dev.testDone (d : Dev) (t : Nat × Nat) (fails pages : List Nat) : Dev :=
  let us := testUnits t.1 t.2
  let bad := us.filter fails.contains
  let d := d.dropMem (d.testClears t.1 t.2)
  let r := Reg.bosBistStatus
  let d := (((d.setFld r F.bosBistStatusScope t.1).setFld r F.bosBistStatusIndex (min t.2 0x3F)).setFlag r F.bosBistStatusLastPass bad.isEmpty)
  let d := (d.setFld Reg.bosBistFails F.bosBistFailsFailed bad.length).setFld Reg.bosBistFails F.bosBistFailsTested us.length
  let d := (d.setFld Reg.bosBistFirst F.bosBistFirstUnit (bad.headD 0)).logEv 6 9 (bad.headD 0) t.1
    [w32 (d.reg r), w32 bad.length, w32 us.length]
  let d := bad.foldl (fun d u => d.unitFailed u) d
  if t.1 = 3 then (pages.filter (fun a => inHold a && (decide (4 ≤ t.2) || ctlOf a == t.2))).foldl (fun d a => d.scheduleRetire a) d else d

/-- STATE and QUEUED of BOS_BIST_STATUS. -/
def Dev.showTests (d : Dev) : Dev :=
  let r := Reg.bosBistStatus
  let n := d.bos.btq.length
  (d.setFld r F.bosBistStatusState (if d.bos.btCur.isSome then 1 else if n = 0 then 0 else 2)).setFld r F.bosBistStatusQueued n

/-- A link die's test takes its four ports down; training brings them back (R366). -/
def Dev.testPorts (d : Dev) (scope index : Nat) : Dev :=
  if scope = 2 then ((List.range 4).map (4 * index + ·)).foldl (fun d n => d.lnkRetrain n) d else d

/-- A queued test, of the boundary or of the boot: its ports go down and train again, its result follows. -/
def Dev.queuedTest (d : Dev) (t : Nat × Nat) (fails pages : List Nat) : Dev := (d.testPorts t.1 t.2).testDone t fails pages

end Sys2Proof.Machine
end

