-- ==== Sys2Proof/Machine/Boot.lean ====
section
/-! DEFINITION. Sys2Proof/Machine/Boot.lean: resets and the boot sequence (R405 to R416, R459, R460, R483), ROM recovery (R409),
what each reset keeps (the boundary tables of every chapter). -/

namespace Sys2Proof.Machine

/-! ## In reset -/

/-- Registers that a warm reset keeps (R455, R476, R495). -/
def warmKept : RegName → Bool
  | .pwrAlert | .devReplace | .bosSpareTest | .bosLogNewestLo | .bosLogNewestHi | .bosLogOldestLo | .bosLogOldestHi => true
  | _ => false

/-- Of PWR_DIP, PWR_THERM and CLK_REF some fields only: TOTAL; TJ_MAX, SENSOR and TRIPPED; LOSSES and REF_OK. -/
def Dev.keptFields (old new : Dev) : Dev :=
  let keep := fun (d : Dev) (r : Nat) (f : Fld) => d.setFld r f (old.fld r f)
  let d := keep new Reg.pwrDip F.pwrDipTotal
  let d := keep (keep (keep d Reg.pwrTherm F.pwrThermTjMax) Reg.pwrTherm F.pwrThermSensor) Reg.pwrTherm F.pwrThermTripped
  keep (keep d Reg.clkRef F.clkRefLosses) Reg.clkRef F.clkRefRefOk

def inBosun (off : Nat) : Bool := decide (0x100000 ≤ off) && decide (off < 0x110000)

/-- What the bosun's VAUX domain, the flash and the packages in self refresh keep. `on`: the bosun itself is not in reset (R464). -/
def Dev.inReset (d : Dev) (on : Bool) : Dev :=
  let b := d.bos
  let fresh := Dev.powerOn b.man b.fwA b.fwB
  let regs := d.regs.filter (fun e => (on && inBosun e.1) || match regAt e.1 with | some r => warmKept r.d.name | none => false)
  let n : Dev := { fresh with
    regs := regs, mem := d.mem.filter (fun e => inHold e.1), ecc := d.ecc.filter (fun e => inHold e.1),
    links := d.links.map (fun (e : Nat × LinkP) => (e.1, { LinkP.idle with strikes := e.2.strikes })),
    bos := { fresh.bos with
      slotB := b.slotB, raiseSvn := b.raiseSvn, log := b.log, pinned := b.pinned, seq := b.seq, retained := b.retained,
      keks := b.keks, spareNext := b.spareNext, spareFails := b.spareFails, romDigest := on && b.romDigest,
      running := if on then b.running else fwNone },
    pwr := { Power.idle with refLost := d.pwr.refLost, temps := d.pwr.temps, tripped := d.pwr.tripped, thermtrip := d.pwr.thermtrip },
    pins := d.pins, tap := d.tap, out := d.out, freeCtr := d.freeCtr }
  ctls.foldl (fun d c => d.setFlag (Reg.holdStatus c) F.holdStatusSelfRefresh true) (Dev.keptFields d n)

/-- The packages have lost what they held (R464, R474). -/
def Dev.loseHold (d : Dev) : Dev :=
  let had := d.bos.retained.isSome
  let d := { d with mem := d.mem.filter (fun e => !inHold e.1), ecc := d.ecc.filter (fun e => !inHold e.1), bos := { d.bos with retained := none } }
  if had then d.logEv 0 4 0 2 [] else d

/-! ## The steps of R414 -/

def Dev.stage (d : Dev) (n : Nat) : Dev := d.setFld Reg.bosBootStatus F.bosBootStatusStage n

/-- The boot stops with a cause (R415). -/
def Dev.bootStop (d : Dev) (stage cause : Nat) : Dev :=
  let d := ((d.stage stage).setFld Reg.bosBootStatus F.bosBootStatusCause cause).logEv 0 9 0 cause [w32 cause]
  { d with bos := { d.bos with halted := true } }

/-- Is the image valid under R408? -/
def fwValid (i : FwImage) (minSvn : Nat) : Bool := i.sound && decide (minSvn ≤ i.svn.toNat)

/-- The slot that boots: A, else B (R409). -/
def Dev.bootSlot (d : Dev) : Option (Nat × FwImage) :=
  if fwValid d.bos.fwA d.bos.man.minSvn then some (0, d.bos.fwA)
  else if fwValid d.bos.fwB d.bos.man.minSvn then some (1, d.bos.fwB) else none

/-- Step 5: the manifest's registers. -/
def Dev.showIdentity (d : Dev) : Dev :=
  let m := d.bos.man
  let d := (d.setReg64 Reg.bosSerialLo Reg.bosSerialHi m.serial.toNat).showManifest
  let d := (d.setFld Reg.bosFwSvn F.bosFwSvnMinSvn m.minSvn)
  let d := (d.setFlag Reg.bosSec F.bosSecOwner m.owner.isSome).setFlag Reg.bosSec F.bosSecRequireSigned m.requireSigned
  ctls.foldl (fun d c => d.showRows c) d.showMap

/-- Step 5: what the running image brings. RAISE_SVN appends MIN_SVN at the first boot that runs it from slot A (R422). -/
def Dev.runImage (d : Dev) (slot : Nat) (i : FwImage) : Dev :=
  let d : Dev := { d with bos := { d.bos with running := i } }
  let d := (d.setReg Reg.bosFwVersion i.version.toNat).setFld Reg.bosFwSvn F.bosFwSvnSvn i.svn.toNat
  let d := (d.setFld Reg.hstCaps F.hstCapsFeature i.feature.toNat).setFld Reg.pressProofStatus F.pressProofStatusLevel i.proofLevel.toNat
  let d := (List.range 16).foldl (fun d n => d.setFld (Reg.lnkPlevel n) F.lnkPlevelSupported i.linkLevels.toNat) d
  let d := d.setFlag Reg.bosBootStatus F.bosBootStatusBosunReady true
  if d.bos.raiseSvn ∧ slot = 0 then
    let d := { d with bos := { d.bos with raiseSvn := false } }.append { d.bos.man with minSvn := max d.bos.man.minSvn i.svn.toNat }
    d.setFld Reg.bosFwSvn F.bosFwSvnMinSvn d.bos.man.minSvn
  else d

/-- The causes in force: those of the manifest; bits 7 and 8 come from this boot (R455). -/
def Dev.showCauses (d : Dev) : Dev :=
  let v := sumBits (d.bos.man.causes.map (fun i => (i, 1)))
  d.setReg Reg.devReplace (v + b2n (v ≠ 0) * 2 ^ 31)

/-- Steps 7 and 8: islands locked, timebase from 0, tree and quoin. -/
def Dev.islandsUp (d : Dev) (b : BootIn) : Dev :=
  let d := ((d.setReg (Reg.clkLock 0) 0xFFFFFFFF).setReg (Reg.clkLock 1) 0xFFFFFFFF).setReg (Reg.clkLock 2) 0xFFF
  let d := { d with bos := { d.bos with tb := true } }.setFlag Reg.clkRef F.clkRefRefOk (!d.pwr.refLost)
  (d.setFlag Reg.halStatus F.halStatusTreeOk b.treeOk).setFlag Reg.devNumerics F.devNumericsSrSelftest b.quoinOk

/-- Step 9. -/
def Dev.holdUp (d : Dev) (b : BootIn) : Dev :=
  ctls.foldl (fun d c =>
    let ok := bitsAt b.chanOk.toNat (16 * c) 16
    let r := Reg.holdStatus c
    ((d.setFld r F.holdStatusChanOk ok).setFlag r F.holdStatusTrained (decide (ok = 0xFFFF))).setFlag r F.holdStatusSelfRefresh false) d

/-- R222: one region entry per retained region, before the clear. -/
def Dev.rebuildRegions (d : Dev) : Dev :=
  match d.bos.retained with
  | none => d
  | some r => r.regions.zipIdx.foldl (fun d e =>
      ((d.setReg (Reg.holdRgnBase e.2) e.1.1).setReg (Reg.holdRgnSize e.2) e.1.2.1).setReg (Reg.holdRgnAttr e.2) e.1.2.2.toNat) d

/-- The proof registers as the retained range gives them (R344). -/
def Dev.showRetained (d : Dev) : Dev :=
  let d := d.setFlag Reg.hstJob F.hstJobRetained d.bos.retained.isSome
  let d := if (d.rgnOf 0).isSome then d.showProof else d
  d.showMirror

/-- Step 10. -/
def Dev.bootClear (d : Dev) : Dev := ((d.rebuildRegions).clearMemories).showRetained

/-- Step 11, when the boot policy selects it: the test of device scope; what fails is fenced at once, since no job is loaded (R440).
The ports train in step 12. -/
def Dev.bootTest (d : Dev) (fails : List Nat) : Dev :=
  if !d.bos.man.quickTest then d
  else
    let d := (d.testDone (0, 0) fails []).settle1 []
    (d.setFlag Reg.bosBootStatus F.bosBootStatusSelftestRun true).setFlag Reg.bosBootStatus F.bosBootStatusSelftestPass
      (d.flag Reg.bosBistStatus F.bosBistStatusLastPass)

/-- Step 12: the ports train; those of a dead edge router stay down (R376). -/
def Dev.bootPorts (d : Dev) (ts : List Training) : Dev :=
  let dead := (List.range 64).filter (fun y => d.bos.man.dead.contains y)
  let d := dead.foldl (fun d y =>
    (portsAt y).foldl (fun d n => (d.modLink n (fun l => { l with edgeDead := true })).portDown n 6) d) d
  ts.zipIdx.foldl (fun d e => if e.2 < 16 then d.fullTrain e.2 e.1 else d) d

/-- Steps 9 to 13. -/
def Dev.bootLast (d : Dev) (b : BootIn) : Dev :=
  let d := (((d.holdUp b).bootClear).bootTest b.testFails).bootPorts b.ports
  let d := ((d.setFlag Reg.hstStatus F.hstStatusUp b.hostUp).setReg Reg.bosBootMs b.ms.toNat).stage 0xF
  d.setJst JobSt.idle

/-- Steps 6 to 13. -/
def Dev.bootOn (d : Dev) (b : BootIn) : Dev :=
  let d := if b.keysOk then { d.setFlag Reg.bosBootStatus F.bosBootStatusIdentityOk true with bos := { d.bos with keysUnwrapped := true } }
    else d.replaceCause 7
  if !b.railsOk then d.bootStop 7 4
  else
    let d := d.islandsUp b
    if !b.boundsOk then d.bootStop 9 5 else d.bootLast b

/-- Step 5: a torn last append is ignored and logged; the next append overwrites it (R412). -/
def Dev.bootManifest (d : Dev) (b : BootIn) (slot : Nat) (i : FwImage) : Dev :=
  if !b.manifestOk then d.bootStop 5 2
  else if !b.steppingOk || d.bos.man.stepping.toNat != d.fld Reg.devIdent F.devIdentStepping then d.bootStop 5 3
  else
    let d := if b.tornAppend then d.logEv 0 0x0F 0 1 [] else d
    ((d.showIdentity.runImage slot i).showCauses).bootOn b

/-- The boot from step 1. -/
def Dev.boot (d : Dev) (b : BootIn) (warm : Bool) : Dev :=
  let d := (d.setFld Reg.devBoard F.devBoardBoardPos b.pos.toNat).setFlag Reg.bosBootStatus F.bosBootStatusWarm warm
  let d := { d with bos := { d.bos with romDigest := true, keks := true, halted := false, recovery := false } }
  match d.bootSlot with
  | none =>
    let d := (d.setFlag Reg.bosBootStatus F.bosBootStatusSlotAFail true).bootStop 4 1
    { d with bos := { d.bos with recovery := true } }
  | some (slot, i) =>
    let d := (d.setFlag Reg.bosBootStatus F.bosBootStatusSlotAFail (slot == 1)).setFlag Reg.bosBootStatus F.bosBootStatusSlot (slot == 1)
    d.bootManifest b slot i

/-! ## The commands -/

/-- Is the device in reset and free to leave it? THERMTRIP_N holds it until VIN_CORE has been removed (R495). -/
def Dev.mayBoot (d : Dev) : Bool := d.pins.vaux && !d.bos.romDigest && !d.pwr.thermtrip && !d.pwr.brownout

/-- RST_N_DEASSERT: BOARD_POS is sampled and the boot runs; also the boot that follows a WARM_RESET (log entry 50). -/
def execRstNDeassert (b : BootIn) : State → Host.Outcome State Fault Refusal :=
  onDev (fun d =>
    let d := { d with pins := { d.pins with rstN := true } }
    if !d.mayBoot then d
    else { d with pins := { d.pins with pwrGood := true, vinCore := true } }.boot b (d.bos.keks && d.pins.vinCore))

/-- RST_N_ASSERT: a low of 1 µs or more (R483). -/
def execRstNAssert : State → Host.Outcome State Fault Refusal :=
  onDev (fun d => if d.pins.vaux then { d with pins := { d.pins with rstN := false } }.inReset false else d)

/-- The device without VAUX: the flash is all that stays (R431, R455). -/
def Dev.dark (d : Dev) (vaux : Bool) : Dev :=
  let b := d.bos
  let n := Dev.powerOn b.man b.fwA b.fwB
  { n with bos := { n.bos with slotB := b.slotB, raiseSvn := b.raiseSvn }, pins := ⟨false, false, vaux, false⟩, out := d.out, freeCtr := d.freeCtr }

/-- VAUX_FALL: keys, logbook and measurements are lost (R431). -/
def execVauxFall : State → Host.Outcome State Fault Refusal := onDev (fun d => d.dark false)
/-- VAUX_RISE: the bosun domain at its power-on values, RST_N held low (R459). -/
def execVauxRise : State → Host.Outcome State Fault Refusal := onDev (fun d => if d.pins.vaux then d else d.dark true)

/-- PLDM_FIRMWARE_UPDATE: in ROM recovery the received image goes into slot B, and the boot restarts (R409). -/
def execPldmFirmwareUpdate (img : FwImage) (b : BootIn) : State → Host.Outcome State Fault Refusal :=
  onDev (fun d =>
    if !d.bos.recovery then d
    else { d with bos := { d.bos with fwB := img, slotB := [] } }.boot b (d.flag Reg.bosBootStatus F.bosBootStatusWarm))

end Sys2Proof.Machine
end

