-- ==== Sys2Proof/Machine/Control.lean ====
section
/-! DEFINITION. Sys2Proof/Machine/Control.lean: branches, nop, halt, fence, srd, brk and dmark (R129, R138, R140, R156). -/

namespace Sys2Proof.Machine

/-- A taken branch: a target outside the code region, or not a multiple of 4, is a local-address fault at the branch
(R138). -/
def branchTo (d : Dev) (h : Iss) (target : Nat) : Res :=
  if target % 4 = 0 ∧ target < (d.tile h.slot).image.codeEnd then .jump d target else .fault d 2 (w64 target)

/-- PC + 4 × OFF22, in 64 bits. -/
def branchTarget (k : Core) (off : BitVec 22) : Nat := (w64 k.pc + off.signExtend 64 * 4#64).toNat

/-- BRA (R138). -/
def execBra (h : Iss) (off : BitVec 22) : State → Host.Outcome State Fault Refusal :=
  tileInstr h (.bra h off) { cls := 0x03, fn := 0 } (fun d k _ => branchTo d h (branchTarget k off))

/-- CALL: s31 takes PC + 4 (R138). -/
def execCall (h : Iss) (off : BitVec 22) : State → Host.Outcome State Fault Refusal :=
  tileInstr h (.call h off) { cls := 0x04, fn := 0, s := [31] } (fun d k _ =>
    match branchTo d h (branchTarget k off) with
    | .jump d' t => .jump (d'.putS h 31 (w64 (k.pc + 4))) t
    | r => r)

/-- JR (R138). -/
def execJr (h : Iss) (a : R5) : State → Host.Outcome State Fault Refusal :=
  tileInstr h (.jr h a) { cls := 0x05, fn := 3, s := [a] } (fun d k _ => branchTo d h (k.sreg a).toNat)

/-- The tile's nop (R140). -/
def execNopInstruction (h : Iss) : State → Host.Outcome State Fault Refusal :=
  tileInstr h (.nopInstruction h) { cls := 0x05, fn := 0 } (fun d _ _ => .done d)

/-- The PC moves past the instruction and the core stops issuing; the tile's other cores may already wait at a barrier (R153). -/
def stopAfter (d : Dev) (h : Iss) : Res :=
  .raised (((d.modCore h.slot h.core (fun k => { k.advance false with run := .halted })).counted h.slot).settle h.slot)

/-- HALT: no barrier arrival; broadcasts that wait for the core are discarded with it (R140, R254). -/
def execHalt (h : Iss) : State → Host.Outcome State Fault Refusal :=
  tileInstr h (.halt h) { cls := 0x05, fn := 1 } (fun d _ _ => stopAfter (d.modCore h.slot h.core (fun k => { k with bq := [] })) h)

/-- FENCE: stalls until every earlier global access of this core is complete and acknowledged (R140). -/
def execFence (h : Iss) : State → Host.Outcome State Fault Refusal :=
  tileInstr h (.fence h) { cls := 0x05, fn := 2 } (fun d k _ => if k.loads = [] ∧ k.stores = [] then .done d else .stall d)

/-- Special register n (R129); CYCLE is a free value (log entry 4). None: no such register. -/
def specialReg (d : Dev) (h : Iss) (n : Nat) : Option (DWord × Dev) :=
  let t := d.tile h.slot
  match n with
  | 0 => some (t.step.setWidth 64, d)
  | 1 => some (w64 (d.logical h.slot), d)
  | 2 => some (w64 h.slot, d)
  | 3 => some (w64 h.core, d)
  | 4 => some (w64 d.ownDev, d)
  | 5 => some (w64 (d.fld Reg.devBoard F.devBoardBoardPos), d)
  | 6 => some (if t.replayed then 1 else 0, d)
  | 7 => some d.free
  | 8 => some (w64 d.timebase, d)
  | 9 => some (w64 (d.fld Reg.devMap F.devMapMapGen), d)
  | _ => none

/-- SRD: any other n is an illegal instruction (R129). -/
def execSrd (h : Iss) (d n : R5) : State → Host.Outcome State Fault Refusal :=
  tileInstr h (.srd h d n) { cls := 0x05, fn := 4, legal := decide (n.val ≤ 9), s := [d] } (fun dev _ _ =>
    match specialReg dev h n with
    | some (v, dev') => .done (dev'.putS h d v)
    | none => .fault dev 1 0)

/-- BRK: with debug scope bit 2 it stops the core and signals the debugger, else it is a nop (R156, R427). -/
def execBrk (h : Iss) : State → Host.Outcome State Fault Refusal :=
  tileInstr h (.brk h) { cls := 0x16, fn := 0 } (fun d _ _ =>
    if d.debugOpen 2 then stopAfter (d.send (.debugger h.slot h.core)) h else .done d)

/-- DMARK (R156). -/
def execDmark (h : Iss) (a : R5) : State → Host.Outcome State Fault Refusal :=
  tileInstr h (.dmark h a) { cls := 0x16, fn := 1, s := [a] } (fun d k _ =>
    .done (d.setReg (Reg.tileDbgMark h.slot) (k.sreg a).toNat))

end Sys2Proof.Machine
end

