-- ==== Sys2Proof/Machine/EccMem.lean ====
section
/-! DEFINITION. Sys2Proof/Machine/EccMem.lean: write-backs of corrected words and scrubs of tile stores and case memory
(R168, R170, R196), beats of a case slice (R193, R194). -/

namespace Sys2Proof.Machine

/-! ## Words in error -/

/-- A new error at a word: a second one beside a correctable one is beyond correction (R167). -/
def Dev.strikeWord (d : Dev) (base : Nat) (x : Struck) : Dev :=
  let w := (base + x.addr) / 8 * 8
  let old := Sparse.get (fun _ => 0) d.ecc w
  { d with ecc := Sparse.set (fun _ => 0) d.ecc w (if old = 3 then 3 else if x.double || old != 0 then 2 else 1) }

/-- The errors of `struck` that lie within `n` bytes of `base + lo`. -/
def Dev.strikeLine (d : Dev) (base lo n : Nat) (struck : List Struck) : Dev :=
  (struck.filter (fun x => decide (lo ≤ x.addr) && decide (x.addr < lo + n))).foldl (fun d x => d.strikeWord base x) d

/-- A corrected word goes back: its check bits are sound again. -/
def Dev.writeBack (d : Dev) (w : Nat) : Dev :=
  if d.wb.contains w then
    { d with wb := d.wb.filter (fun x => x != w), ecc := if Sparse.get (fun _ => 0) d.ecc w = 1 then Sparse.erase d.ecc w else d.ecc }
  else d

/-! ## Tile stores -/

/-- STORE_ECC_WRITEBACK: the word at byte address `word` of the store (R168). -/
def execStoreEccWriteback (slot : Slot) (word : Nat) : State → Host.Outcome State Fault Refusal :=
  onDev (fun d => if word < storeBytes then d.writeBack (tileBase slot + word / 8 * 8) else d)

/-- STORE_SCRUB: line `line` of 128 bytes is read; errors are corrected or recorded, without a fault (R170). -/
def execStoreScrub (slot : Slot) (line : Nat) (struck : List Struck) (lastOfPass : Bool) : State → Host.Outcome State Fault Refusal :=
  onDev (fun d =>
    let lo := 128 * line
    if storeBytes ≤ lo then d
    else
      let g := tileBase slot + lo
      let d := (d.strikeLine (tileBase slot) lo 128 struck).noteCe slot g 128
      let d := d.noteUes slot 15 (d.eccAll g 128)
      if lastOfPass then d.incFld (Reg.tileEccScrub slot) fld32 1 else d)

/-! ## Case memory -/

def sliceBytes : Nat := 0x200000
def sliceBase (y s : Nat) : Nat := caseBase y + s * sliceBytes

/-- Round-robin: the requesting master next after the last granted (R193). -/
def nextMaster (last : Option Nat) (ms : List Nat) : Option Nat :=
  ((List.range 25).map (fun i => ((match last with | some m => m + 1 | none => 0) + i) % 25)).find? (fun m => ms.contains m)

/-- One granted beat: 64 bytes at a 64-byte line. -/
def Dev.beat (d : Dev) (y s : Nat) (q : CaseReq) : Dev :=
  let a := sliceBase y s + q.addr / 64 * 64
  if d.runningJob && d.yardFurled y then (d.logUnpopulated a).send (.caseData y s q.m false [])
  else
    match q.wr with
    | some bs =>
      let owner := bitsAt (d.reg (Reg.yardSliceOwner y (s / 4))) (8 * (s % 4)) 8
      if d.runningJob && owner != q.m.val then d.send (.caseData y s q.m false [])
      else (d.store a (bs.take 64)).send (.caseData y s q.m true [])
    | none =>
      let d := d.caseCe (touches a 64)
      match d.eccAll a 64 with
      | [] => d.send (.caseData y s q.m true (d.bytes a 64))
      | ws => (ws.foldl (fun d w => d.caseUe (fun _ => q.m) w) d).send (.caseData y s q.m false [])

/-- The masters that have a beat in the present cycle at a slice, and those that one has cost them. A slice grants one beat per
cycle, so a beat at a slice that has had one begins the next cycle (R193; log entry 80). -/
def YardS.beginBeat (q : YardS) (s : Nat) : YardS := if q.cycle.any (fun e => e.1 == s) then { q with cycle := [], lost := [] } else q

/-- Slice `s` grants `w` its beat, and the masters `ls` get none there: one that has none at any slice in this cycle has lost the
cycle, once; a cycle in which a master gets a beat after all is not lost. -/
def Dev.countLosers (d : Dev) (y s w : Nat) (ls : List Nat) : Dev :=
  let q := (d.yard y).beginBeat s
  let back := q.lost.contains w
  let new := ls.filter (fun m => !q.lost.contains m && !q.cycle.any (fun e => e.2 == m))
  let d := if back && d.reg (Reg.yardConflict y w) != 2 ^ 32 - 1 then d.setReg (Reg.yardConflict y w) (d.reg (Reg.yardConflict y w) - 1) else d
  let d := new.foldl (fun d m => d.satFld (Reg.yardConflict y m) fld32 1) d
  d.setYard y { q with last := Sparse.insert q.last s w, cycle := Sparse.insert q.cycle s w, lost := q.lost.filter (· ≠ w) ++ new }

/-- CASE_SLICE_BEAT: one of the requesting masters is granted, the others lose the cycle (R193). -/
def execCaseSliceBeat (y : Yard) (slice : Fin 32) (reqs : List CaseReq) : State → Host.Outcome State Fault Refusal :=
  onDev (fun d =>
    let ok := reqs.filter (fun q => decide (q.addr < sliceBytes) && (match q.wr with | some bs => bs.length == 64 | none => true))
    match nextMaster (((d.yard y).last.find? (fun e => e.1 == slice.val)).map (·.2)) (ok.map (fun q => q.m.val)) with
    | none => d
    | some w =>
      let losers := (List.range 25).filter (fun m => m != w && ok.any (fun q => q.m.val == m))
      let d := d.countLosers y slice w losers
      match ok.find? (fun q => q.m.val == w) with
      | some q => d.beat y slice q
      | none => d)

/-- CASE_ECC_WRITEBACK: the word at offset `word` of the yard's case memory (R196). -/
def execCaseEccWriteback (y : Yard) (word : Nat) : State → Host.Outcome State Fault Refusal :=
  onDev (fun d => if word < 0x4000000 then d.writeBack (caseBase y + word / 8 * 8) else d)

/-- CASE_SCRUB: line `line` of 64 bytes of a slice is read (R196). -/
def execCaseScrub (y : Yard) (slice : Fin 32) (line : Nat) (struck : List Struck) (lastOfPass : Bool) :
    State → Host.Outcome State Fault Refusal :=
  onDev (fun d =>
    let lo := 64 * line
    if sliceBytes ≤ lo then d
    else
      let g := sliceBase y slice + lo
      let d := (d.strikeLine (sliceBase y slice) lo 64 struck).caseCe (touches g 64)
      let d := (d.eccAll g 64).foldl (fun d w => d.caseUe (fun _ => 31) w) d
      if lastOfPass then d.incFld (Reg.yardCaseScrub y) fld32 1 else d)

end Sys2Proof.Machine
end

