-- ==== Sys2Proof/Machine/Hold.lean ====
section
/-! DEFINITION. Sys2Proof/Machine/Hold.lean: the hold controllers: requests and their order (R205 to R207), the checks and
retries of R209 and R210, patrol (R212), refresh, RFM and oscillator tracking (R204, R213), pages to retire (R214). -/

namespace Sys2Proof.Machine

def opIsWrite : HoldOp → Bool
  | .read _ _ _ => false
  | _ => true
/-- Do two requests touch one burst? -/
def opMeets (o q : HoldOp) : Bool := opMeetsAt o (opAddr q) (opSize q)
/-- Does the access lie within one granule of the controller (R202)? -/
def opIsAt (o : HoldOp) (c : Nat) : Bool :=
  decide (0 < (opSize o)) && decide ((opAddr o) + (opSize o) ≤ holdTop) && ctlOf (opAddr o) == c && decide ((opAddr o) / 256 = ((opAddr o) + (opSize o) - 1) / 256)

/-- The path of a request: its mask bit; 7: one that R217 does not check. -/
def holdPath (press : Bool) (path : Nat) : Path := if press then .press else if path = 7 then .bosun else .fabric path

/-- The answer to a request. -/
def Dev.holdAnswer (d : Dev) (c : Nat) (r : Option (List Byte × Bool)) : Dev :=
  match r with
  | some (bs, stale) => d.send (.holdData c true bs stale)
  | none => d.send (.holdData c false [] false)

/-- HOLD_REQUEST: checked against clears, retention and regions, and scheduled; a refused one answers an access error. -/
def execHoldRequest (c : Ctl) (press : Bool) (path : Fin 8) (op : HoldOp) : State → Host.Outcome State Fault Refusal :=
  onDev (fun d =>
    if !opIsAt op c then d
    else
      match d.holdRefused (holdPath press path) (opAddr op) (opSize op) (opIsWrite op) with
      | some d' => d'.holdAnswer c none
      | none =>
        let x := d.ctl c
        d.setCtl c { x with q := x.q ++ [⟨press, path, op, none, false⟩] })

/-! ## Scheduling (R206, R207) -/

/-- Can the `k`-th waiting request be served: no earlier one meets its bursts (R207)? -/
def HoldC.ready (x : HoldC) (k : Nat) : Bool :=
  match x.q[k]? with
  | some r => !(x.q.take k).any (fun e => opMeets e.op r.op)
  | none => false

/-- May side `press` use the next slot: it has slots left in this round of 16, or the other side has nothing that can use one. -/
def Dev.mayServe (d : Dev) (c : Nat) (press : Bool) : Bool :=
  let x := d.ctl c
  let own := if press then x.given.2 else x.given.1
  let wt := d.fld (Reg.holdArb c) (if press then F.holdArbPressWt else F.holdArbFabricWt)
  decide (own < wt) || !(x.q.zipIdx.any (fun r => r.1.press != press && x.ready r.2))

/-- The slot counts for the side it belonged to; sixteen end the round. -/
def HoldC.serve (x : HoldC) (fabricWt pressWt : Nat) (press : Bool) : HoldC :=
  let toPress := if press then decide (x.given.2 < pressWt) else !decide (x.given.1 < fabricWt)
  let g : Nat × Nat := if toPress then (x.given.1, x.given.2 + 1) else (x.given.1 + 1, x.given.2)
  { x with given := if 16 ≤ g.1 + g.2 then (0, 0) else g }

/-- The `k`-th waiting request, when its turn can be now. -/
def Dev.holdNext (d : Dev) (c k : Nat) (write : Bool) : Option HoldReqS :=
  match (d.ctl c).q[k]? with
  | none => none
  | some r => if (opIsWrite r.op) == write && d.mayServe c r.press && (d.ctl c).ready k then some r else none

def Dev.holdTake (d : Dev) (c k : Nat) (r : HoldReqS) : Dev :=
  let x := d.ctl c
  let y := x.serve (d.fld (Reg.holdArb c) F.holdArbFabricWt) (d.fld (Reg.holdArb c) F.holdArbPressWt) r.press
  d.setCtl c { y with q := x.q.eraseIdx k }

/-! ## Checks and retries (R209, R210, R214) -/

/-- Up to `n` tries: passed?, how many failed first, and the tries left over. A try that is not named passes. -/
def runTries : Nat → List Bool → Bool × Nat × List Bool
  | 0, ts => (false, 0, ts)
  | _ + 1, [] => (true, 0, [])
  | n + 1, t :: ts =>
    if t then (true, 0, ts)
    else
      let r := runTries n ts
      (r.1, r.2.1 + 1, r.2.2)

/-- Three reads of a page that pass only on retry in one job schedule it. -/
def Dev.noteRetry (d : Dev) (a : Nat) : Dev :=
  let c := ctlOf a
  let x := d.ctl c
  let n := Sparse.get (fun _ => 0) x.retries (pageOf a) + 1
  let d := (d.setCtl c { x with retries := Sparse.set (fun _ => 0) x.retries (pageOf a) n }).satFld (Reg.holdEccRetry c) fld32 1
  if 3 ≤ n then d.scheduleRetire a else d

/-- Corrections on the link and in the controller. -/
def Dev.noteCorrected (d : Dev) (c : Nat) (t : EccTries) : Dev :=
  (d.satFld (Reg.holdEccLinkCe c) fld32 t.linkCe).satFld (Reg.holdPathEcc c) F.holdPathEccCeCount t.pathCe

/-- An access of a request that the packages cannot deliver: which of its bursts fails is open (R210; log entry 104). -/
def Dev.holdLost (d : Dev) (a n layer : Nat) : Dev := (d.failedBurst a n).1.holdUe (d.failedBurst a n).2 layer

/-- The read of a request's bursts: its verdict, and the tries left for the write of a read-modify-write. -/
def Dev.holdReads (d : Dev) (a n : Nat) (ts : List Bool) : Dev × Bool × List Bool :=
  let r := runTries 3 ts
  if r.1 then (if 0 < r.2.1 then d.noteRetry a else d, true, r.2.2) else (d.holdLost a n 1, false, r.2.2)

/-- The write: one repetition (R210). -/
def Dev.holdWrites (d : Dev) (a n : Nat) (ts : List Bool) : Dev × Bool :=
  if (runTries 2 ts).1 then (d, true) else (d.holdLost a n 1, false)

/-- A request that waits while a hold clear runs ends in an access error (R221). -/
def Dev.holdCleared (d : Dev) (r : HoldReqS) : Bool :=
  !(holdPath r.press r.path).isBosun && d.flag (Reg.holdStatus 0) F.holdStatusClearing

/-- HOLD_READ_COMPLETE (R207, R210, R211). -/
def execHoldReadComplete (c : Ctl) (k : Nat) (t : EccTries) : State → Host.Outcome State Fault Refusal :=
  onDev (fun d =>
    match d.holdNext c k false with
    | none => d
    | some r =>
      let a := (opAddr r.op)
      let n := (opSize r.op)
      let d := d.holdTake c k r
      if d.holdCleared r then d.holdAnswer c none
      else
        match ((d.noteCorrected c t).countHold a n false).holdReads a n t.tries with
        | (d1, false, _) => d1.holdAnswer c none
        | (d1, true, _) =>
          if t.pathUe then (d1.holdLost a n 2).holdAnswer c none
          else
            let p := d1.holdPerform r
            p.1.holdAnswer c (p.2.taken.map (fun bs => (bs, p.2.stale))))

/-- Does the access have to read first (R205)? -/
def opRmw (o : HoldOp) : Bool :=
  match o with
  | .gadd _ _ _ => true
  | _ => decide ((opAddr o) % 64 ≠ 0) || decide ((opSize o) % 64 ≠ 0)

/-- HOLD_WRITE_COMPLETE: a write or an atomic takes its place in the order and is acknowledged (R205, R207, R210). -/
def execHoldWriteComplete (c : Ctl) (k : Nat) (t : EccTries) : State → Host.Outcome State Fault Refusal :=
  onDev (fun d =>
    match d.holdNext c k true with
    | none => d
    | some r =>
      let a := (opAddr r.op)
      let n := (opSize r.op)
      let d := d.holdTake c k r
      if d.holdCleared r then d.holdAnswer c none
      else
        let d := d.noteCorrected c t
        let rd : Dev × Bool × List Bool := if (opRmw r.op) then (d.countHold a n false).holdReads a n t.tries else (d, true, t.tries)
        match rd with
        | (d1, false, _) => d1.holdAnswer c none
        | (d1, true, ts) =>
          let w := (d1.countHold a n true).holdWrites a n ts
          if !w.2 then w.1.holdAnswer c none
          else if t.pathUe then (w.1.holdLost a n 2).holdAnswer c none
          else
            let p := w.1.holdPerform r
            p.1.holdAnswer c (p.2.taken.map (fun bs => (bs, false))))

/-- HOLD_PATROL: burst number `burst` of the hold, in a slot that neither side uses, while a job is loaded; what it finds raises
no fault (R212). -/
def execHoldPatrol (c : Ctl) (burst : Nat) (t : EccTries) : State → Host.Outcome State Fault Refusal :=
  onDev (fun d =>
    let a := 64 * burst
    if !d.jobLoaded || decide (holdTop ≤ a) || ctlOf a != c.val || !(d.ctl c).q.isEmpty then d
    else
      let d := (d.noteCorrected c t).countHold a 64 false
      let r := runTries 3 t.tries
      if r.1 then (if 0 < r.2.1 then d.noteRetry a else d)
      else (d.recordHoldUe a 3).logEv 0 4 c 3 [w32 a, w32 (a / 2 ^ 32)])

/-! ## Refresh (R204, R213) -/

/-- PER_BANK_REFRESH: the banks of a channel take turns; the sixteenth ends its round. -/
def execPerBankRefresh (c : Ctl) (ch : Fin 16) (bank : Fin 16) : State → Host.Outcome State Fault Refusal :=
  onDev (fun d =>
    let x := d.ctl c
    let key := 16 * ch.val + bank.val
    let done := if x.refreshed.contains key then x.refreshed else key :: x.refreshed
    let whole := (List.range 16).all (fun b => done.contains (16 * ch.val + b))
    d.setCtl c { x with refreshed := if whole then done.filter (fun k => k / 16 != ch.val) else done })

/-- RFM: issued when a package asks; counted (R213). -/
def execRfm (c : Ctl) (_ch : Fin 16) : State → Host.Outcome State Fault Refusal :=
  onDev (fun d => d.satFld (Reg.holdRfmCount c) fld32 1)

/-- OSCILLATOR_TRACKING: 1 ms later the channel's WCK-to-DQ offset is measured again (R204). -/
def execOscillatorTracking (c : Ctl) (ch : Fin 16) : State → Host.Outcome State Fault Refusal :=
  onDev (fun d =>
    let x := d.ctl c
    d.setCtl c { x with tracked := x.tracked ||| 2 ^ ch.val })

end Sys2Proof.Machine
end

