-- ==== Sys2Proof/Machine/Faults.lean ====
section
/-! DEFINITION. Sys2Proof/Machine/Faults.lean: fault notices and aborts (R253, R433, R436, R437), the restore of a replay (R435). -/

namespace Sys2Proof.Machine

/-- The step that a replay runs: the one after the newest record (R329, R331). -/
def Dev.replayStep (d : Dev) : Word := w32 (d.reg Reg.pressProofStep) + 1

/-- DEV_ABORT of a fault (R433). -/
def abortValue (n : Notice) (peer : Bool) : Nat :=
  n.block % 2 ^ 8 + n.kind % 2 ^ 8 * 2 ^ 8 + n.inst % 2 ^ 12 * 2 ^ 16 + b2n peer * 2 ^ 28 + 2 ^ 31

/-- R436: one step has aborted as often in a row as REPLAY_LIMIT admits. -/
def Dev.limitReached (d : Dev) : Bool :=
  let l := d.fld Reg.devFaultCfg F.devFaultCfgReplayLimit
  l != 0 && decide (l ≤ d.fld Reg.devReplays F.devReplaysConsec)

/-- A decision on a step that is replayed is no more. -/
def Dev.dropDecision (d : Dev) (n : Word) : Dev :=
  (d.tiles.map (·.1)).foldl (fun d p => d.modTile p (fun t => { t with decs := t.decs.filter (fun x => x.1 != n) })) d

/-- Notices that are on their way join the abort: logged with FIRST 0 (R433). -/
def Dev.joinNotices (d : Dev) : Dev :=
  d.hal.notices.foldl (fun d n => d.logEv 2 n.block n.inst n.kind []) { d with hal := { d.hal with notices := [] } }

/-- Everything stops; fault registers go to the logbook and are zeroed (R435 steps 3 and 4); the scale table is what it was before the
step (R69). -/
def Dev.halt (d : Dev) : Dev :=
  let d := ((d.joinNotices.stopAll).logFaults).zeroFaults
  let d := { d.press.scaleUndo.foldl (fun d e => d.store e.1 e.2) d with press := { d.press with scaleUndo := [] } }
  let d := ((d.dropDecision d.replayStep).scaleDiscard).setFlag Reg.halStatus F.halStatusAbort true
  let d := (d.setReg Reg.halDec 3).setReg Reg.halDecStep d.replayStep.toNat
  { d with hal := { d.hal with aborting := true, decGiven := false, restoreStep := noStep, heldAbort := none, recorded := [] } }

/-- An abort (R253, R433), unless R436 makes it device-fatal. -/
def Dev.startAbort (d : Dev) (n : Notice) (peer : Bool) : Dev :=
  if d.limitReached then d.fatal n.block n.kind n.inst 5 none
  else
    let v := abortValue n peer
    let d := (d.logEv 2 n.block n.inst n.kind [w32 v] true).setReg Reg.devAbort v
    let d := if peer then d else d.markAbort 8
    let d := (d.satFld Reg.devReplays F.devReplaysTotal 1).satFld Reg.devReplays F.devReplaysConsec 1
    let d := d.halt.event 0x0102 0 d.replayStep (w32 v)
    if d.multi && !peer then d.send (.abort n) else d

/-- A fault during a restore starts it again and counts as one more abort of the step (R436, R437); the restore is the whole job's,
so the other devices are told as of an abort (log entry 127). -/
def Dev.restartRestore (d : Dev) (n : Notice) (peer : Bool) : Dev :=
  if d.limitReached then d.fatal n.block n.kind n.inst 5 none
  else
    let d := ((d.logEv 2 n.block n.inst n.kind []).satFld Reg.devReplays F.devReplaysConsec 1).halt
    if d.multi && !peer then d.send (.abort n) else d

/-- Is a restore of R435 going on: from the stop, step 3, to the end of the preparation, step 6? -/
def Dev.restoring (d : Dev) : Bool := d.hal.aborting || (d.hal.restoreStep != noStep && d.press.prep)

/-- What a root does with a notice of its own or with another device's abort (R329, R433, R437). Another root's abort that meets one
not yet restored is the same abort. -/
def Dev.takeNotice (d : Dev) (n : Notice) (peer : Bool) : Dev :=
  if !d.runningJob || (peer && d.hal.aborting) then (if peer then d else d.logEv 2 n.block n.inst n.kind [])
  else if d.hal.holding then
    if d.hal.heldAbort.isSome then d.logEv 2 n.block n.inst n.kind []
    else { d with hal := { d.hal with heldAbort := some n, heldPeer := peer } }
  else if d.restoring then d.restartRestore n peer
  else d.startAbort n peer

/-- FAULT_NOTICE: the oldest notice reaches the device root (R433). -/
def execFaultNotice : State → Host.Outcome State Fault Refusal :=
  onDev (fun d =>
    match d.hal.notices with
    | [] => d
    | n :: rest => { d with hal := { d.hal with notices := rest } }.takeNotice n false)

/-- ABORT_FROM_PEER: the abort that another device of the job raised (R433). -/
def execAbortFromPeer (block kind : Byte) (inst : BitVec 12) : State → Host.Outcome State Fault Refusal :=
  onDev (fun d => if d.multi then d.takeNotice ⟨block.toNat, kind.toNat, inst.toNat⟩ true else d)

/-! ## The restore (R162, R200, R435) -/

/-- Where the job's copy of the forme cannot be read. -/
def Dev.imagesBad (d : Dev) : Option Nat :=
  (d.jobTiles.filterMap (fun p => d.eccFirst (d.tile p).image.addr (d.tile p).image.loadBytes)).head?

/-- Case memory of every yard in service is zero but for the forme's images (R200). -/
def Dev.restoreCase (d : Dev) : Dev :=
  (d.dropMem (fun a => inCase a && !d.yardFurled ((a - caseLo) / 0x4000000))).putCaseImages

/-- Slice owners at their job-load values (R198, R200). -/
def Dev.resetSlices (d : Dev) : Dev :=
  d.dropRegs (fun r => r == .yardSliceOwner || r == .yardSliceNext || r == .yardSliceCtl)

/-- Are requests of a descriptor engine still out? They complete before the engine is reset (R125). -/
def Dev.enginesBusy (d : Dev) : Bool := d.tiles.any (fun e => e.2.engines.any (fun x => x.2.q.any (fun r => r.out != [])))

/-- Tiles in service without a program: their stores are zeroed, their cores stay halted (R160, R162). -/
def Dev.emptyTiles (d : Dev) : Dev :=
  let js := d.jobTiles
  let d := d.dropMem (fun a => inStore a && d.inService ((a - storeLo) / 0x80000) && !js.contains ((a - storeLo) / 0x80000))
  ((d.tiles.map (·.1)).filter (fun p => d.inService p && !js.contains p)).foldl (fun d p => d.restoreTile p (d.tile p).step true) d

/-- REPLAY_RESTORE: steps 5 and 6; the step waits for its release. -/
def execReplayRestore : State → Host.Outcome State Fault Refusal :=
  onDev (fun d =>
    if !d.hal.aborting || !d.runningJob || d.enginesBusy then d
    else match d.imagesBad with
    | some a => d.holdUeClass a 1
    | none =>
      let n := d.replayStep
      let d := d.emptyTiles
      let d := d.jobTiles.foldl (fun d p =>
        (d.restoreTile p (d.tile p).step true).startTile p (d.tile p).image.replay) d
      let d := d.restoreCase.resetSlices
      let d := { d with hal := { d.hal with aborting := false, restoreStep := n } }
      d.prepare n false)

end Sys2Proof.Machine
end

