-- ==== Sys2Proof/Machine/GlobalMem.lean ====
section
/-! DEFINITION. Sys2Proof/Machine/GlobalMem.lean: global loads, stores and atomics of the cores (R131 to R133, R142, R157).
An access to this device acts when it issues; its completion is a command of its own. An access to another device goes out as a
request and acts there. A load's fault is precise: while its outcome is not known, its core issues nothing (log entry 48). -/

namespace Sys2Proof.Machine

/-- A global-address fault that shows at issue: bits 63:61, alignment (R131), or control space that is not the core's to
reach: another device's, or a register the core's kind may not access (R132). -/
def gaWrong (d : Dev) (h : Iss) (a : DWord) (align : Nat) : Bool :=
  let x := gaAddr a.toNat
  decide (a.toNat / 2 ^ 61 ≠ 0) || decide (x % align ≠ 0)
    || (decide (ctlLo ≤ x) && decide (x < ctlLo + 0x2000000)
      && (!d.isLocal a.toNat || !Dev.mayReg (.tile h.slot h.core) (x - ctlLo)))

def inCtl (x : Nat) : Bool := decide (ctlLo ≤ x) && decide (x < ctlLo + 0x2000000)

def Dev.gRead (d : Dev) (h : Iss) (x n : Nat) : Dev × Option (List Byte) :=
  if inCtl x then
    if n = 4 then
      let r := d.ctlRead (.tile h.slot h.core) (x - ctlLo)
      (r.1, r.2.map (fun v => toBytes 4 v.toNat))
    else (d, none)
  else d.memRead (.tile h.slot) x n

def Dev.gWrite (d : Dev) (h : Iss) (x : Nat) (bs : List Byte) : Dev × Bool :=
  if inCtl x then (if bs.length = 4 then d.ctlWrite (.tile h.slot h.core) (x - ctlLo) (w32 (ofBytes bs)) else (d, false))
  else d.memWrite (.tile h.slot) x bs

def Dev.gAtomic (d : Dev) (h : Iss) (x w : Nat) (v : DWord) : Dev × Option Nat :=
  if inCtl x then (d, none) else d.memGadd (.tile h.slot) x w v

/-- A new outstanding access of the core. -/
def Dev.pushAcc (d : Dev) (h : Iss) (store : Bool) (g : GAcc) : Dev :=
  d.modCore h.slot h.core (fun k =>
    let g := { g with seq := k.seq }
    let k := { k with seq := k.seq + 1 }
    if store then { k with stores := k.stores ++ [g] } else { k with loads := k.loads ++ [g] })

def maxLoads : Nat := 8
def maxStores : Nat := 32

/-- A load of `n` bytes into a scalar or vector register. -/
def globalLoad (h : Iss) (i : Instr) (fn n : Nat) (vec : Bool) (d a : R5) : State → Host.Outcome State Fault Refusal :=
  tileInstr h i { cls := 7, fn := fn, s := if vec then [a] else [d, a], v := if vec then [d] else [] } (fun dev k _ =>
    let sa := k.sreg a
    let x := gaAddr sa.toNat
    let acc : GAcc := ⟨0, k.pc, 7, fn, sa, n, false, vec, d, [], true, !dev.isLocal sa.toNat || inHold x⟩
    if gaWrong dev h sa (min n 64) then .fault dev 3 sa
    else if maxLoads ≤ k.loads.length then .stall dev
    else if dev.isLocal sa.toNat then
      match dev.gRead h x n with
      | (d1, some bs) => .done (d1.pushAcc h false { acc with data := bs })
      | (d1, none) => .fault d1 3 sa
    else match dev.remoteVia 0 (h.slot.val / 24) (gaDev sa.toNat) 1 x (.read n) with
      | (d1, true) => .done (d1.pushAcc h false acc)
      | (d1, false) => .fault d1 3 sa)

/-- A posted store. -/
def globalStore (h : Iss) (i : Instr) (fn n : Nat) (a : R5) (s v : List R5) (bytes : Core → List Byte) :
    State → Host.Outcome State Fault Refusal :=
  tileInstr h i { cls := 7, fn := fn, s := s, v := v } (fun dev k _ =>
    let sa := k.sreg a
    let x := gaAddr sa.toNat
    let acc : GAcc := ⟨0, k.pc, 7, fn, sa, n, false, false, 0, [], true, true⟩
    if gaWrong dev h sa (min n 64) then
      .fault (if dev.isLocal sa.toNat && inCtl x then dev.logWave (.tile h.slot h.core) (x - ctlLo) (bytes k) else dev) 3 sa
    else if maxStores ≤ k.stores.length then .stall dev
    else if dev.isLocal sa.toNat then
      let r := dev.gWrite h x (bytes k)
      .done (r.1.pushAcc h true { acc with ok := r.2 })
    else match dev.remoteVia 0 (h.slot.val / 24) (gaDev sa.toNat) 1 x (.write (bytes k)) with
      | (d1, true) => .done (d1.pushAcc h true acc)
      | (d1, false) => .done (d1.pushAcc h true { acc with ok := false }))

/-- An atomic addition at its target. -/
def globalAtomic (h : Iss) (i : Instr) (fn n : Nat) (d a b : R5) : State → Host.Outcome State Fault Refusal :=
  tileInstr h i { cls := 7, fn := fn, s := [d, a, b] } (fun dev k _ =>
    let sa := k.sreg a
    let x := gaAddr sa.toNat
    let acc : GAcc := ⟨0, k.pc, 7, fn, sa, n, true, false, d, [], true, !dev.isLocal sa.toNat || inHold x⟩
    if gaWrong dev h sa n then .fault dev 3 sa
    else if maxLoads ≤ k.loads.length then .stall dev
    else if dev.isLocal sa.toNat then
      match dev.gAtomic h x n (k.sreg b) with
      | (d1, some old) => .done (d1.pushAcc h false { acc with data := toBytes n old })
      | (d1, none) => .done (d1.pushAcc h false { acc with ok := false })
    else match dev.remoteVia 0 (h.slot.val / 24) (gaDev sa.toNat) 1 x (.gadd n (k.sreg b)) with
      | (d1, true) => .done (d1.pushAcc h false acc)
      | (d1, false) => .done (d1.pushAcc h false { acc with ok := false }))

/-- LDG_32 (R142). -/
def execLdg32 (h : Iss) (d a : R5) : State → Host.Outcome State Fault Refusal := globalLoad h (.ldg32 h d a) 0 4 false d a
/-- LDG_64 (R142). -/
def execLdg64 (h : Iss) (d a : R5) : State → Host.Outcome State Fault Refusal := globalLoad h (.ldg64 h d a) 1 8 false d a
/-- STG_32 (R142). -/
def execStg32 (h : Iss) (a b : R5) : State → Host.Outcome State Fault Refusal :=
  globalStore h (.stg32 h a b) 2 4 a [a, b] [] (fun k => toBytes 4 (k.sreg b).toNat)
/-- STG_64 (R142). -/
def execStg64 (h : Iss) (a b : R5) : State → Host.Outcome State Fault Refusal :=
  globalStore h (.stg64 h a b) 3 8 a [a, b] [] (fun k => toBytes 8 (k.sreg b).toNat)
/-- GADD_32 (R142). -/
def execGadd32 (h : Iss) (d a b : R5) : State → Host.Outcome State Fault Refusal := globalAtomic h (.gadd32 h d a b) 4 4 d a b
/-- GADD_64 (R142). -/
def execGadd64 (h : Iss) (d a b : R5) : State → Host.Outcome State Fault Refusal := globalAtomic h (.gadd64 h d a b) 5 8 d a b
/-- VLDG (R142). -/
def execVldg (h : Iss) (d a : R5) : State → Host.Outcome State Fault Refusal := globalLoad h (.vldg h d a) 6 256 true d a
/-- VSTG (R142). -/
def execVstg (h : Iss) (d a : R5) : State → Host.Outcome State Fault Refusal :=
  globalStore h (.vstg h d a) 7 256 a [a] [d] (fun k => toBytes 256 (k.vreg d).toNat)

/-! ## Completions -/

/-- An error of the hold's packages that the completion brings (R210). -/
def Dev.accBad (d : Dev) (g : GAcc) (r : Remote) : Bool :=
  d.isLocal g.addr.toNat && decide (r = Remote.err) && inHold (gaAddr g.addr.toNat)

/-- The bytes of a load or atomic; none: an access error. -/
def Dev.accBytes (d : Dev) (g : GAcc) (r : Remote) : Option (List Byte) :=
  if d.isLocal g.addr.toNat then (if g.ok && !d.accBad g r then some g.data else none)
  else if g.ok then remoteBytes r g.n else none

def Core.putAcc (k : Core) (g : GAcc) (bs : List Byte) : Core :=
  if g.vec then k.setV g.d (BitVec.ofNat 2048 (ofBytes bs)) else k.setS g.d (w64 (ofBytes bs))

/-- GLOBAL_LOAD_RESPONSE: the k-th outstanding load or atomic of the core returns; an access error is its
fault, at which a load's core stands at the load itself (R131, R157). -/
def execGlobalLoadResponse (slot : Slot) (core : Fin 4) (k : Nat) (r : Remote) : State → Host.Outcome State Fault Refusal :=
  onCore slot core (fun d =>
    match (d.core slot core).loads[k]? with
    | none => d
    | some g =>
      let d := d.modCore slot core (fun c => { c with loads := c.loads.eraseIdx k })
      match d.accBytes g r with
      | some bs =>
        let d := if !d.isLocal g.addr.toNat && staleMark r then d.markStale (.tile slot) else d
        (d.modCore slot core (fun c => c.putAcc g bs)).settle slot
      | none =>
        let d := if d.accBad g r then d.holdUe (gaAddr g.addr.toNat) 1 else d
        let d := if g.atomic then d else d.modCore slot core (fun c => { c with pc := g.pc })
        d.progFault slot core g.cls g.fn g.pc 3 g.addr)

/-- POSTED_WRITE_ACK: the k-th posted store of the core is acknowledged (R131, R157). -/
def execPostedWriteAck (slot : Slot) (core : Fin 4) (k : Nat) (r : Remote) : State → Host.Outcome State Fault Refusal :=
  onCore slot core (fun d =>
    match (d.core slot core).stores[k]? with
    | none => d
    | some g =>
      let d := d.modCore slot core (fun c => { c with stores := c.stores.eraseIdx k })
      let bad := d.accBad g r
      if g.ok && !bad && (d.isLocal g.addr.toNat || decide (r ≠ Remote.err)) then d.settle slot
      else
        let d := if bad then d.holdUe (gaAddr g.addr.toNat) 1 else d
        d.progFault slot core g.cls g.fn g.pc 3 g.addr)

end Sys2Proof.Machine
end

