-- ==== Sys2Proof/Machine/Forme.lean ====
section
/-! DEFINITION. Sys2Proof/Machine/Forme.lean: the forme in the hold: its header and sections (R393), signature (R424), program
images (R159, R160), stash plans (R265). -/

namespace Sys2Proof.Machine
open Sys2Proof.Num

/-! ## Header and directory (R393) -/

/-- A section entry; `at_` is a hold address. -/
structure Sect where
  ty : Nat
  at_ : Nat
  bytes : Nat
deriving DecidableEq, Repr

def Sect.end_ (s : Sect) : Nat := s.at_ + s.bytes
def nsectOf (d : Dev) (fa : Nat) : Nat := d.nat (fa + 20) 4
def sectionsOf (d : Dev) (fa : Nat) : List Sect :=
  (List.range (nsectOf d fa)).map (fun i =>
    let a := fa + 128 + 16 * i
    ⟨d.nat a 2, fa + 64 * d.nat (a + 4) 4, d.nat (a + 8) 8⟩)
def sectOf (ss : List Sect) (ty : Nat) : Option Sect := ss.find? (fun s => s.ty == ty)
def sectBytes (d : Dev) (ss : List Sect) (ty : Nat) : List Byte :=
  match sectOf ss ty with | some s => d.bytes s.at_ s.bytes | none => []

def sectTypes : List Nat := [1, 2, 3, 4, 5, 6, 7, 8, 9, 0xA, 0xB, 0xF]
def overlap (a1 e1 a2 e2 : Nat) : Bool := decide (a1 < e2) && decide (a2 < e1) && decide (a1 < e1) && decide (a2 < e2)
/-- No two elements of the list are in the relation. -/
def noPair {α : Type} (r : α → α → Bool) : List α → Bool
  | [] => true
  | x :: xs => xs.all (fun y => !r x y) && noPair r xs

/-- The last five refusals of R393. -/
def sectionsOk (fa total : Nat) (ss : List Sect) : Bool :=
  ss.all (fun s => sectTypes.contains s.ty && decide (s.end_ ≤ fa + total)
    && !overlap s.at_ s.end_ fa (fa + 128 + 16 * ss.length))
    && noPair (fun a b => a.ty == b.ty || overlap a.at_ a.end_ b.at_ b.end_) ss

def formeMagic : Nat := 0x4D524F46
def maxForme : Nat := 16 * 2 ^ 30

/-! ## Stash plans (R265) -/

def stashOk (d : Dev) (s : Sect) : Bool :=
  let n := d.nat s.at_ 4
  let keep := fun b => d.nat (s.at_ + 8 + 16 * b) 8
  let fall := fun b => d.nat (s.at_ + 16 + 16 * b) 8
  let order := (List.range n).map (fun i => d.nat (s.at_ + 8 + 16 * n + 4 * i) 4)
  decide (8 ≤ s.bytes) && decide (1 ≤ n) && decide (n ≤ 65536) && d.nat (s.at_ + 4) 4 == 0 && s.bytes == 8 + 20 * n
    && (List.range n).all (fun b => decide (fall b ≤ keep b)) && order.all (fun b => decide (b < n)) && noPair (· == ·) order

/-- The blocks that go to their fallback plans so that the need fits; none: it does not (R266). -/
def stashChoice (d : Dev) (s : Sect) (room : Nat) : Option (List Nat) :=
  let n := d.nat s.at_ 4
  let keep := fun b => d.nat (s.at_ + 8 + 16 * b) 8
  let fall := fun b => d.nat (s.at_ + 16 + 16 * b) 8
  let order := (List.range n).map (fun i => d.nat (s.at_ + 8 + 16 * n + 4 * i) 4)
  let all := (List.range n).foldl (fun acc b => acc + keep b) 0
  let r := order.foldl (fun (acc : Nat × List Nat) b => if acc.1 ≤ room then acc else (acc.1 - (keep b - fall b), acc.2 ++ [b])) (all, [])
  if r.1 ≤ room then some r.2 else none

/-! ## Steps 1 to 3 of R394: the detail of the first refusal -/

/-- Step 1. `ok`: the DIGEST matches. -/
def formeLayout (d : Dev) (fa total : Nat) (ok : Bool) : Option Nat :=
  if holdTop < fa + total ∨ total < 128 ∨ (d.eccFirst fa total).isSome ∨ d.nat fa 4 ≠ formeMagic ∨ d.nat (fa + 4) 2 ≠ 1 ∨ !ok
      ∨ nsectOf d fa = 0 ∨ 64 < nsectOf d fa then some 3
  else if d.nat (fa + 32) 4 = 0 ∨ d.nat (fa + 32) 4 = 0xFFFFFFFF then some 0xF
  else if !sectionsOk fa total (sectionsOf d fa) ∨ d.nat (fa + 24) 8 ≠ total ∨ maxForme < total
      ∨ (sectOf (sectionsOf d fa) 0xB).any (fun s => !stashOk d s) then some 3
  else none

/-- Step 2. -/
def formeLevels (d : Dev) (fa : Nat) : Option Nat :=
  if d.fld Reg.hstCaps F.hstCapsFeature < d.nat (fa + 6) 1 ∨ d.fld Reg.hstCaps F.hstCapsTileFeature < d.nat (fa + 7) 1 then some 2
  else if d.nat (fa + 18) 1 ≠ d.fld Reg.devNumerics F.devNumericsNumGen then some 0xE
  else if d.nat (fa + 16) 2 ≠ d.fld Reg.devMap F.devMapMapGen then some 1
  else none

/-- The first 8 bytes of a SHA-512, as the device stores digests (log entry 10). -/
def digestBytes (h : BitVec 512) (n : Nat) : List Byte := (List.range n).map (fun i => h.extractLsb' (504 - 8 * i) 8)

/-- Step 3 (R424). `ok`: the signature verifies. -/
def formeSigned (d : Dev) (fa : Nat) (ok : Bool) : Option Nat :=
  match sectOf (sectionsOf d fa) 0xF, d.bos.man.owner with
  | none, _ => if d.bos.man.requireSigned then some 8 else none
  | some s, some key =>
    if s.bytes = 528 ∧ d.bytes s.at_ 8 = digestBytes (Config.sha512 key) 8 ∧ ok then none else some 8
  | some _, none => some 8

/-! ## Program images (R159, R160) -/

/-- Header addresses of the images, end to end; none: they do not fill the section. -/
def imagesAt (d : Dev) (a e : Nat) : Nat → Option (List Nat)
  | 0 => if a = e then some [] else none
  | n + 1 =>
    if a = e then some []
    else if e < a + 64 then none
    else if e < a + 64 + d.nat (a + 8) 4 then none
    else (imagesAt d (a + 64 + d.nat (a + 8) 4) e n).map (fun l => a :: l)

def imageOf (d : Dev) (a : Nat) : Image :=
  let w := fun o n => d.nat (a + o) n
  ⟨true, a + 64, w 8 4, w 12 4, (List.range 4).map (fun i => w (16 + 4 * i) 4), (List.range 4).map (fun i => w (32 + 4 * i) 4),
    w 48 2, w 50 1, w 52 4, w 56 4⟩

/-- Set bits of a mask. -/
def popcount (n w : Nat) : Nat := ((List.range w).filter (fun i => n.testBit i)).length

/-- Does a table of `n` rows of `size` bytes lie in the store image, outside the code? -/
def tableFits (im : Image) (mask rows size at_ : Nat) : Bool :=
  mask == 0 || (decide (im.codeEnd ≤ at_) && decide (at_ + size * popcount mask rows ≤ im.loadBytes))

def entryFits (im : Image) (e : Nat) : Bool := e == 0xFFFFFFFF || (decide (e % 4 = 0) && decide (e < im.codeEnd))

def imageKind (d : Dev) (a : Nat) : Nat := d.nat (a + 4) 1

/-- A point that no table of R59 lists for use. -/
def reservedPoint (p : Nat) : Bool := p == 0 || (decide (0x300 ≤ p) && decide (p < 0x8000))

/-- Are the format codes and the point that an instruction names among those of R46 and R59? -/
def codesInUse (i : Instr) : Bool :=
  match i with
  | .mload _ f | .mopen _ f | .mstream _ f | .mpair _ f | .mclose _ f | .mdrop _ f | .mepl _ f | .mwait _ f => decide (f.fmt.val ≤ 8)
  | .vcvt _ _ _ hi => decide (bitsAt hi.toNat 0 4 ≤ 8) && decide (bitsAt hi.toNat 4 4 ≤ 8)
  | .qrow _ _ _ hi | .qmerge _ _ _ hi => decide (bitsAt hi.toNat 16 4 ≤ 8)
  | .vquoin _ _ _ hi => !reservedPoint (bitsAt hi.toNat 0 16)
  | _ => true

/-- Code words read one after another from address 0. A word that spells nothing is passed over: it faults when it issues
(log entry 123). -/
def codeSweep (slot : Slot) : List Word → Bool
  | [] => true
  | [w] => (decodeInsn slot 0 w 0).all codesInUse
  | w :: v :: rest =>
    match decodeInsn slot 0 w v with
    | some i => codesInUse i && (if wLong w then codeSweep slot rest else codeSweep slot (v :: rest))
    | none => codeSweep slot (v :: rest)

/-- The rules of R160 that concern one image, and those of R46 and R59 on its code. -/
def imageOk (d : Dev) (a : Nat) : Bool :=
  let im := imageOf d a
  let kind := imageKind d a
  let slot := d.slotOf (d.nat (a + 2) 2)
  d.nat a 2 == 1 && decide (d.nat (a + 2) 2 ≤ 1471) && decide (kind ≤ 2) && d.nat (a + 6) 2 == 0 && d.nat (a + 51) 1 == 0
    && decide (im.loadBytes % 64 = 0) && decide (im.loadBytes ≤ storeBytes) && decide (im.codeEnd % 64 = 0) && decide (im.codeEnd ≤ im.loadBytes)
    && (kind == 0 || im.epMask == 0)
    && (match slot with
        | some p => (kind == 0 && slotIsMt p) || (kind == 1 && slotIsVt p) || (kind == 2 && slotIsCt p)
        | none => false)
    && decide (d.nat (a + 5) 1 ≤ d.fld Reg.hstCaps F.hstCapsTileFeature)
    && (im.start ++ im.replay).all (entryFits im) && im.start.getD 0 0 != 0xFFFFFFFF
    && (kind == 2 || ((im.start.drop 1) ++ (im.replay.drop 1)).all (· == 0xFFFFFFFF))
    && tableFits im im.galMask 16 16 im.galInit && tableFits im im.epMask 8 32 im.epInit
    && (match slot with
        | some p => codeSweep (Fin.ofNat 1536 p) ((List.range (im.codeEnd / 4)).map (fun i => w32 (d.nat (a + 64 + 4 * i) 4)))
        | none => true)
    && d.nat (a + 60) 4 == (crc32 (d.bytes a 60 ++ d.bytes (a + 64) im.loadBytes)).toNat

/-- Every image, or none when a rule of R160 is broken. -/
def formeImages (d : Dev) (ss : List Sect) : Option (List Nat) :=
  match sectOf ss 1 with
  | none => some []
  | some s =>
    match imagesAt d s.at_ s.end_ 1473 with
    | none => none
    | some as =>
      if as.all (imageOk d) && noPair (fun a b => d.nat (a + 2) 2 == d.nat (b + 2) 2) as then some as else none

/-- Images into their slots; every other store is zero and its cores halted (R159, R160). -/
def Dev.putImages (d : Dev) (as : List Nat) : Dev :=
  let d := { d with tiles := [] }.dropMem (fun a => inStore a)
  as.foldl (fun d a =>
    match d.slotOf (d.nat (a + 2) 2) with
    | some p => (d.modTile p (fun t => { t with image := imageOf d a })).restoreTile p noStep false
    | none => d) d

/-- Do the galley descriptors of the images pass the checks of R181? -/
def Dev.galleysOk (d : Dev) : Bool :=
  d.tiles.all (fun e =>
    let im := e.2.image
    (tableRows im.galMask im.galInit 16 16).all (fun g =>
      match galleyOf (d.bytes (tileBase e.1 + g.2) 16) with
      | some x => d.galleyValid e.1 g.1 x
      | none => false))

end Sys2Proof.Machine
end

