-- ==== Sys2Proof/Machine/Imposed.lean ====
section
/-! DEFINITION. Sys2Proof/Machine/Imposed.lean: the imposition, route sets and node entries of a forme: what the loader checks
(R227 to R229, R235, R240, R243, R260, R364) and where it puts them. -/

namespace Sys2Proof.Machine

/-- Per logical tile its headers and entries; per set, router and destination an output; per node its entries. -/
structure Imp where
  tiles : List (Nat × List (BitVec 128) × List (BitVec 256))
  routes : List ((Nat × Nat × Nat) × Nat)
  nodes : List (Nat × List (BitVec 128))

def impOf (d : Dev) (ss : List Sect) : Imp :=
  ⟨match sectOf ss 2 with | some s => Config.impositionOf (d.bytes s.at_ s.bytes) | none => [],
   match sectOf ss 3 with | some s => Config.routesOf (d.bytes s.at_ s.bytes) | none => [],
   match sectOf ss 4 with | some s => Config.nodesOf (d.bytes s.at_ s.bytes) | none => []⟩

/-! ## Headers and entries (R227, R228) -/

def Imp.sets (m : Imp) : List Nat := (m.routes.map (fun e => e.1.1)).eraseDups

def headerOk (m : Imp) (n : Nat) (h : BitVec 128) : Bool :=
  bitsAt h.toNat 29 3 == 0 && bitsAt h.toNat 51 13 == 0 && h.toNat / 2 ^ 64 == 0 && (phLimit h == 0 || decide (8 ≤ phLimit h))
    && decide (1 ≤ phCount h) && decide (phCount h ≤ 512) && decide (phFirst h + phCount h ≤ n) && (phRset h == 0 || m.sets.contains (phRset h))

def isRed (e : BitVec 256) : Bool := xeOp e == opRsend || xeOp e == opRrecv
def hasPeer (e : BitVec 256) : Bool := xeOp e == opSend || xeOp e == opRecv || xeOp e == opRsend
def xeSr (e : BitVec 256) : Bool := isRed e && xeRop e == 0 && xeRnd e == 1
/-- Does the entry write to an address? -/
def toAddr (e : BitVec 256) : Bool := xeOp e == opRwrite || (xeOp e == opRrecv && xeDstMem e)

/-- Fields within their ranges, unused ones 0 (R228). -/
def entryOk (d : Dev) (e : BitVec 256) : Bool :=
  let op := xeOp e
  let crosses := (xeRemote e && (op == opSend || op == opRsend)) || (toAddr e && !d.isLocal (xeAddr e))
  decide (1 ≤ op) && decide (op ≤ 5) && (xeUsesGal e || xeGal e == 0) && (!xeSrcMem e || op == opSend || op == opRsend || op == opRwrite)
    && (!xeDstMem e || op == opRrecv)
    && (if crosses then xeLane e == 1 || xeLane e == 2 else xeLane e == 0 || (op == opRecv && xeRemote e && decide (xeLane e ≤ 2)))
    && (if isRed e then decide (xeRop e ≤ 2) else xeRop e == 0)
    && (if isRed e && xeRop e == 0 then decide (xeRnd e ≤ 1) else xeRnd e == 0)
    && (if isRed e then decide (xeTag e < 1024) else op != opRwrite || xeTag e == 0)
    && (if hasPeer e then xeRemote e || xePeerDev e == 0 else xePeer e == 0 && xePeerDev e == 0 && !xeRemote e)
    && (if isRed e then xeRfmt e == 5 || xeRfmt e == 6 else xeRfmt e == 0)
    && xeF e 1 28 4 == 0 && xeF e 2 28 4 == 0 && xeF e 3 16 16 == 0 && xeF e 5 19 13 == 0
    && decide (1 ≤ xeUnits e) && decide (64 ≤ xeUnitBytes e) && (!isRed e || decide (xeUnitBytes e % 256 = 0))
    && (xeSr e || (xeTensor e == 0 && xeIndex e == 0))
    && (if xeSrcMem e then decide (xeLaddr e % 64 = 0) else xeLaddr e == 0)
    && (toAddr e || (op == opRsend && xeSr e) || xeAddr e == 0)

/-- All entries with their tiles. -/
def Imp.ents (m : Imp) : List (Nat × BitVec 256) := m.tiles.flatMap (fun t => t.2.2.map (fun e => (t.1, e)))

/-- In the published map, and not about to be furled. -/
def Dev.named (d : Dev) (t : Nat) : Bool :=
  match d.slotOf t with | some p => !d.pendingFurl p | none => false

/-- What the entry writes to: no unit of it lies in the case memory of a furled yard, or in the store of a spare, furled or
furl-pending slot (R229, R260). -/
def Dev.addrHere (d : Dev) (e : BitVec 256) : Bool :=
  let a := gaAddr (xeAddr e)
  let z := a + xeUnits e * xeUnitBytes e - 1
  !(toAddr e && d.isLocal (xeAddr e))
    || (allYards.all (fun y => !d.yardFurled y || !overlap a (z + 1) (caseBase y) (caseBase y + 0x4000000))
      && (!inStore a || (List.range ((z - storeLo) / 0x80000 + 1 - (a - storeLo) / 0x80000)).all (fun i =>
        let p := (a - storeLo) / 0x80000 + i
        d.inService p && !d.pendingFurl p)))

/-- The entry's galley, where the image initialises it: its party on that side is the exchange engine, its slots hold one unit
(R228). A galley that the program itself initialises is checked as the entry meets it. -/
def Dev.galleyFits (d : Dev) (t : Nat) (e : BitVec 256) : Bool :=
  match d.slotOf t with
  | none => false
  | some p =>
    let g := d.galley p (xeGal e)
    let consumer := xeOp e == opSend || xeOp e == opRsend || xeOp e == opRwrite
    !xeUsesGal e || !g.init || ((if consumer then g.cons else g.prod) == partyExchange && g.slotBytes == xeUnitBytes e)

/-! ## Pairing and reductions (R229, R243) -/

def paired (m : Imp) (t : Nat) (e : BitVec 256) (other : Nat) : Bool :=
  ((m.ents.filter (fun x => x.1 == xePeer e && xeOp x.2 == other && xeTag x.2 == xeTag e && !xeRemote x.2 && xeUnits x.2 == xeUnits e
    && xeUnitBytes x.2 == xeUnitBytes e && xePeer x.2 == t)).length == 1)

/-- What every RSEND of a reduction agrees on. -/
def redShape (e : BitVec 256) : List Nat :=
  [xeUnits e, xeUnitBytes e, xeRfmt e, xeRop e, xeRnd e, xeTensor e, xeIndex e, xeRowLen e, xeCols e, xeUrows e, xePeer e, xePeerDev e,
   b2n (xeRemote e)]

def Imp.rsends (m : Imp) : List (Nat × BitVec 256) := m.ents.filter (fun x => xeOp x.2 == opRsend)
def Imp.rrecvs (m : Imp) : List (Nat × BitVec 256) := m.ents.filter (fun x => xeOp x.2 == opRrecv)

def Imp.pairsOk (m : Imp) : Bool :=
  m.ents.all (fun x =>
    if xeRemote x.2 then true
    else if xeOp x.2 = opSend then paired m x.1 x.2 opRecv
    else if xeOp x.2 = opRecv then paired m x.1 x.2 opSend
    else if xeOp x.2 = opRsend then m.rrecvs.any (fun y => xeTag y.2 == xeTag x.2 && y.1 == xePeer x.2)
    else true)
    && m.rsends.all (fun x => !xeRemote x.2 || m.rrecvs.all (fun y => xeTag y.2 != xeTag x.2))
    && noPair (fun a b => xeTag a.2 == xeTag b.2) m.rrecvs
    && m.rsends.all (fun a => m.rsends.all (fun b => xeTag a.2 != xeTag b.2 || redShape a.2 == redShape b.2))

/-- Does an addition of the reduction round otherwise than by SR? The RSENDs' chunks carry the mode; the RRECV states it too. -/
def Imp.roundsOther (m : Imp) (r : BitVec 256) : Bool :=
  (xeRop r == 0 && xeRnd r == 0) || m.rsends.any (fun x => xeTag x.2 == xeTag r && xeRop x.2 == 0 && xeRnd x.2 == 0)

/-- An ADD into a gradient shard rounds by SR (R56, R243); `shards`: the ranges of the shards. -/
def Imp.shardsSr (m : Imp) (d : Dev) (shards : List (Nat × Nat)) : Bool :=
  m.rrecvs.all (fun x =>
    let a := gaAddr (xeAddr x.2)
    !(xeDstMem x.2 && m.roundsOther x.2 && d.isLocal (xeAddr x.2)
      && shards.any (fun r => overlap a (a + xeUnits x.2 * xeUnitBytes x.2) r.1 r.2)))

/-! ## Route sets (R235) -/

def outOf (d : Dev) (set y dest : Nat) : Nat := Sparse.get (fun _ => 31) d.routes (routeKey set y dest)
def isDir (o : Nat) : Bool := decide (dirN ≤ o) && decide (o ≤ dirW)

/-- Routers on the way, the last one the destination's; none: the route ends elsewhere. -/
def walkRoute (d : Dev) (set dest : Nat) : Nat → Nat → Option (List Nat)
  | 0, _ => none
  | n + 1, y =>
    let o := outOf d set y dest
    if isDir o then
      match neighbour y o with
      | some y2 => (walkRoute d set dest n y2).map (fun l => y :: l)
      | none => none
    else if destYard dest = y ∧ (if dest < 64 then o < 24 else o = dirOut) then some [y] else none

def Dev.routeSound (d : Dev) (set : Nat) : Bool :=
  allYards.all (fun y => (List.range 85).all (fun dest =>
    match walkRoute d set dest 64 y with
    | none => false
    | some l => d.bos.man.dead.contains y || d.bos.man.dead.contains (destYard dest) || l.all (fun x => !d.bos.man.dead.contains x)))

/-- Does the link out of `a` depend on the link out of `b` for some destination? -/
def depends (d : Dev) (set : Nat) (a b : Nat × Nat) : Bool :=
  neighbour a.1 a.2 == some b.1 && (List.range 85).any (fun dest => outOf d set a.1 dest == a.2 && outOf d set b.1 dest == b.2)
def allLinks : List (Nat × Nat) := allYards.flatMap (fun y => [dirN, dirE, dirS, dirW].map (fun o => (y, o)))
/-- Links that a cycle or a way into one goes through are left after every round. -/
def acyclic (d : Dev) (set : Nat) : Bool :=
  ((List.range 256).foldl (fun ls _ => ls.filter (fun a => ls.any (fun b => depends d set a b))) allLinks).isEmpty

/-! ## Nodes (R240, R243, R364) -/

def routerNodeOk (e : BitVec 128) : Bool :=
  neF e 0 28 4 == 0 && neF e 1 25 7 == 0 && neF e 2 28 4 == 0 && neF e 3 0 32 == 0 && decide (1 ≤ neF e 0 25 3)
    && (neInputs e).all (fun i => decide (i ≤ dirOut)) && noPair (· == ·) (neInputs e) && decide (neOut e ≤ dirOut) && decide (1 ≤ neF e 2 20 8)
def portNodeOk (e : BitVec 128) : Bool :=
  neF e 0 28 4 == 0 && neF e 1 25 7 == 0 && neF e 2 28 4 == 0 && neF e 3 0 32 == 0 && neF e 0 25 3 == 1
    && (neInputs e == [0, 1] || neInputs e == [1, 0]) && neF e 1 10 10 == 0 && neF e 2 0 20 == 0 && decide (neOut e ≤ 1) && decide (1 ≤ neF e 2 20 8)

def nodeOk (x : Nat × List (BitVec 128)) : Bool :=
  if x.1 < 64 then decide (x.2.length ≤ 1024) && x.2.all routerNodeOk
  else decide (x.1 < 80) && decide (x.2.length ≤ 256) && x.2.all portNodeOk

/-- Headers with a phase number, and the entries of each. -/
def Imp.phaseEnts (m : Imp) (n : Nat) : List (BitVec 256) :=
  m.tiles.flatMap (fun t => (t.2.1.filter (fun h => phNum h == n)).flatMap (fun h => (t.2.2.drop (phFirst h)).take (phCount h)))
def Imp.phaseNums (m : Imp) : List Nat := ((m.tiles.flatMap (fun t => t.2.1.map phNum))).eraseDups

/-- The buffers that the reductions of one phase take at a node. -/
def Imp.bufsOk (m : Imp) : Bool :=
  m.phaseNums.all (fun n =>
    let rids := ((m.phaseEnts n).filter isRed).map xeTag
    m.nodes.all (fun x => decide (((x.2.filter (fun e => rids.contains (neRid e))).map (fun e => neF e 2 20 8)).foldl (· + ·) 0 ≤ 256)))

/-- No two nodes of the step draw with the same tensor and ordinal. -/
def Imp.drawsOk (m : Imp) : Bool :=
  let sr := ((m.rsends.filter (fun x => xeSr x.2)).map (fun x => (xeTag x.2, xeTensor x.2))).eraseDups
  let draws := m.nodes.flatMap (fun x => x.2.flatMap (fun e => (sr.filter (fun s => s.1 == neRid e)).map (fun s => (s.2, neOrd e))))
  noPair (· == ·) draws

/-- A place on a chunk's way: node, entry and input, and what fed it. -/
abbrev Hop := (Nat × Nat × Nat) × (Nat × Nat)

/-- The way of a chunk of reduction `rid` from a router's input to a tile or out on a link: the node inputs it feeds and, as node 100,
the slot it is delivered to, or, as node 101, the port it leaves by. -/
def traceChunk (d : Dev) (rset dest tile rid : Nat) : Nat → Nat → Nat → (Nat × Nat) → Option (List Hop)
  | 0, _, _, _ => none
  | n + 1, y, input, fed =>
    let entryAt := fun (node input : Nat) =>
      (List.range (d.nodesOf node).length).find? (fun i =>
        neRid ((d.nodesOf node).getD i 0) == rid && (neInputs ((d.nodesOf node).getD i 0)).contains input)
    let here := entryAt y input
    let hop : List Hop := match here with | some i => [((y, i, input), fed)] | none => []
    let fed := match here with | some i => (y, i) | none => fed
    let out := match here with
      | some i => some (neOut ((d.nodesOf y).getD i 0))
      | none =>
        match d.routeOf rset y dest with
        | some o => some o
        | none => if destYard dest ≠ y then none else if 68 ≤ dest then some dirOut else (d.slotOf tile).map (· % 24)
    match out with
    | none => none
    | some o =>
      if o < 24 then some (hop ++ [((100, 24 * y + o, 0), fed)])
      else if o = dirOut then
        let q := if 68 ≤ dest then dest - 68 else (portsAt y).headD 0
        match entryAt (64 + q) 1 with
        | none => some (hop ++ [((101, q, 0), fed)])
        | some i =>
          if neOut ((d.nodesOf (64 + q)).getD i 0) = 1 then some (hop ++ [((64 + q, i, 1), fed), ((101, q, 0), (64 + q, i))])
          else (traceChunk d rset dest tile rid n y dirOut (64 + q, i)).map (fun l => hop ++ ((64 + q, i, 1), fed) :: l)
      else match neighbour y o with
        | some y2 => (traceChunk d rset dest tile rid n y2 (opposite o) fed).map (fun l => hop ++ l)
        | none => none

/-- Route sets of the phases that hold an RSEND entry of a tile. -/
def rsendSets (phs : List (BitVec 128)) (es : List (BitVec 256)) (rid : Nat) : List Nat :=
  ((phs.filter (fun h => ((es.drop (phFirst h)).take (phCount h)).any (fun e => xeOp e == opRsend && xeTag e == rid))).map phRset).eraseDups

/-- The node entries of reduction `rid` here form one tree, which delivers at `end_`: the slot of its RRECV, or the port toward the
device that has it; `dest` and `tile` as its chunks carry them (R229). Inputs that links feed are fed by other devices' leaves. -/
def Imp.treeOk (m : Imp) (d : Dev) (rid dest tile : Nat) (end_ : Nat × Nat) : Bool :=
  let ways := m.tiles.flatMap (fun t => (rsendSets t.2.1 t.2.2 rid).map (fun rset =>
    match d.slotOf t.1 with
    | some s => traceChunk d rset dest tile rid 4096 (s / 24) (s % 24) (200 + s, 0)
    | none => none))
  let hops := (ways.filterMap id).flatten
  let far := ((List.range 16).filterMap (fun n => traceChunk d 0 dest tile rid 4096 (portYards.getD n 0) dirOut (64 + n, 1000))).flatten
  let ends := hops.filter (fun h => 100 ≤ h.1.1)
  let fedBy := fun (y i k : Nat) => ((hops ++ far).filter (fun h => h.1 == (y, i, k))).map (·.2)
  ways.all Option.isSome && ends.all (fun h => (h.1.1, h.1.2.1) == end_) && hops.all (fun a => hops.all (fun b => a.1 != b.1 || a.2 == b.2))
    && m.nodes.all (fun x => (List.range x.2.length).all (fun i =>
      let e := x.2.getD i 0
      neRid e != rid || (neInputs e).all (fun k => (if x.1 < 64 then k == dirOut else k == 0) || fedBy x.1 i k != [])))

/-- Every reduction of the imposition: at the RRECV's slot, or leaving toward the device of its RRECV. -/
def Imp.treesOk (m : Imp) (d : Dev) : Bool :=
  m.rrecvs.all (fun r => match d.slotOf r.1 with
    | some p => m.treeOk d (xeTag r.2) (p / 24) r.1 (100, p)
    | none => false)
  && (m.rsends.filter (fun x => xeRemote x.2)).all (fun x => match d.portOf (xePeerDev x.2) with
    | some n => m.treeOk d (xeTag x.2) (68 + n) (xePeer x.2) (101, n)
    | none => false)

/-! ## All of it -/

def Dev.putImp (d : Dev) (m : Imp) : Dev :=
  let d := { d with routes := m.routes.foldl (fun r e => Sparse.set (fun _ => 31) r (routeKey e.1.1 e.1.2.1 e.1.2.2) e.2) [],
                    nodes := m.nodes.foldl (fun r e => Sparse.set (fun _ => []) r e.1 e.2) [] }
  m.tiles.foldl (fun d t =>
    match d.slotOf t.1 with
    | some p => d.modTile p (fun x => { x with phases := t.2.1, entries := t.2.2 })
    | none => d) d

/-- Every check, on a device that holds it. -/
def Imp.ok (m : Imp) (d : Dev) (shards : List (Nat × Nat)) : Bool :=
  m.tiles.all (fun t => d.named t.1 && decide (t.2.1.length ≤ 256) && decide (t.2.2.length ≤ 512) && t.2.1.all (headerOk m t.2.2.length)
    && t.2.2.all (fun e => entryOk d e && d.addrHere e && d.galleyFits t.1 e && (!hasPeer e || xeRemote e || d.named (xePeer e))))
    && noPair (fun a b => a.1 == b.1) m.tiles && m.pairsOk && m.shardsSr d shards
    && m.routes.all (fun e => decide (1 ≤ e.1.1) && decide (e.1.1 ≤ 15)) && m.sets.all (fun s => d.routeSound s && acyclic d s)
    && m.nodes.all nodeOk && m.bufsOk && m.drawsOk && m.treesOk d

end Sys2Proof.Machine
end

