-- ==== Sys2Proof/Machine/Tables.lean ====
section
/-! DEFINITION. Sys2Proof/Machine/Tables.lean: layer, rule and scale tables of a forme: their fields and what the loader checks
(R46, R59, R60, R66, R72, R292, R295, R298 to R301, R312, R322), and the entries a proof brings (R71). -/

namespace Sys2Proof.Machine

/-! ## Layer descriptors (R295) -/

def layerOf (b : List Byte) : Layer :=
  let w := fun i => natAt b (4 * i) 4
  let h := fun o => natAt b o 2
  { id := bitsAt (w 0) 0 12, rule := bitsAt (w 0) 12 4, frozen := (w 0).testBit 16, fmt := bitsAt (w 0) 17 4, wcFmt := bitsAt (w 0) 21 4,
    axis := (w 0).testBit 25, rows := w 1, rowLen := w 2, chFirst := w 3, chCount := w 4, stride := w 5,
    shardsM1 := bitsAt (w 6) 0 12, shardPos := bitsAt (w 6) 12 12, relExpect := bitsAt (w 7) 0 16, readyExpect := bitsAt (w 7) 16 4,
    inExpect := bitsAt (w 7) 20 4, tiedN := bitsAt (w 7) 24 3, tW := h 32, tM1 := h 34, tM2 := h 36, tV := h 38,
    tied := (List.range 4).map (fun i => h (40 + 2 * i)), wOff := w 12, m1Off := w 13, m2Off := w 14, vOff := w 15,
    gAddr := w 16, wcAddr := w 17, qpeAddr := w 18, absBound := w32 (w 19), trMax := w32 (w 20), avgDecay := w32 (w 21),
    lk0 := w32 (w 22), lk1 := w32 (w 23) }

/-- The tied list in use, and the layer's own tensors. -/
def Layer.tiedIds (l : Layer) : List Nat := l.tied.take l.tiedN
def Layer.ownIds (l : Layer) : List Nat :=
  [l.tW, l.tM1] ++ (if l.m2Off = absent then [] else [l.tM2]) ++ (if l.vOff = absent then [] else [l.tV])
/-- The points a layer's stores draw at, with their tensors. -/
def Layer.draws (l : Layer) : List (Nat × Nat) :=
  if l.frozen then [] else
    [(1, l.tW), (2, l.tM1)] ++ (if l.m2Off = absent then [] else [(3, l.tM2)]) ++ (if l.vOff = absent then [] else [(4, l.tV)])

/-- What concerns one descriptor; `i`: its place in the table. -/
def layerOk (i : Nat) (l : Layer) : Bool :=
  l.id == i && (l.fmt == 5 || l.fmt == 6) && (decide (l.wcFmt ≤ 4) || l.wcFmt == 0xF) && l.rows != 0 && l.rowLen != 0
    && decide (l.rows * l.rowLen ≤ 2 ^ 32) && decide (l.stride % 512 = 0) && decide (l.len ≤ l.stride) && decide (l.len ≤ 131072)
    && decide (l.chFirst * l.stride % 2048 = 0) && decide (l.chFirst + l.chCount ≤ l.channels) && decide (l.shardPos ≤ l.shardsM1)
    && decide (l.tiedN ≤ 4) && l.wOff != absent && l.m1Off != absent && (l.frozen || l.chCount == 0 || l.readyExpect != 0)

def layersOk (ls : List Layer) : Bool :=
  ls.zipIdx.all (fun e => layerOk e.2 e.1)
    && noPair (fun a b => a.tiedIds.any b.tiedIds.contains) ls
    && ls.all (fun l => noPair (· == ·) l.tiedIds && ls.all (fun o => !l.tiedIds.any o.ownIds.contains))
    && noPair (· == ·) (ls.flatMap Layer.draws)

/-! ## Rules (R297 to R301) -/

def ruleEntry (b : List Byte) : Rule :=
  let w := fun o => w32 (natAt b o 4)
  { lenA := natAt b 0 1, lenB := natAt b 1 1, trMode := natAt b 2 1, beta1 := w 4, beta2 := w 8,
    k := (List.range 8).map (fun i => w (16 + 4 * i)),
    progA := ((List.range 32).map (fun i => w (64 + 4 * i))).take (natAt b 0 1),
    progB := ((List.range 32).map (fun i => w (192 + 4 * i))).take (natAt b 1 1) }

/-- Operand codes in use. -/
def codeOk (c : Nat) : Bool := decide (c < 0x27)

/-- An instruction without reserved values, unused fields 0 (R298, R299). -/
def insnOk (w : Word) : Bool :=
  let op := riOp w
  let noB := riB w == 0 && !riNeg w
  let noC := riC w == 0
  bitsAt w.toNat 30 2 == 0 && codeOk (riA w) &&
  (if op = 1 ∨ op = 2 ∨ op = 6 ∨ op = 7 then decide (riD w < 16) && codeOk (riB w) && noC
   else if op = 3 ∨ op = 8 then decide (riD w < 16) && codeOk (riB w) && codeOk (riC w)
   else if op = 4 ∨ op = 5 ∨ op = 9 then decide (riD w < 16) && noB && noC
   else if op = 0x0A then
     decide (0x21 ≤ riD w) && decide (riD w ≤ 0x24) && decide (riA w < 16) && bitsAt w.toNat 25 4 == 0 && !riNeg w && riPoint w == riD w - 0x20
   else if 0x0B ≤ op ∧ op ≤ 0x0D then decide (riD w < 8) && noB && noC
   else false)

def isPst (w : Word) : Bool := riOp w == 0x0A
def pstTo (code : Nat) (w : Word) : Bool := isPst w && riD w == code
/-- Each accumulator holds sums or a maximum, not both (R300). -/
def accsOk (prog : List Word) : Bool :=
  (List.range 8).all (fun k =>
    let ws := prog.filter (fun w => decide (0x0B ≤ riOp w) && decide (riOp w ≤ 0x0D) && riD w == k)
    ws.all (fun w => riOp w == 0x0D) || ws.all (fun w => riOp w != 0x0D))
def writtenBySquares (prog : List Word) (k : Nat) : Bool :=
  let ws := prog.filter (fun w => decide (0x0B ≤ riOp w) && decide (riOp w ≤ 0x0D) && riD w == k)
  ws != [] && ws.all (fun w => riOp w == 0x0C)

/-- The rules of one entry's bytes. -/
def ruleBytesOk (b : List Byte) : Bool :=
  let r := ruleEntry b
  decide (1 ≤ r.lenA) && decide (r.lenA ≤ 32) && decide (1 ≤ r.lenB) && decide (r.lenB ≤ 32) && decide (r.trMode ≤ 1)
    && r.progA.all insnOk && r.progB.all insnOk
    && (List.range 32).all (fun i => (decide (i < r.lenA) || natAt b (64 + 4 * i) 4 == 0) && (decide (i < r.lenB) || natAt b (192 + 4 * i) 4 == 0))
    && !r.progA.any isPst && [0x21, 0x24, 0x18, 0x19].all (fun c => !progReads r.progA c) && accsOk r.progA && accsOk r.progB
    && (r.trMode != 1 || (writtenBySquares r.progA 1 && writtenBySquares r.progB 0))

/-- A rule against a layer that names it (R300). -/
def ruleFits (r : Rule) (l : Layer) : Bool :=
  let once := fun c => (r.progB.filter (pstTo c)).length == 1
  let never := fun c => !r.progB.any (pstTo c) && !progReads r.progA c && !progReads r.progB c
  once 0x21 && once 0x22 && (if l.m2Off = absent then never 0x23 else once 0x23) && (if l.vOff = absent then never 0x24 else once 0x24)

/-! ## Scale entries (R66, R72) -/

def scaleOk (b : List Byte) : Bool :=
  let w := natAt b 0 4
  decide (bitsAt w 16 2 ≤ 1) && decide (2 ≤ bitsAt w 18 4) && decide (bitsAt w 18 4 ≤ 4) && w.testBit 26

/-- COLD = 1, COLD_LEFT = 16, VALID cleared (R71). -/
def scaleCold (b : List Byte) : List Byte :=
  b.take 4 ++ toBytes 4 (putBits (putBits (natAt b 4 4) 12 1 1) 13 5 16) ++ toBytes 4 (putBits (natAt b 8 4) 0 16 0) ++ b.drop 12

/-- The history that the proof's entry carries, under the forme's word 0. -/
def scaleFrom (b old : List Byte) : List Byte :=
  b.take 4 ++ (old.drop 4).take 8 ++ (b.drop 12).take 4 ++ (old.drop 16).take 32 ++ b.drop 48

/-- Does the slot's proof carry scale entries in a layout that the device knows (R71, R343; log entry 113)? -/
def Dev.scalesKnown (d : Dev) (s : Nat) : Bool :=
  let l := d.nat (d.slotAt s) 2
  l == d.proofLevel || Config.scaleLayout l

/-- R71, R77: every entry of the scale table at job start. `live`: the slot of the proof, when there is one. -/
def Dev.startScales (d : Dev) (live : Option Nat) : Dev :=
  Dev.scaleDiscard <| (List.range d.job.scaleCount).foldl (fun d i =>
    let a := d.job.scaleAt + 64 * i
    let b := d.bytes a 64
    let id := natAt b 0 2
    let found := live.bind (fun s =>
      let h := d.slotAt s
      ((List.range (d.nat (h + 36) 4)).map (fun j => h + d.nat (h + 32) 4 * unit64k + 64 * j)).find? (fun x => d.nat x 2 == id))
    match found.filter (fun x => (d.eccFirst x 64).isNone && live.any (fun s => d.scalesKnown s)) with
    | some x => d.store a (scaleFrom b (d.bytes x 64))
    | none => (d.store a (scaleCold b)).logEv 0 5 0 0 [w32 id]) d

/-! ## The loader's work -/

/-- The tables of the forme, when no rule is broken but those that need the register settings. -/
structure Tables where
  layers : List Layer
  rules : List Rule
  scaleAt : Nat
  scales : Nat

def formeTables (d : Dev) (ss : List Sect) : Option Tables :=
  let lb := sectBytes d ss 5
  let rb := sectBytes d ss 6
  let sb := sectBytes d ss 7
  let ls := (List.range (lb.length / 128)).map (fun i => layerOf ((lb.drop (128 * i)).take 128))
  let rbs := (List.range (rb.length / 512)).map (fun i => (rb.drop (512 * i)).take 512)
  let rs := rbs.map ruleEntry
  let sbs := (List.range (sb.length / 64)).map (fun i => (sb.drop (64 * i)).take 64)
  if lb.length % 128 = 0 ∧ ls ≠ [] ∧ ls.length ≤ 4096 ∧ rb.length % 512 = 0 ∧ rs.length ≤ 16 ∧ sb.length % 64 = 0 ∧ layersOk ls ∧ rbs.all ruleBytesOk
      ∧ ls.all (fun l => match rs[l.rule]? with | some r => ruleFits r l | none => false)
      ∧ sbs.all scaleOk ∧ noPair (fun a b => natAt a 0 2 == natAt b 0 2) sbs then
    some ⟨ls, rs, match sectOf ss 7 with | some s => s.at_ | none => 0, sbs.length⟩
  else none

/-- R322: slot head, layer arrays, layer records and scale copy do not overlap. -/
def slotPlanOk (d : Dev) (t : Tables) : Bool :=
  let arrays := t.layers.flatMap (fun l => l.arrays.map (fun o => (o, o + l.arrayBytes)))
  let all := [(0, unit64k), (d.reg Reg.pressRecOff * unit64k, d.recAt 0 t.layers.length 0),
    (d.reg Reg.pressScaleOff * unit64k, d.scaleSlotAt 0 t.scales)] ++ arrays
  noPair (fun a b => overlap a.1 a.2 b.1 b.2) all

/-- Layer and rule tables into the hold (R295, R301). -/
def Dev.putTables (d : Dev) (ss : List Sect) (t : Tables) : Dev :=
  let lt := d.reg64 Reg.pressLtBaseLo Reg.pressLtBaseHi
  let rt := d.reg64 Reg.pressRuleBaseLo Reg.pressRuleBaseHi
  let lb := sectBytes d ss 5
  let d := d.store rt (sectBytes d ss 6)
  (List.range t.layers.length).foldl (fun d i =>
    let r := (lb.drop (128 * i)).take 128
    d.store (lt + 1024 * i) (List.replicate 4 (r ++ List.replicate 128 0)).flatten) d

/-- The gradient shards of the layers (KIND 0x3), for R243. -/
def shardsOf (ls : List Layer) : List (Nat × Nat) := ls.map (fun l => (l.gAddr * 0x4000, l.gAddr * 0x4000 + l.arrayBytes))

end Sys2Proof.Machine
end

