-- ==== Sys2Proof/Machine/Load.lean ====
section
/-! DEFINITION. Sys2Proof/Machine/Load.lean: the register settings of a forme (R393) and the work of LOAD (R394). -/

namespace Sys2Proof.Machine

/-! ## Register settings (R393) -/

/-- May the settings name the register? -/
def settable (r : RegAt) : Bool :=
  r.d.fields.any (fun f => f.acc == .rwl) &&
  (match r.d.block with
   | .dev => r.d.name != .devSeedLo && r.d.name != .devSeedHi && r.d.name != .devBoard
   | .hal => r.d.name != .halJobBoard && r.d.name != .halJobTree
   | .hold => r.d.name == .holdArb
   | .press => r.d.name != .pressMirrorCfg
   | .yard | .tile => true
   | _ => false)

/-- Offsets and values. -/
def settingsOf (d : Dev) (ss : List Sect) : List (Nat × Nat) :=
  match sectOf ss 0xA with
  | none => []
  | some s => (List.range (s.bytes / 8)).map (fun i => (d.nat (s.at_ + 8 * i) 4, d.nat (s.at_ + 8 * i + 4) 4))

def Dev.applySettings (d : Dev) (vs : List (Nat × Nat)) : Dev :=
  vs.foldl (fun d e =>
    match regAt e.1 with
    | some r => if settable r then d.setReg e.1 (fieldsAfter r.d.fields false (d.reg e.1) e.2) else d
    | none => d) d

/-- A value that its register refuses (R247, R249, R256, R274, R275, R310); `d` holds all the settings. -/
def Dev.refusesValue (d : Dev) (r : RegAt) (v : Nat) : Bool :=
  match r.d.name with
  | .tileHalFlagmap => (List.range 4).any (fun i => (v / 2 ^ (8 * i)).testBit 7 && decide (bitsAt v (8 * i) 5 < 8))
  | .tileHalMember => (List.range 16).any (fun b => v.testBit b && d.barScope b == 0)
  | .tileHalFlagdef => v % 256 != 0
  | .halCfg => decide (bitsAt v 0 5 < 16)
  | .pressCfg => decide (1 ≤ bitsAt v 1 5) && decide (bitsAt v 1 5 ≤ 15)
  | .yardSqCfg => decide (1 ≤ bitsAt v 0 5) && decide (bitsAt v 0 5 ≤ 7)
  | .yardSqVictim => (List.range 4).any (fun i => (v / 2 ^ (8 * i)).testBit 7
      && (bitsAt v (8 * i) 6 == r.inst || d.yardFurled (bitsAt v (8 * i) 6)))
  | .tileSqLand => v % 128 != 0 || decide (v < (d.tile r.inst).image.codeEnd)
  | .pressLtBaseLo => v % 1024 != 0
  | .pressRuleBaseLo => v % 512 != 0
  | .yardSqSlotBaseLo => v % 64 != 0
  | _ => false

/-- Every setting is allowed and accepted; every tile with a program, and every tile whose membership the forme writes, is a member of
the decision barrier (R251); a tile without either is one by R160. -/
def Dev.settingsOk (d : Dev) (ss : List Sect) (vs : List (Nat × Nat)) : Bool :=
  (match sectOf ss 0xA with | some s => s.bytes % 8 == 0 | none => true)
    && vs.all (fun e => match regAt e.1 with | some r => settable r && !d.refusesValue r e.2 | none => false)
    && d.jobTiles.all (fun p => d.isMember p d.decBar)
    && vs.all (fun e => match regAt e.1 with
      | some r => r.d.name != .tileHalMember || !d.inService r.inst || d.isMember r.inst d.decBar
      | none => true)

/-! ## LOAD -/

/-- R341: a range recorded under another token is released. -/
def Dev.releaseRetained (d : Dev) : Dev :=
  let d := d.dropMem (fun a => inHold a && d.inRetained a)
  let d := ({ d with bos := { d.bos with retained := none } }.setFlag Reg.hstJob F.hstJobRetained false).dropRegions
  (d.dropRegs (fun n => n == .pressProofStatus || n == .pressProofStep || n == .pressProofSeqLo || n == .pressProofSeqHi
    || n == .pressMirrorHeld || n == .pressMirrorHeldStep)).setFld Reg.pressProofStatus F.pressProofStatusLevel d.proofLevel

/-- The clears of the memories that a refused LOAD leaves behind (R394, R401), and the rings emptied with them. -/
def Dev.loadUndone (d : Dev) : Dev :=
  let d := d.clearMemories.dropRegs (fun n => n == .hstCmdTail || n == .hstCmdHead || n == .hstCplTail || n == .hstCplHead)
  { d with tiles := [], routes := [], nodes := [], job := Job.none, host := { d.host with cplPhase := true, cplWait := [] } }

/-- What an epilogue descriptor's conversion is, beside its POINT and TENSOR_ID: output format and scaling, encode exponent, index
orientation, row length. -/
def epShape (e : BitVec 256) : List Nat := [epF e 0 0 4, epF e 0 6 3, epF e 1 16 8, epF e 0 25 1, epF e 7 0 32]

/-- R59 among the SR descriptors of the forme: those of one point and tensor are one rounding point, the same conversion of
different parts of the tensor (log entry 124). -/
def Dev.epPointsOk (d : Dev) : Bool :=
  let es := (d.tiles.flatMap (fun t => t.2.eps.map (·.2))).filter (fun e => epF e 0 4 2 == 1)
  noPair (fun a b => epF a 1 0 16 == epF b 1 0 16 && epF a 6 0 16 == epF b 6 0 16 && epShape a != epShape b) es

/-- Steps 5 and 6: the device with the job in it, and the detail of the first refusal. -/
def Dev.placeJob (d : Dev) (fa : Nat) : Dev × Option Nat :=
  let ss := sectionsOf d fa
  let vs := settingsOf d ss
  let d := d.loadCounters.applySettings vs
  match formeImages d ss with
  | none => (d, some 4)
  | some as =>
    let d := d.putImages as
    if !d.galleysOk then (d, some 4)
    else
      let m := impOf d ss
      let d := d.putImp m
      let ls := (formeTables d ss).map (·.layers)
      if !m.ok d (shardsOf (ls.getD [])) then (d, some 5)
      else match formeTables d ss with
      | none => (d, some 6)
      | some t =>
        if t.layers.length ≠ d.reg Reg.pressLtCount ∨ !slotPlanOk d t ∨ !d.tiles.all (fun e => e.2.eps.all (fun x => epLegal x.2)) ∨ !d.epPointsOk then (d, some 6)
        else if !d.settingsOk ss vs then (d, some 0xD)
        else
          let imgs := match sectOf ss 9 with | some s => Config.caseImagesOf (d.bytes s.at_ s.bytes) | none => []
          let d := { d with job := { d.job with
            layers := t.layers.length, scaleCount := t.scales, scaleAt := t.scaleAt,
            initAt := (match sectOf ss 8 with | some s => (s.at_, s.bytes) | none => (0, 0)),
            stashAt := (match sectOf ss 0xB with | some s => (s.at_, s.bytes) | none => (0, 0)), caseImgs := imgs } }
          let d := ((d.putTables ss t).putCaseImages).scaleDiscard
          (d.setReg Reg.halStep (d.job.firstStep.toNat + 0xFFFFFFFF), none)

/-- The six steps; `none`: LOADING goes on to LOADED, else the detail, with the device in the state it came from. -/
def Dev.load (d : Dev) (fa total : Nat) (token : List Byte) (retain : Bool) (v : Verdict) : Dev × Option Nat :=
  let from_ := d.jst
  let undo := fun (d : Dev) (c : Nat) => ((d.loadUndone).setJst from_, some c)
  let d := d.setJst JobSt.loading
  let early := (formeLayout d fa total v.digestOk).orElse (fun _ => (formeLevels d fa).orElse (fun _ => formeSigned d fa v.sigOk))
  match early with
  | some c => undo d c
  | none =>
    let digest := Config.sha512 token
    let d := match d.bos.retained with
      | some r => if r.digest = digest then d else d.releaseRetained
      | none => d
    let d1 := { d with job := { Job.none with
      formeId := w64 (d.nat (fa + 8) 8), formeAddr := fa, firstStep := w32 (d.nat (fa + 32) 4), retain := retain,
      tokenDigest := digest, debug := d.flag Reg.bosSec F.bosSecDebug } }
    match d1.placeJob fa with
    | (_, some c) => undo d c
    | (d2, none) => (d2, none)

/-- The load has ended: LOADED, and the forme's DIGEST is measurement 10 (R420). -/
def Dev.loaded (d : Dev) : Dev :=
  { d with bos := { d.bos with formeDigest := d.bytes (d.job.formeAddr + 64) 64 } }.setJst JobSt.loaded

end Sys2Proof.Machine
end

