-- ==== Sys2Proof/Machine/Proof.lean ====
section
/-! DEFINITION. Sys2Proof/Machine/Proof.lean: the commit record of a step (R326, R327), the record on every device (R327, R329,
R333), the restart records of R337, and a mirror restored (R337). -/

namespace Sys2Proof.Machine

/-! ## The record of a step -/

/-- Every device whose notice comes to this one has sent it. -/
def Dev.peersRecorded (d : Dev) : Bool :=
  d.jobPorts.all (fun n => d.hal.recorded.contains (BitVec.ofNat 12 (d.fld (Reg.lnkPeer n) F.lnkPeerSystemId)))

/-- PRESS_PROOF_JOBSTEP reaches step `n`: a mirror may be due, and a held abort is raised for the step after (R327, R329, R333). -/
def Dev.tryJobRecorded (d : Dev) : Dev :=
  if !d.hal.holding || d.press.recWait || d.press.dec.isSome || !d.peersRecorded then d
  else
    let n := d.reg Reg.pressProofStep
    let every := d.fld Reg.pressMirrorCfg F.pressMirrorCfgEvery
    let d := d.setReg Reg.pressProofJobstep n
    let d := if every ≠ 0 ∧ n % every = 0 then d.setFlag Reg.pressProofStatus F.pressProofStatusMirrorDue true else d
    let held := d.hal.heldAbort
    let peer := d.hal.heldPeer
    let d := { d with hal := { d.hal with holding := false, recorded := [], heldAbort := none } }
    match held with
    | some f => d.startAbort f peer
    | none => d

/-- The last step of the job is recorded: the device clears (R37, R397). -/
def Dev.tryDrained (d : Dev) (n : Word) : Dev :=
  let last := match d.hal.lastStep with | some l => decide (l.toNat ≤ n.toNat) | none => false
  if last || n == 0xFFFFFFFE#32 then
    let d := if d.jst = JobSt.draining then d else d.setJst JobSt.draining
    { d with bos := { d.bos with endCause := if d.bos.endCause = 0 then 1 else d.bos.endCause } }.startClear
  else d

/-- The 64 bytes of the record that closes step `n` (R326). -/
def Dev.stepRecord (d : Dev) (n : Word) (commit : Bool) : List Byte :=
  let live := if commit then 1 - d.live else d.live
  let liveStep := if commit then n else hdrStep (d.bytes (d.slotAt d.live) 64)
  d.recordBytes live (b2n (!commit)) n (d.reg64 Reg.pressProofSeqLo Reg.pressProofSeqHi + 1) liveStep

/-- The record stands: what its pass B used is consumed (R321), the copy-in counts too where the next step is released already. -/
def Dev.recordDone (d : Dev) (n : Word) (commit : Bool) : Dev :=
  let b := d.stepRecord n commit
  let d := (d.countHold (d.recCopyAt (recSeq b % 2)) 64 true).putRecord b false
  let passed := commit && d.step != n
  let d := { d with press := { d.press with
    recWait := false, dec := none, scaleUndo := [], wn := if commit then [] else d.press.wn, comb := if commit then [] else d.press.comb,
    copyIn := if passed then [] else d.press.copyIn,
    p := if commit then d.press.p.map (fun (e : Nat × Press) => (e.1, { e.2 with acc := [] })) else d.press.p } }
  let d := (d.setFld Reg.devReplays F.devReplaysConsec 0).event 0x0100 (if commit then 0 else 8) n (w32 (d.reg Reg.halDecFlags))
  let d := if d.multi then d.send (.recorded n) else d
  (d.tryHeld.tryJobRecorded).tryDrained n

/-- A record write that completes with an access error is device-fatal (R327). -/
def Dev.recordLost (d : Dev) (a : Nat) : Dev := d.fatal 0x04 1 (ctlOf a) 5 (some (3, ctlOf a))

/-- RECORD_ACK: the record's write is acknowledged; two tries that fail are an access error (R210, R327). -/
def execRecordAck (t : EccTries) : State → Host.Outcome State Fault Refusal :=
  onDev (fun d =>
    match d.press.dec with
    | none => d
    | some (n, commit) =>
      if !d.press.recWait || !d.pressing then d
      else
        let a := d.recCopyAt (recSeq (d.stepRecord n commit) % 2)
        let d := d.noteCorrected (ctlOf a) t
        if !d.regionOk .press a 64 true then (d.logUnpopulated a).recordLost a
        else if !(runTries 2 t.tries).1 then (d.recordHoldUe a 1).recordLost a
        else if t.pathUe then (d.recordHoldUe a 2).recordLost a
        else d.recordDone n commit)

/-- RECORDED_NOTICE: device `dev` has recorded the step that is decided here (R327). -/
def execRecordedNotice (dev : BitVec 12) (step : Word) : State → Host.Outcome State Fault Refusal :=
  onDev (fun d =>
    if !d.runningJob || d.hal.aborting || step != w32 (d.reg Reg.halDecStep) || step == w32 (d.reg Reg.pressProofJobstep)
        || d.hal.recorded.contains dev then d
    else Dev.tryJobRecorded { d with hal := { d.hal with recorded := d.hal.recorded ++ [dev] } })

/-! ## Restart records (R337) -/

/-- What the retention in force asks for: OWNER_DIGEST is written outside debug only (R427). -/
def Dev.putRestart (d : Dev) (live : Nat) (s : Word) (seq : Nat) : Dev :=
  d.putRecord (d.recordBytes live 0 s seq (hdrStep (d.bytes (d.slotAt live) 64))) true

/-- The seed that a record carries replaces the host's (R76). -/
def Dev.takeSeed (d : Dev) (rec_ : List Byte) : Dev := d.setReg64 Reg.devSeedLo Reg.devSeedHi (natAt rec_ 16 8)

/-- A header with this device's own SYSTEM_ID and BOARD_POS. -/
def Dev.ownHeader (d : Dev) (h : List Byte) : List Byte :=
  withCrc (h.take 24 ++ toBytes 2 d.ownDev ++ toBytes 2 d.boardPos ++ (h.drop 28).take 32)

/-- Everything of a start but the completion, which comes with the first release. -/
def Dev.resumeAt (d : Dev) (s : Word) : Dev :=
  let d := (d.setReg Reg.halStep s.toNat).setReg Reg.pressProofJobstep s.toNat
  d.prepare (s + 1) true

end Sys2Proof.Machine
end

