-- ==== Sys2Proof/Machine/Start.lean ====
section
/-! DEFINITION. Sys2Proof/Machine/Start.lean: what START checks and does (R395, R216, R266, R292, R328, R336, R337, R340, R341,
R381), and a mirror restored into this device (R337). -/

namespace Sys2Proof.Machine

/-! ## The region table (R216, R292, R322) -/

def Dev.rgns (d : Dev) : List Nat := (List.range 64).filter d.rgnValid
def Dev.rgnEnd (d : Dev) (r : Nat) : Nat := d.rgnBase r + d.rgnBytes r
def Dev.rgnMask (d : Dev) (r : Nat) (write : Bool) (bit : Nat) : Bool :=
  (d.fld (Reg.holdRgnAttr r) (if write then F.holdRgnAttrWrite else F.holdRgnAttrRead)).testBit bit

/-- The first entry that breaks R216 or has a reserved kind. -/
def Dev.badRegion (d : Dev) : Option Nat :=
  d.rgns.find? (fun r => decide (holdTop < d.rgnEnd r) || decide (9 < d.rgnKind r) || d.rgnBytes r == 0
    || d.rgns.any (fun s => s != r && overlap (d.rgnBase r) (d.rgnEnd r) (d.rgnBase s) (d.rgnEnd s)))

/-- Does a range lie in one region of one of the kinds that grants the press what it needs? -/
def Dev.pressRange (d : Dev) (kinds : List Nat) (a n : Nat) (read write : Bool) : Bool :=
  n == 0 || d.rgns.any (fun r => kinds.contains (d.rgnKind r) && decide (d.rgnBase r ≤ a) && decide (a + n ≤ d.rgnEnd r)
    && (!read || d.rgnMask r false 3) && (!write || d.rgnMask r true 3))

/-- The ranges that a layer's descriptor names (R292). -/
def Dev.layerRanges (d : Dev) (l : Layer) : Bool :=
  l.arrays.all (fun o => d.pressRange [0] (d.slotAt 0 + o) l.arrayBytes true true && d.pressRange [1] (d.slotAt 1 + o) l.arrayBytes true true)
    && d.pressRange [3] (l.gAddr * 0x4000) l.arrayBytes true false
    && (!l.hasCopy || (d.pressRange [5] l.headAt (1024 + l.codeBytes) false true && d.pressRange [5, 7] (l.qpeAt 0) (8 * l.channels) false true))

/-- Both slots, of one size, with room for what a slot holds. -/
def Dev.slotsOk (d : Dev) (scales : Nat) (ls : List Layer) : Bool :=
  match d.rgnOf 0, d.rgnOf 1 with
  | some a, some b => d.rgnBytes a == d.rgnBytes b
      && decide (({ d with press := { d.press with layers := ls }, job := { d.job with scaleCount := scales } } : Dev).span * unit64k ≤ d.rgnBytes a)
  | _, _ => false

/-! ## The other checks -/

/-- Rings within one region of KIND 0x6 that the device's tiles can read and the host reads and writes (R381). -/
def Dev.ringsOk (d : Dev) : Bool :=
  let cpl := 2 ^ d.fld Reg.hstCplSize F.hstCplSizeCplLog2
  decide (d.cmdBase % 4096 = 0) && decide (d.cplBase % 4096 = 0)
    && d.rgns.any (fun r => d.rgnKind r == 6 && d.rgnMask r false 0 && d.rgnMask r false 6 && d.rgnMask r true 6
      && decide (d.rgnBase r ≤ d.cmdBase) && decide (d.cmdBase + 64 * d.cmdSize ≤ d.rgnEnd r)
      && decide (d.rgnBase r ≤ d.cplBase) && decide (d.cplBase + 32 * cpl ≤ d.rgnEnd r))

/-- HOLD_ARB, HAL_STEP_CFG and the slot regions of the yards. -/
def Dev.cfgOk (d : Dev) : Bool :=
  ctls.all (fun c =>
    let f := d.fld (Reg.holdArb c) F.holdArbFabricWt
    let p := d.fld (Reg.holdArb c) F.holdArbPressWt
    f + p == 16 && f != 0 && p != 0)
    && d.relBar != d.decBar && d.relBar != d.comBar && d.decBar != d.comBar && [d.relBar, d.decBar, d.comBar].all (fun b => d.barScope b == 3)
    && allYards.all (fun y =>
      let n := d.fld (Reg.yardSqSlotCount y) F.yardSqSlotCountCount
      let base := d.reg64 (Reg.yardSqSlotBaseLo y) (Reg.yardSqSlotBaseHi y)
      n == 0 || (decide (n ≤ 1024) && (match rangeEnd base with
        | some e => decide (base + n * 64 * d.fld (Reg.yardSqSlotSize y) F.yardSqSlotSizeUnits ≤ e)
        | none => false)))

/-- The retained regions in the order slot A, slot B, mirror (R222). -/
def Dev.keepList (d : Dev) : List (Nat × Nat × Word) :=
  ([0, 1, 2].filterMap d.rgnOf).map (fun r => (d.fld (Reg.holdRgnBase r) F.holdRgnBaseBase, d.fld (Reg.holdRgnSize r) F.holdRgnSizeSize,
    w32 (d.reg (Reg.holdRgnAttr r))))

/-- R340, R341, R427. -/
def Dev.retentionOk (d : Dev) : Bool :=
  (!d.job.retain || (!d.job.debug
    && (match d.rgnOf 0, d.rgnOf 1 with
        | some a, some b => d.rgnBase b == d.rgnEnd a && d.flag (Reg.holdRgnAttr a) F.holdRgnAttrRetain && d.flag (Reg.holdRgnAttr b) F.holdRgnAttrRetain
            && (match d.rgnOf 2 with
                | some m => d.rgnBase m == d.rgnEnd b && d.flag (Reg.holdRgnAttr m) F.holdRgnAttrRetain
                | none => true)
        | _, _ => false)))
    && (match d.bos.retained with
        | some r => r.regions.map (fun g => (g.1, g.2.1)) == d.keepList.map (fun g => (g.1, g.2.1))
        | none => true)

/-! ## Restart steps on offer (R336, R342) -/

def Dev.hasSlots (d : Dev) : Bool := (d.rgnOf 0).isSome && (d.rgnOf 1).isSome
def Dev.offerL (d : Dev) : Option (List Byte) := if d.hasSlots then d.offerOf d.newest else none
def Dev.offerP (d : Dev) : Option (List Byte) := if d.hasSlots then d.offerOf d.previous else none
/-- The local record that holds step `s`. -/
def Dev.localRec (d : Dev) (s : Word) : Option (List Byte) := (d.offerL.filter (fun b => recStep b == s)).or (d.offerP.filter (fun b => recStep b == s))
/-- The record that the host wrote into slot A for step `s`. -/
def Dev.hostRec (d : Dev) (s : Word) : Option (List Byte) := d.offerL.filter (fun b => recStep b == s && recLive b == 0)

/-- Can the partner's mirror reach this device? What it holds shows when it arrives (MIRROR_RESTORE_COMPLETE). -/
def Dev.mirrorReachable (d : Dev) : Bool := (d.livePort (d.fld Reg.pressMirrorCfg F.pressMirrorCfgPartner)).isSome

def Dev.offered (d : Dev) (source : Nat) (s : Word) : Bool :=
  match source with
  | 0 => s == noStep
  | 1 => decide (s.toNat < 0xFFFFFFFE) && (d.localRec s).isSome
  | 2 => decide (s.toNat < 0xFFFFFFFE) && d.mirrorReachable
  | 3 => decide (s.toNat < 0xFFFFFFFE) && (d.hostRec s).isSome
  | _ => false

/-! ## The checks in order: the detail of the first refusal -/

def Dev.startRefusal (d : Dev) (t : Tables) (source : Nat) (s : Word) : Option Nat :=
  let room := match d.rgnOf 4 with | some r => d.rgnBytes r | none => 0
  let lt := d.reg64 Reg.pressLtBaseLo Reg.pressLtBaseHi
  if d.badRegion.isSome ∨ !d.slotsOk t.scales t.layers ∨ !t.layers.all d.layerRanges
      ∨ !d.rgns.any (fun r => d.rgnKind r == 7 && decide (d.rgnBase r ≤ lt) && decide (lt + 1024 * t.layers.length ≤ d.rgnEnd r)) then some 7
  else if !d.cfgOk then some 0xD
  else if !d.ringsOk then some 0xC
  else if !d.retentionOk then some 0xB
  else if !d.offered source s then some 0xA
  else if source = 0 ∧ (d.job.initAt.2 % unit64k ≠ 0 ∨ (match d.rgnOf 0 with | some r => d.rgnBytes r | none => 0) < d.job.initAt.2) then some 7
  else if d.reg Reg.pressLtCount ≠ t.layers.length then some 6
  else if d.job.stashAt.2 ≠ 0 ∧ (stashChoice d ⟨0xB, d.job.stashAt.1, d.job.stashAt.2⟩ room).isNone then some 9
  else none

/-- What a refusal's RESULT reports: with detail 0x07 the region-table entry that broke R216, where one did (log entry 125). -/
def Dev.refusalResult (d : Dev) (detail : Nat) : List Word :=
  if detail = 7 then (d.badRegion.map w32).toList else []

/-! ## The work of START -/

/-- R328: the initial state, slot A's header and the initial record. -/
def Dev.initialState (d : Dev) : Dev :=
  let s := d.job.firstStep - 1
  let a := d.slotAt 0
  let size := match d.rgnOf 0 with | some r => d.rgnBytes r | none => 0
  let img := d.bytes d.job.initAt.1 d.job.initAt.2
  let d := (d.dropMem (fun x => decide (a ≤ x) && decide (x < a + size))).store a img
  let d := d.dropMem (fun x => decide (a ≤ x) && decide (x < a + unit64k))
  let d := d.store a (d.headerBytes 0 s)
  d.putRecord (d.recordBytes 0 2 s 1 s) true

/-- What a restart makes of the local or host proof (R76, R337). -/
def Dev.restartFrom (d : Dev) (source : Nat) (s : Word) : Dev :=
  match (if source = 1 then d.localRec s else d.hostRec s) with
  | none => d
  | some r =>
    let seq := match d.newest with | some n => recSeq n | none => recSeq r
    (d.takeSeed r).putRestart (recLive r) s (seq + 1)

/-- The retained range that this job keeps is recorded (R222). -/
def Dev.recordRetained (d : Dev) : Dev :=
  if !d.job.retain then d
  else ({ d with bos := { d.bos with retained := some ⟨d.job.tokenDigest, d.keepList⟩ } }.setFlag Reg.hstJob F.hstJobRetained true).logEv 0 4 0 1 []

/-- The presses load their tables; plans are chosen; cores begin at their entries (R162, R266, R321). -/
def Dev.takeJob (d : Dev) (t : Tables) : Dev :=
  let room := match d.rgnOf 4 with | some r => d.rgnBytes r | none => 0
  let plan := if d.job.stashAt.2 = 0 then [] else (stashChoice d ⟨0xB, d.job.stashAt.1, d.job.stashAt.2⟩ room).getD []
  let d := { d.saveRegs.startCounters.showMirror with
    hal := Hal.idle, press := { PressS.idle with layers := t.layers, rules := t.rules, ssq := d.press.ssq },
    job := { d.job with fallback := plan, mapFrozen := true } }
  let d := d.holdOutPending
  let d := d.jobTiles.foldl (fun d p => d.startTile p (d.tile p).image.start) d
  d.setJst JobSt.running

/-- What the device does for the partner whose mirror it holds complete at the restart step: its image goes to slot A there, on lanes 2
and 3 (R337). Whether that device restarts from the mirror is its own START, which no command brings here: a free bit (log entry 114). -/
def Dev.streamMirror (d : Dev) (s : Word) : Dev :=
  match d.mirrorHeld with
  | none => d
  | some (step, dev) =>
    if step ≠ s ∨ (d.livePort dev).isNone then d
    else
      let h := d.bytes d.mirrorAt 256
      let go := d.free.1.getLsbD 0
      if go then d.free.2.send (.mirrorImage (BitVec.ofNat 12 dev) ((h.drop 64).take 64) ((h.drop 128).take 64)
          (d.bytes (d.mirrorAt + 0x10000) (natAt h 8 8)))
      else d.free.2

/-- WIDE of the port to the partner: set while a mirror's image comes (R338, R374). -/
def Dev.partnerWide (d : Dev) (b : Bool) : Dev :=
  match d.livePort (d.fld Reg.pressMirrorCfg F.pressMirrorCfgPartner) with
  | some n => d.lnkWide n b
  | none => d

/-- From the proof in place to the presses' preparation (R71, R222, R318). -/
def Dev.beginAt (d : Dev) (s : Word) (proof : Bool) : Dev :=
  (d.recordRetained.startScales (if proof then some d.live else none)).resumeAt s

/-- START once nothing refuses it; a mirror arrives by itself (MIRROR_RESTORE_COMPLETE). -/
def Dev.startJob (d : Dev) (t : Tables) (e : HostEntry) (source : Nat) (s : Word) : Dev :=
  let d := (d.takeJob t).streamMirror s
  match source with
  | 0 => (d.initialState).beginAt (d.job.firstStep - 1) false
  | 2 => { d.partnerWide true with host := { d.host with stStart := some e } }
  | _ => (d.restartFrom source s).beginAt s true

/-- No job can start on a device whose channels, halyard tree or quoin did not come up. -/
def Dev.mayStart (d : Dev) : Bool :=
  ctls.all (fun c => d.fld (Reg.holdStatus c) F.holdStatusChanOk == 0xFFFF) && d.flag Reg.halStatus F.halStatusTreeOk
    && d.flag Reg.devNumerics F.devNumericsSrSelftest

/-! ## A mirror restored (R337) -/

/-- A START that its source does not bear out leaves the job LOADED, as though it had not been issued. -/
def Dev.unstart (d : Dev) : Dev :=
  let d := (d.stopAll.partnerWide false).putBackRegs
  let d := { d with job := { d.job with mapFrozen := false, fallback := [], heldOut := [] } }
  let d := d.jobTiles.foldl (fun d p => d.restoreTile p noStep false) d
  { d with hal := Hal.idle, press := { PressS.idle with ssq := d.press.ssq, mirrorUe := d.press.mirrorUe },
           host := { d.host with stStart := none } }.setJst JobSt.loaded

/-- The restart step of a START. -/
def startStep (e : HostEntry) : Word := w32 (natAt e.args 0 4)

/-- The record and header that came with a mirror's image are those of the restart step (R337). -/
def Dev.mirrorFits (d : Dev) (e : HostEntry) (rec_ hdr : List Byte) : Bool := d.pairOk rec_ hdr && recStep rec_ == startStep e

/-- The image is in slot A: header and record take this device's own numbers, then the start goes on. -/
def Dev.mirrorIn (d : Dev) (e : HostEntry) (rec_ hdr : List Byte) : Dev :=
  let d := { d.partnerWide false with host := { d.host with stStart := none, stRegs := [] }, hal := Hal.idle }
  let a := d.slotAt 0
  let d := d.dropMem (fun x => decide (a ≤ x) && decide (x < a + unit64k))
  let d := (d.store a (d.ownHeader hdr)).takeSeed rec_
  (d.putRestart 0 (startStep e) (recSeq rec_ + 1)).beginAt (startStep e) true

end Sys2Proof.Machine
end

