-- ==== Sys2Proof/Machine/JobEnd.lean ====
section
/-! DEFINITION. Sys2Proof/Machine/JobEnd.lean: how a command completes (R384, R389), END, KILL and their words (R397 to R401), the
loss and return of the host (R402, R403), the sequence of a job boundary (R442). -/

namespace Sys2Proof.Machine

/-! ## Completion -/

/-- The command waits for its condition. -/
def Dev.pend (d : Dev) (e : HostEntry) : Dev :=
  match e.q.src with
  | .ring => { d with host := { d.host with cur := some e } }
  | .mailbox => { d with host := { d.host with mbCur := some e } }

def Dev.finish (d : Dev) (e : HostEntry) (status detail : Nat) (res : List Word) (step : Word := noStep) : Dev :=
  { d with host := { d.host with cur := d.host.cur.filter (· != e), mbCur := d.host.mbCur.filter (· != e) } }.complete e.q e.opcode status detail res step

/-- Not accepted in the present state; malformed. -/
def Dev.wrongState (d : Dev) (e : HostEntry) : Dev := d.finish e 2 0 []
def Dev.malformed (d : Dev) (e : HostEntry) : Dev := d.finish e 3 0 []

/-- Argument bytes; byte 8 of the entry is argument byte 0. -/
def HostEntry.arg (e : HostEntry) (o n : Nat) : Nat := natAt e.args o n

/-! ## END (R397) -/

/-- LAST_STEP as the device takes it: not below the highest step released on it. -/
def Dev.lastFor (d : Dev) (last : Word) : Word := if last = noStep ∨ last.toNat < d.step.toNat then d.step else last

/-- The device drains to the smaller of this LAST_STEP and the one it holds. -/
def Dev.drainTo (d : Dev) (last : Word) : Dev :=
  let l := d.lastFor last
  let l := match d.hal.lastStep with
    | some o => let o := d.lastFor o; if o.toNat < l.toNat then o else l
    | none => l
  let d := if d.multi && d.hal.hrel.any (fun n => decide (l.toNat < n.toNat)) then d.send (.withdrawRelease (d.step + 1)) else d
  let d := { d with hal := { d.hal with lastStep := some l, hrel := d.hal.hrel.filter (fun n => decide (n.toNat ≤ l.toNat)) } }
  let d := if d.jst = JobSt.draining then d else d.setJst JobSt.draining
  if d.press.recWait || d.press.dec.isSome || d.hal.aborting then d else d.tryDrained (w32 (d.reg Reg.pressProofStep))

/-- The cause that HST_JOB shows in the end: what made the job fail stands. -/
def Dev.setEnd (d : Dev) (c : Nat) : Dev :=
  if d.bos.endCause = 0 ∨ d.jst ≠ JobSt.failed then { d with bos := { d.bos with endCause := c } } else d

/-- END arrives, by command or from another device. -/
def Dev.endWith (d : Dev) (last : Word) : Dev :=
  let d := (d.setEnd 1).hostEvent (eventWord 4 0 last)
  if d.jst = JobSt.running ∨ d.jst = JobSt.draining then d.drainTo last else d.startClear

def Dev.endJob (d : Dev) (e : HostEntry) : Dev :=
  let st := d.jst
  if d.pwr.stopped ∨ !(st = JobSt.loaded ∨ st = JobSt.running ∨ st = JobSt.held ∨ st = JobSt.failed) then d.wrongState e
  else
    let last := w32 (e.arg 0 4)
    let d := if d.multi then d.send (.endNotice last) else d
    ({ d with bos := { d.bos with endReq := some e } }.pend e).endWith last

/-! ## KILL (R398, R384) -/

/-- Every unfinished earlier command has been superseded. -/
def Dev.supersede (d : Dev) (e : HostEntry) : Dev :=
  let h := d.host
  let old := (h.cur.toList ++ h.waiting ++ h.mbCur.toList ++ h.mbWaiting.toList ++ h.loadWait.toList).filter (· != e)
  let d := { d with host := { h with cur := none, waiting := [], mbCur := none, mbWaiting := none, loadWait := none, stStart := none } }
  old.foldl (fun d x => d.finish x 4 0 []) d

/-- Everything stops and the clear begins; the other devices of the job are told. -/
def Dev.killNow (d : Dev) (e : HostEntry) : Dev :=
  let d := d.supersede e
  let d := if d.jobLoaded && d.multi then d.send .killNotice else d
  ({ d with bos := { d.bos with endReq := some e } }.setEnd 2).startClear

/-- DEBUG is left: no access of any scope from now on (R428). -/
def Dev.closeDebug (d : Dev) (e : HostEntry) : Dev :=
  let r := Reg.bosSec
  let d := ((d.setFlag r F.bosSecDebug false).setFld r F.bosSecScope 0).setFlag r F.bosSecServiceSigner false
  ({ d with bos := { d.bos with endReq := some e } }).startClear

def Dev.killJob (d : Dev) (e : HostEntry) : Dev :=
  let st := d.jst
  if d.pwr.stopped ∨ st = JobSt.idle ∨ st = JobSt.boot then d.wrongState e
  else if st = JobSt.clearing then (({ d.supersede e with bos := { d.bos with endReq := some e } } : Dev).pend e)
  else if st = JobSt.debug then (d.supersede e).closeDebug e
  else d.killNow e

/-- A kill notice: FAILED with cause 3 (R398, R399). -/
def Dev.peerKill (d : Dev) (dev : BitVec 12) : Dev :=
  if !d.jobLoaded ∨ d.jst = JobSt.failed ∨ d.jst = JobSt.clearing then d
  else
    let d := (d.logEv 0 8 0 3 [w32 dev.toNat]).setJst JobSt.failed
    let d := { d with bos := { d.bos with endCause := 3 }, hal := { d.hal with aborting := false, heldAbort := none, notices := [] } }
    ((d.setFld Reg.hstJob F.hstJobEndCause 3).event 0x0103 0x06 d.step 3).irq 3

/-! ## RESUME (R403) -/

/-- RUNNING again; the CTs may ask for the next step. -/
def Dev.goOn (d : Dev) : Dev :=
  ({ d with hal := { d.hal with heldStep := none, heldDev := 0 } }.hostEvent (eventWord 3 0 0)).setJst JobSt.running

def Dev.resumeJob (d : Dev) (e : HostEntry) : Dev :=
  if d.jst ≠ JobSt.held ∨ !d.flag Reg.hstStatus F.hstStatusHostLost ∨ d.hal.heldDev.toNat ≠ d.ownDev ∨ !d.host.beatSinceLost then d.wrongState e
  else
    let d := (d.setFlag Reg.hstStatus F.hstStatusHostLost false).setFld Reg.hstStatus F.hstStatusMisses 0
    let d := if d.multi then d.send .resumeNotice else d
    (d.pend { e with args := toBytes 4 d.step.toNat ++ e.args.drop 4 }).goOn

/-! ## The boundary (R442) -/

/-- Step 8: the state, and the result of what asked for the clear (R401, R426 to R428). -/
def Dev.endClear (d : Dev) : Dev :=
  let d := if d.bos.endCause = 0 then d else d.setFld Reg.hstJob F.hstJobEndCause d.bos.endCause
  let r := Reg.bosSec
  let d := if d.bos.debugClear then
      ((d.setFlag r F.bosSecDebug true).setFld r F.bosSecScope d.bos.debugScope).setFlag r F.bosSecServiceSigner d.bos.debugSigner
    else d
  let req := d.bos.endReq
  let d := if d.host.mbCur.isSome then
      (d.setFlag Reg.bosMbStatus F.bosMbStatusDone true).setFlag Reg.bosMbStatus F.bosMbStatusBusy false else d
  let d := { d with bos := { d.bos with endReq := none, endCause := 0, debugClear := false }, host := { d.host with mbCur := none } }
  let d := d.setJst (if d.flag r F.bosSecDebug then JobSt.debug else JobSt.idle)
  match req with
  | none => d
  | some e =>
    match e.q.src with
    | .mailbox => d.complete e.q e.opcode 0 0 []
    | .ring =>
      let w := cplWords e.opcode 0 e.q.tag noStep 0 []
      (List.range 8).foldl (fun d i => d.setReg (Reg.bosMbRsp i) (w.getD i 0).toNat) d

/-- Steps 2 to 6, and 8 when there is nothing to repair. -/
def Dev.clearsDone (d : Dev) (o : ClearOut) : Dev :=
  let d := d.clearAll
  let tests := d.bos.btq ++ d.bos.boundaryTests
  let d := tests.foldl (fun d t => d.queuedTest t o.testFails o.pages) { d with bos := { d.bos with btq := [], boundaryTests := [] } }
  let d := ((((d.showTests.applyFurls o.spareOk).replanAll).applyFurls []).clearRouters).showRepair
  if d.repairing then d else d.endClear

/-- CLEARS_COMPLETE. -/
def execClearsComplete (o : ClearOut) : State → Host.Outcome State Fault Refusal :=
  onDev (fun d => if d.jst = JobSt.clearing ∧ d.flag (Reg.holdStatus 0) F.holdStatusClearing then d.clearsDone o else d)

/-- HOLD_REPAIR_COMPLETE: one page of the controller, after the clears (R214). -/
def execHoldRepairComplete (c : Ctl) : State → Host.Outcome State Fault Refusal :=
  onDev (fun d =>
    match (d.ctl c).retire with
    | [] => d
    | p :: rest =>
      if d.jst ≠ JobSt.clearing ∨ d.flag (Reg.holdStatus 0) F.holdStatusClearing then d
      else
        let d := ((d.repairPage p).setCtl c { d.ctl c with retire := rest }).showRepair
        if d.repairing then d else d.endClear)

/-! ## Words of other devices -/

/-- END_EVENT: event 0x04 of the device that received END (R397). -/
def execEndEvent (last : Word) : State → Host.Outcome State Fault Refusal :=
  onDev (fun d => if d.jobLoaded && d.jst != JobSt.loading && d.jst != JobSt.clearing then d.endWith last else d)

/-- KILL_NOTICE. -/
def execKillNotice (dev : BitVec 12) : State → Host.Outcome State Fault Refusal := onDev (fun d => d.peerKill dev)

/-- HELD_EVENT: event 0x02: the device of the job whose host was lost, and its held step (R402). -/
def execHeldEvent (dev : BitVec 12) (step : Word) : State → Host.Outcome State Fault Refusal :=
  onDev (fun d => if d.jst = JobSt.running then d.holdAt dev step else d)

/-- RESUME_EVENT: event 0x03 (R403). -/
def execResumeEvent : State → Host.Outcome State Fault Refusal :=
  onDev (fun d =>
    if d.jst = JobSt.held then d.goOn
    else if d.jst = JobSt.running ∧ d.hal.heldStep.isSome then { d with hal := { d.hal with heldStep := none, heldDev := 0 } } else d)

/-- MIRROR_RESTORE_COMPLETE: the holder's image has arrived with its record and header (R337). -/
def execMirrorRestoreComplete (rec_ hdr : List Byte) : State → Host.Outcome State Fault Refusal :=
  onDev (fun d =>
    match d.host.stStart with
    | none => d
    | some e =>
      if d.jst ≠ JobSt.running then d
      else if d.mirrorFits e rec_ hdr then d.mirrorIn e rec_ hdr else d.unstart.finish e 1 0xA [])

/-- NONCE_EXPIRY: 10 minutes after DEBUG_NONCE (R425). -/
def execNonceExpiry : State → Host.Outcome State Fault Refusal :=
  onDev (fun d => { d with bos := { d.bos with nonce := none } }.setFlag Reg.bosSec F.bosSecNonceValid false)

end Sys2Proof.Machine
end

