-- ==== Sys2Proof/Machine/PowerDown.lean ====
section
/-! DEFINITION. Sys2Proof/Machine/PowerDown.lean: brown-outs (R464), thermal trips (R474), the end of REFCLK's holdover (R468), the
output balls (R482, R495) and the TAP (R429, R485). -/

namespace Sys2Proof.Machine

/-! ## Brown-outs (R464) -/

/-- May the packages fail to reach self refresh: only while a repair runs, since a boot's training is one step here. -/
def Dev.refreshAtRisk (d : Dev) : Bool := ctls.any (fun c => d.flag (Reg.holdStatus c) F.holdStatusRepairing)

/-- Packages into self refresh, every island but the bosun in reset, a class-3 entry; a dip that got here is not counted. -/
def Dev.brownOut (d : Dev) (inSelfRefresh : Bool) : Dev :=
  if !d.pins.vaux || !d.bos.romDigest || d.pwr.brownout || d.pwr.thermtrip then d
  else
    let lost := !inSelfRefresh && d.refreshAtRisk
    let d := (d.inReset true).logEv 3 0x0A 0 1 []
    let d := d.setPwr { d.pwr with brownout := true }
    if lost then ctls.foldl (fun d c => d.setFlag (Reg.holdStatus c) F.holdStatusSelfRefresh false) d.loseHold else d

/-- VIN_CORE_RESET_TRIP: below 1.62 V for 50 ns (R461, R464). -/
def execVinCoreResetTrip (inSelfRefresh : Bool) : State → Host.Outcome State Fault Refusal := onDev (fun d => d.brownOut inSelfRefresh)

/-- PWR_GOOD_DEASSERT: a brown-out while RST_N is high (R464). -/
def execPwrGoodDeassert (inSelfRefresh : Bool) : State → Host.Outcome State Fault Refusal :=
  onDev (fun d =>
    let d := { d with pins := { d.pins with pwrGood := false } }
    if d.pins.rstN then d.brownOut inSelfRefresh else d)

/-- BROWNOUT_RECOVERY: 10 ms above 1.74 V with PWR_GOOD high: a warm reset from boot step 1 (R464). -/
def execBrownoutRecovery (b : BootIn) : State → Host.Outcome State Fault Refusal :=
  onDev (fun d =>
    if !d.pwr.brownout then d
    else
      let d := { d with pins := { d.pins with pwrGood := true } }.inReset false
      if d.pins.rstN then d.boot b true else d)

/-! ## REFCLK and the thermal trip -/

/-- REFCLK_HOLDOVER_END: every island but the bosun stops (R468). -/
def execRefclkHoldoverEnd : State → Host.Outcome State Fault Refusal :=
  onDev (fun d =>
    if !d.pwr.refLost || d.pwr.stopped then d
    else
      let d := d.stopAll
      let d := ((d.setReg (Reg.clkLock 0) 0).setReg (Reg.clkLock 1) 0).setReg (Reg.clkLock 2) 0x400
      d.setPwr { d.pwr with stopped := true })

/-- THERMAL_TRIP: a comparator at 115 °C: THERMTRIP_N low and latched, every regulator but the bosun's off, the hold lost (R474). It
wins over a brown-out (R475). -/
def execThermalTrip (sensor : Fin 96) (temp : BitVec 8) : State → Host.Outcome State Fault Refusal :=
  onDev (fun d =>
    if temp.toInt < 115 ∨ !d.pins.vaux ∨ d.pwr.thermtrip then d
    else
      let d := ((d.showTemp (sensor.val, temp.toInt)).alert 1).fatal 0x0B 0 sensor 5 none
      let n := ((d.inReset true).loseHold).setFlag Reg.pwrTherm F.pwrThermTripped true
      let n := (n.setReg Reg.pwrLimit (d.reg Reg.pwrLimit)).setReg Reg.pwrThermCfg (d.reg Reg.pwrThermCfg)
      let n := ctls.foldl (fun d c => d.setFlag (Reg.holdStatus c) F.holdStatusSelfRefresh false) n
      n.setPwr { n.pwr with thermtrip := true, tripped := true, brownout := false })

/-- VIN_CORE_REMOVED: the voltage at the sense balls is below 0.2 V: THERMTRIP_N is released (R474). -/
def execVinCoreRemoved : State → Host.Outcome State Fault Refusal :=
  onDev (fun d => { d with pins := { d.pins with vinCore := false }, pwr := { d.pwr with thermtrip := false } })

/-! ## Output balls (R482, R495) -/

def Dev.thermtripLow (d : Dev) : Bool := d.pwr.thermtrip
/-- ALERT_N is low while an unmasked bit of PWR_ALERT is 1. -/
def Dev.alertLow (d : Dev) : Bool :=
  (List.range 4).any (fun i => d.reg Reg.pwrAlert / 2 ^ i % 2 == 1 && d.fld Reg.pwrAlert F.pwrAlertMask / 2 ^ i % 2 == 0)
def Dev.replaceLow (d : Dev) : Bool := d.flag Reg.devReplace F.devReplaceAsserted
/-- Does the device answer on the SMBus: from BOSUN_READY on (R484)? -/
def Dev.smbusAnswers (d : Dev) : Bool := d.flag Reg.bosBootStatus F.bosBootStatusBosunReady

/-! ## The TAP (R429, R485) -/

/-- The TAP needs its rails in their windows. -/
def tapCmd (f : Tap → Tap) : State → Host.Outcome State Fault Refusal :=
  onDev (fun d => if d.pins.vaux && d.pins.vinCore then { d with tap := f d.tap } else d)

/-- TAP_RESET: the instruction is BYPASS, the balls are the device's again. -/
def execTapReset : State → Host.Outcome State Fault Refusal := tapCmd (fun t => { t with ir := .bypass, drive := none })
/-- BYPASS. -/
def execBypass : State → Host.Outcome State Fault Refusal := tapCmd (fun t => { t with ir := .bypass, drive := none })
/-- EXTEST: the boundary register drives the balls. -/
def execExtest (drive : Nat) : State → Host.Outcome State Fault Refusal :=
  tapCmd (fun _ => ⟨.extest, drive, some drive⟩)
/-- SAMPLE_PRELOAD: the boundary register takes its new content; the balls stay the device's. -/
def execSamplePreload (drive : Nat) : State → Host.Outcome State Fault Refusal :=
  tapCmd (fun _ => ⟨.samplePreload, drive, none⟩)
/-- EXTEST_PULSE on the AC-coupled lanes. -/
def execExtestPulse (drive : Nat) : State → Host.Outcome State Fault Refusal :=
  tapCmd (fun _ => ⟨.extestPulse, drive, some drive⟩)
/-- EXTEST_TRAIN on the AC-coupled lanes. -/
def execExtestTrain (drive : Nat) : State → Host.Outcome State Fault Refusal :=
  tapCmd (fun _ => ⟨.extestTrain, drive, some drive⟩)
/-- TAP_PRIVATE_INSTRUCTION: outside DEBUG with scope bit 3 it selects the bypass register (R429). -/
def execTapPrivateInstruction (code : Nat) : State → Host.Outcome State Fault Refusal :=
  onDev (fun d =>
    if d.pins.vaux && d.pins.vinCore then
      { d with tap := { d.tap with ir := if d.debugOpen 3 then .priv code else .bypass, drive := none } }
    else d)

end Sys2Proof.Machine
end

