-- ==== Sys2Proof/Machine/Security.lean ====
section
/-! DEFINITION. Sys2Proof/Machine/Security.lean: firmware, manifest, SPDM, owner and debug commands (R407 to R409, R419 to R428):
what each does once the bosun takes it. Signatures and digests come out as the command's `Verdict` says (log entry 3). -/

namespace Sys2Proof.Machine

/-! ## Buffers in the hold (R421) -/

/-- While a job is loaded, a buffer lies in one region of KIND 0x6 or 0x9 that grants the host what is needed. -/
def Dev.bufferOk (d : Dev) (a n : Nat) (write : Bool) : Bool :=
  decide (a + n ≤ holdTop) && (!d.jobLoaded ||
    d.rgns.any (fun r => (d.rgnKind r == 6 || d.rgnKind r == 9) && decide (d.rgnBase r ≤ a) && decide (a + n ≤ d.rgnEnd r) && d.rgnMask r write 6))

def Dev.bufRead (d : Dev) (a n : Nat) : Dev × Option (List Byte) := if d.bufferOk a n false then d.memRead .host a n else (d, none)
def Dev.bufWrite (d : Dev) (a : Nat) (bs : List Byte) : Dev × Bool := if d.bufferOk a bs.length true then d.memWrite .host a bs else (d, false)

/-- Done with the bytes in the host's buffer, or malformed where it cannot take them. -/
def Dev.writeOut (d : Dev) (e : HostEntry) (a : Nat) (bs : List Byte) (res : List Word) : Dev :=
  match d.bufWrite a bs with
  | (d1, true) => d1.finish e 0 0 res
  | (d1, false) => d1.malformed e

/-! ## Firmware (R407, R421, R422) -/

def fwMagic : Nat := 0x57465147
def slotBytes : Nat := 24 * 2 ^ 20

/-- The header that the bytes of slot B show. -/
def headerOfSlot (m : Sparse Byte) (sound : Bool) : FwImage :=
  let n := fun (o w : Nat) => ofBytes ((List.range w).map (fun i => Sparse.get (fun _ => 0xFF#8) m (o + i)))
  ⟨w32 (n 4 4), BitVec.ofNat 16 (n 8 2), BitVec.ofNat 8 (n 10 1), BitVec.ofNat 8 (n 11 1), BitVec.ofNat 16 (n 12 2), w32 (n 16 4),
    sound && n 0 4 == fwMagic && decide (n 16 4 ≤ slotBytes - 4096), BitVec.ofNat 512 (n 20 64)⟩

/-- Slot B as a verification leaves it: what was written since the last one counts. -/
def Dev.verifyB (d : Dev) (v : Verdict) : Dev :=
  let ok := v.digestOk && v.sigOk
  let i := if d.bos.slotB = [] then { d.bos.fwB with sound := d.bos.fwB.sound && ok } else headerOfSlot d.bos.slotB ok
  { d with bos := { d.bos with fwB := i } }

def Dev.bValid (d : Dev) : Bool := fwValid d.bos.fwB d.bos.man.minSvn

/-- FW_INFO: VERSIONs, SVNs, validity in bits 0 and 1, the slot booted in bit 2. -/
def Dev.fwInfo (d : Dev) (e : HostEntry) : Dev :=
  let a := d.bos.fwA
  let b := d.bos.fwB
  d.finish e 0 0 [a.version, b.version, w32 (a.svn.toNat + b.svn.toNat * 2 ^ 16),
    w32 (b2n (fwValid a d.bos.man.minSvn) + 2 * b2n d.bValid + 4 * d.fld Reg.bosBootStatus F.bosBootStatusSlot)]

def Dev.fwWrite (d : Dev) (e : HostEntry) : Dev :=
  let off := e.arg 8 4
  let n := e.arg 12 4
  if off % 4096 ≠ 0 ∨ 2 ^ 20 < n ∨ slotBytes < off + n then d.malformed e
  else match d.bufRead (e.arg 0 8) n with
  | (d1, none) => d1.malformed e
  | (d1, some bs) =>
    { d1 with bos := { d1.bos with
      slotB := bs.zipIdx.foldl (fun (m : Sparse Byte) (x : Byte × Nat) => Sparse.set (fun _ => 0xFF#8) m (off + x.2) x.1) d1.bos.slotB,
      fwB := { d1.bos.fwB with sound := false } } }.finish e 0 0 []

def Dev.fwVerify (d : Dev) (e : HostEntry) (v : Verdict) : Dev :=
  let d := d.verifyB v
  if d.bValid then d.finish e 0 0 [] else d.finish e 1 8 []

/-- FW_ACTIVATE: slot A is invalid until the copy has been verified. -/
def Dev.fwActivate (d : Dev) (e : HostEntry) (v : Verdict) : Dev :=
  let d := d.verifyB v
  if d.bValid then { d with bos := { d.bos with fwA := { d.bos.fwA with sound := false } } }.pend e else d.finish e 1 8 []

/-- The copy has ended. -/
def Dev.fwActivated (d : Dev) (e : HostEntry) (v : Verdict) : Dev :=
  if v.digestOk && v.sigOk then { d with bos := { d.bos with fwA := d.bos.fwB, raiseSvn := (e.arg 0 1).testBit 0 } }.finish e 0 0 []
  else d.finish e 1 8 []

/-- WARM_RESET: the device resets; the boot that follows is RST_N_DEASSERT's (log entry 50). -/
def Dev.warmReset (d : Dev) (e : HostEntry) : Dev :=
  if d.jst = JobSt.idle ∨ d.jst = JobSt.failed then d.inReset false else d.wrongState e

def Dev.manifestRead (d : Dev) (e : HostEntry) : Dev :=
  d.writeOut e (e.arg 0 8) ((Config.manifestBytes d.bos.man.appends).take (e.arg 8 4)) []

/-! ## Attestation (R419, R420) -/

/-- The fields of an image's header, its BODY_DIGEST among them (R407). -/
def imageHeader (i : FwImage) : List Byte :=
  toBytes 4 i.version.toNat ++ toBytes 2 i.svn.toNat ++ [i.feature, i.proofLevel] ++ toBytes 2 i.linkLevels.toNat ++ toBytes 4 i.bodyBytes.toNat
    ++ toBytes 64 i.bodyDigest.toNat

/-- The measurements that depend on the state, indices 2, 3 and 5 to 10; the ROM and the manifest's base record are the part's
own. -/
def Dev.measures (d : Dev) : List (List Byte) :=
  [imageHeader d.bos.running, toBytes 4 (d.reg Reg.bosFwVersion) ++ toBytes 2 (d.fld Reg.bosFwSvn F.bosFwSvnSvn) ++ toBytes 1 (d.fld Reg.bosBootStatus F.bosBootStatusSlot),
   Config.manifestBytes d.bos.man.appends,
   toBytes 2 d.bos.man.mapGen ++ (allYards.map (fun y => toBytes 4 (d.bos.man.yardWord y))).flatten,
   (match d.bos.man.owner with | some k => k | none => List.replicate 64 0), toBytes 4 (d.reg Reg.bosSec),
   d.bos.man.stepping :: Config.dieIds,
   (if d.bos.formeDigest = [] then List.replicate 64 0 else d.bos.formeDigest)]

def Dev.spdmAnswer (d : Dev) (req : List Byte) : List Byte := Config.spdmResponse req d.measures

def Dev.spdmCmd (d : Dev) (e : HostEntry) : Dev :=
  match d.bufRead (e.arg 0 8) (e.arg 8 4) with
  | (d1, none) => d1.malformed e
  | (d1, some req) => d1.writeOut e (e.arg 12 8) (d1.spdmAnswer req) []

/-- A request over MCTP on the SMBus. -/
def spdmRequest (req : List Byte) (d : Dev) : Dev := if d.smbusAnswers then d.send (.spdm (d.spdmAnswer req)) else d

/-! ## The owner (R423) -/

/-- Bytes the bosun reads of an enrolment or a release (log entry 13). -/
def requestBytes : Nat := 4096

def Dev.setOwner (d : Dev) (key : Option (List Byte)) (policy : Bool) : Dev :=
  let d := d.append { d.bos.man with owner := key, requireSigned := policy }
  (d.setFlag Reg.bosSec F.bosSecOwner key.isSome).setFlag Reg.bosSec F.bosSecRequireSigned policy

def Dev.ownerEnrol (d : Dev) (e : HostEntry) (v : Verdict) : Dev :=
  if d.jst ≠ JobSt.idle then d.wrongState e
  else match d.bufRead (e.arg 0 8) requestBytes with
  | (d1, none) => d1.malformed e
  | (d1, some b) =>
    if v.digestOk && (d1.bos.man.owner.isNone || (d1.bos.nonce.isSome && v.sigOk)) then
      (d1.setOwner (some (Config.enrolKey b)) (Config.enrolPolicy b)).finish e 0 0 []
    else d1.finish e 1 8 []

def Dev.ownerRelease (d : Dev) (e : HostEntry) (v : Verdict) : Dev :=
  if d.jst ≠ JobSt.idle then d.wrongState e
  else match d.bufRead (e.arg 0 8) requestBytes with
  | (d1, none) => d1.malformed e
  | (d1, some _) =>
    if v.sigOk && d1.bos.nonce.isSome then (d1.setOwner none false).finish e 0 0 [] else d1.finish e 1 8 []

/-! ## Debug (R425 to R428) -/

def Dev.debugNonce (d : Dev) (e : HostEntry) : Dev :=
  let st := d.jst
  if !(st = JobSt.idle ∨ st = JobSt.running ∨ st = JobSt.held ∨ st = JobSt.failed ∨ st = JobSt.loaded) then d.wrongState e
  else
    let lo := d.free
    let hi := lo.2.free
    let n : BitVec 128 := hi.1 ++ lo.1
    let d := { hi.2 with bos := { hi.2.bos with nonce := some n } }.setFlag Reg.bosSec F.bosSecNonceValid true
    d.writeOut e (e.arg 0 8) (toBytes 16 n.toNat ++ Config.nonceStatement n) []

/-- The nonce is consumed by the first authorisation that presents it. -/
def Dev.useNonce (d : Dev) (n : Nat) : Dev :=
  if d.bos.nonce.any (fun x => x.toNat == n) then { d with bos := { d.bos with nonce := none } }.setFlag Reg.bosSec F.bosSecNonceValid false else d

def authMagic : Nat := 0x47424444

/-- R425; `sigOk`: the signature is by the key that SIGNER must name. -/
def Dev.authOk (d : Dev) (b : List Byte) (sigOk : Bool) : Bool :=
  natAt b 0 4 == authMagic && natAt b 4 8 == d.reg64 Reg.bosSerialLo Reg.bosSerialHi && d.bos.nonce.any (fun n => n.toNat == natAt b 12 16)
    && decide (natAt b 28 1 < 16) && natAt b 29 1 == (if d.bos.man.owner.isSome then 0 else 1) && sigOk

def Dev.debugOpenCmd (d : Dev) (e : HostEntry) (v : Verdict) : Dev :=
  let st := d.jst
  if d.pwr.stopped ∨ st = JobSt.boot ∨ st = JobSt.clearing ∨ st = JobSt.debug ∨ d.flag Reg.bosSec F.bosSecDebug then d.wrongState e
  else match d.bufRead (e.arg 0 8) 576 with
  | (d1, none) => d1.malformed e
  | (d1, some b) =>
    let ok := d1.authOk b v.sigOk
    let d2 := d1.useNonce (natAt b 12 16)
    if !ok then d2.finish e 1 8 []
    else
      let d3 := { d2 with bos := { d2.bos with debugClear := true, debugScope := natAt b 28 1, debugSigner := natAt b 29 1 == 1 } }
      if d3.jobLoaded then d3.killNow e else ({ d3 with bos := { d3.bos with endReq := some e } }.pend e).startClear

def Dev.debugCloseCmd (d : Dev) (e : HostEntry) : Dev :=
  if d.jst = JobSt.debug then (d.pend e).closeDebug e else d.wrongState e

end Sys2Proof.Machine
end

