-- ==== Sys2Proof/Machine/SelfTest.lean ====
section
/-! DEFINITION. Sys2Proof/Machine/SelfTest.lean: self-test (R450), the spare's online test (R451), logbook and ageing reads
(R454), the PLDM state sensor (R449). -/

namespace Sys2Proof.Machine

/-! ## SELFTEST (R450) -/

def testExists (scope index : Nat) : Bool :=
  match scope with
  | 0 => true
  | 1 => decide (index < 64)
  | 2 => decide (index < 4)
  | 3 => decide (index < 4) || index == 0xFF
  | _ => false

def Dev.runTest (d : Dev) (e : HostEntry) (t : Nat × Nat) : Dev :=
  let d := { d with bos := { d.bos with btCur := some (t.1, t.2, some e) } }.pend e
  let r := Reg.bosBistStatus
  (((d.setFld r F.bosBistStatusScope t.1).setFld r F.bosBistStatusIndex (min t.2 0x3F)).testPorts t.1 t.2).showTests

def Dev.queueTest (d : Dev) (e : HostEntry) (t : Nat × Nat) : Dev :=
  if 8 ≤ d.bos.btq.length then d.finish e 1 0 []
  else ({ d with bos := { d.bos with btq := d.bos.btq ++ [t] } }.showTests).finish e 0 0 [1]

def Dev.selftestCmd (d : Dev) (e : HostEntry) : Dev :=
  let t := (e.arg 0 1, e.arg 1 1)
  if d.jst = JobSt.boot ∨ d.jst = JobSt.clearing then d.wrongState e
  else if !testExists t.1 t.2 then d.malformed e
  else if d.jobLoaded then
    if t.1 = 0 then d.wrongState e
    else if t.1 = 1 ∧ d.yardFurled t.2 ∧ d.bos.btCur.isNone then d.runTest e t
    else d.queueTest e t
  else if d.bos.btCur.isSome then d.queueTest e t
  else d.runTest e t

/-- SELFTEST_COMPLETE: the test that runs has ended: units and hold addresses that failed. What has failed is fenced, and with
no job loaded steps 4 and 5 follow at once (R440). -/
def execSelftestComplete (fails pages : List Nat) : State → Host.Outcome State Fault Refusal :=
  onDev (fun d =>
    match d.bos.btCur with
    | none => d
    | some (s, i, req) =>
      let d := ({ d with bos := { d.bos with btCur := none } }.testDone (s, i) fails pages).showTests.settle1 []
      match req with
      | some e => d.finish e 0 0 [0]
      | none => d)

/-! ## The spare's online test (R451) -/

/-- Yards in service whose spare slot is an idle spare. -/
def Dev.hasSpare (d : Dev) (y : Nat) : Bool :=
  let h := d.bos.man.yardWord y
  yardStateOf h == 0 && decide (spareOf h < 24) && !furledIn h (spareOf h) && !d.pendingFurl (24 * y + spareOf h)
def Dev.spareSlot (d : Dev) (y : Nat) : Nat := 24 * y + spareOf (d.bos.man.yardWord y)
def Dev.testDeferred (d : Dev) : Bool := decide (2 ≤ d.fld Reg.pwrStatus F.pwrStatusReef) || d.pwr.warn

/-- A round of all 64 yards has ended. -/
def Dev.roundDone (d : Dev) : Dev := if d.bos.spare = [] ∧ d.bos.spareNext = 0 then d.incFld Reg.bosSpareTest F.bosSpareTestRounds 1 else d

/-- SPARE_TEST_ROUND: the next eight yards of the round, which begins every 600 s. -/
def execSpareTestRound : State → Host.Outcome State Fault Refusal :=
  onDev (fun d =>
    if d.jst = JobSt.boot ∨ d.jst = JobSt.clearing ∨ d.bos.spare ≠ [] then d
    else if d.testDeferred then d.setFlag Reg.bosSpareTest F.bosSpareTestDeferred true
    else
      let ys := ((List.range 8).map (d.bos.spareNext + ·)).filter (fun y => decide (y < 64) && d.hasSpare y)
      let d := d.setFlag Reg.bosSpareTest F.bosSpareTestDeferred false
      let d := ys.foldl (fun d y => d.setFld (Reg.tileIdent (d.spareSlot y)) F.tileIdentState 3) d
      let next := (d.bos.spareNext + 8) % 64
      Dev.roundDone { d with bos := { d.bos with spare := ys.map d.spareSlot, spareNext := next } })

/-- SPARE_TEST_END: the store of the slot under test is cleared, the slot an idle spare again; the second failure in a row fences it (R440). -/
def execSpareTestEnd (y : Yard) (pass : Bool) : State → Host.Outcome State Fault Refusal :=
  onDev (fun d =>
    match d.bos.spare.find? (fun p => p / 24 == y.val) with
    | none => d
    | some p =>
      let n := if pass then 0 else Sparse.get (fun _ => 0) d.bos.spareFails y + 1
      let d := (d.setFld (Reg.tileIdent p) F.tileIdentState 1).dropMem (fun a => decide (tileBase p ≤ a) && decide (a < tileBase p + 0x80000))
      let d := { d with bos := { d.bos with spare := d.bos.spare.filter (· != p),
                                            spareFails := Sparse.set (fun _ => 0) d.bos.spareFails y (if n = 2 then 0 else n) } }
      let d := (d.setFld Reg.bosSpareTest F.bosSpareTestLastYard y).roundDone
      if pass then d
      else
        let d := d.logEv 6 1 p 1 []
        if n = 2 then (d.fenceSlot p).settle1 [] else d)

/-! ## Reads -/

def Dev.selftestStatus (d : Dev) (e : HostEntry) : Dev :=
  d.finish e 0 0 [w32 (d.reg Reg.bosBistStatus), w32 (d.reg Reg.bosBistFails), w32 (d.reg Reg.bosBistFirst)]

/-- LOG_INFO: oldest and newest SEQ, pinned count; three 64-bit values do not fit, so both SEQs by their lower 32 bits, then the
count (log entry 51). -/
def Dev.logInfo (d : Dev) (e : HostEntry) : Dev :=
  let ol := d.reg64 Reg.bosLogOldestLo Reg.bosLogOldestHi
  let nw := d.reg64 Reg.bosLogNewestLo Reg.bosLogNewestHi
  d.finish e 0 0 [w32 ol, w32 nw, w32 d.bos.pinned.length, w32 (ol / 2 ^ 32 % 2 ^ 16 + nw / 2 ^ 32 % 2 ^ 16 * 2 ^ 16)]

/-- LOG_READ: entries from the first SEQ on, the ring before the pinned area. -/
def Dev.logRead (d : Dev) (e : HostEntry) : Dev :=
  let first := e.arg 8 8
  let n := e.arg 16 4
  if 65536 < n then d.malformed e
  else
    let isPinned := fun (x : LogEntry) => d.bos.pinned.any (fun p => p.seq == x.seq)
    let all := (d.bos.log.filter (fun x => decide (first ≤ x.seq))).map (fun x => x.bytes (isPinned x))
      ++ (d.bos.pinned.filter (fun x => decide (first ≤ x.seq))).map (fun x => x.bytes true)
    d.writeOut e (e.arg 0 8) (all.take n).flatten [w32 (all.take n).length]

/-- The PLDM health state: 1 normal, 2 non-critical, 3 critical, 4 fatal (R449). -/
def Dev.health (d : Dev) : Nat :=
  let c := d.reg Reg.devReplace % 2 ^ 9
  if d.bos.halted then 4 else if c.testBit 6 || d.jst == JobSt.failed then 3 else if c ≠ 0 then 2 else 1

def Dev.replaceStatus (d : Dev) (e : HostEntry) : Dev := d.finish e 0 0 [w32 (d.reg Reg.devReplace), w32 d.health]

/-- AGE_READ: per island its DEV_AGE_DATA, with DEV_AGE_WORST behind it. -/
def Dev.ageRead (d : Dev) (e : HostEntry) : Dev :=
  let rows := islandsAged.map (fun i => toBytes 4 (d.setReg Reg.devAgeSel i).ageData ++ toBytes 4 (d.reg Reg.devAgeWorst))
  d.writeOut e (e.arg 0 8) rows.flatten []

/-- PLDM_STATE_SENSOR_READ. -/
def execPldmStateSensorRead : State → Host.Outcome State Fault Refusal :=
  onDev (fun d => if d.smbusAnswers || d.bos.halted then d.send (.pldmState d.health) else d)

end Sys2Proof.Machine
end

