-- ==== Sys2Proof/Machine/Jobs.lean ====
section
/-! DEFINITION. Sys2Proof/Machine/Jobs.lean: the host's commands (R384, R388 to R395, R400, R421, R454): which may start, what each
does, when a pending one completes; host-port requests (R380). -/

namespace Sys2Proof.Machine

/-! ## The commands by opcode -/

/-- LOAD (R394); in CLEARING a mailbox LOAD waits for IDLE (R400). -/
def Dev.loadCmd (d : Dev) (e : HostEntry) (v : Verdict) : Dev :=
  if d.jst = JobSt.clearing ∧ e.q.src = .mailbox then { d with host := { d.host with loadWait := some e } }.pend e
  else if ¬(d.jst = JobSt.idle ∨ d.jst = JobSt.debug) then d.wrongState e
  else match d.load (e.arg 0 8) (e.arg 8 8) ((e.args.drop 16).take 32) ((e.arg 48 1).testBit 0) v with
  | (d1, some c) => d1.finish e 1 c []
  | (d1, none) => d1.pend e

/-- START (R395). -/
def Dev.startCmd (d : Dev) (e : HostEntry) : Dev :=
  if d.jst ≠ JobSt.loaded ∨ !d.mayStart then d.wrongState e
  else
    let source := e.arg 4 1
    match formeTables d (sectionsOf d d.job.formeAddr) with
    | none => d.finish e 1 6 []
    | some t =>
      match d.startRefusal t source (startStep e) with
      | some c => d.finish e 1 c (d.refusalResult c)
      | none => (d.pend e).startJob t e source (startStep e)

/-- HOSTMSG: a broadcast to the step CT, which answers by itself (R392). -/
def Dev.hostMsg (d : Dev) (e : HostEntry) : Dev :=
  if d.jst = JobSt.running ∨ d.jst = JobSt.held then (d.pend e).hostEvent (eventWord 1 e.q.idx 0) else d.wrongState e

def Dev.statusCmd (d : Dev) (e : HostEntry) : Dev :=
  d.finish e 0 0 [w32 (d.reg Reg.hstJob), d.step, w32 (d.reg Reg.pressProofJobstep), w32 (d.reg Reg.hstStatus)]

/-- PROOF_QUERY (R390). -/
def Dev.proofQuery (d : Dev) (e : HostEntry) : Dev :=
  let stepOf := fun (b : Option (List Byte)) => match b with | some x => recStep x | none => noStep
  d.finish e 0 0 [stepOf d.offerL, stepOf d.offerP, match d.mirrorHeld with | some m => m.1 | none => noStep,
    match d.mirrorHeld with | some m => w32 m.2 | none => noStep]

/-- PROOF_EXPORT: the newest record, the slot it names and the mirror's head go to the adapter (R341). -/
def Dev.proofExport (d : Dev) (e : HostEntry) : Dev :=
  let a := e.arg 0 8
  if d.jst ≠ JobSt.idle then d.wrongState e
  else if !d.bos.retained.any (fun r => r.digest == Config.sha512 ((e.args.drop 16).take 32)) then d.finish e 5 0 []
  else match d.offerL with
  | none => d.finish e 1 0xA []
  | some b =>
    let n := match d.rgnOf (recLive b) with | some r => d.rgnBytes r | none => 0
    let d := (d.send (.exportData a b)).send (.exportData (a + 64) (d.bytes (d.slotAt (recLive b)) n))
    let d := match d.rgnOf 2 with | some r => d.send (.exportData (a + 64 + n) (d.bytes (d.rgnBase r) 256)) | none => d
    d.finish e 0 0 []

/-- The bosun carries out a command. The firmware answers from BOSUN_READY on; commands that exclude BOOT answer 0x02 there. -/
def Dev.runCmd (d : Dev) (e : HostEntry) (v : Verdict) : Dev :=
  let live := fun (f : Dev) => if d.jst = JobSt.boot then d.wrongState e else f
  if e.args.length ≠ 56 then d.malformed e
  else match e.opcode with
  | 0x01 => d.finish e 0 0 []
  | 0x02 => d.statusCmd e
  | 0x10 => d.loadCmd e v
  | 0x11 => d.startCmd e
  | 0x12 => d.endJob e
  | 0x13 => d.killJob e
  | 0x14 => d.resumeJob e
  | 0x15 => d.hostMsg e
  | 0x20 => d.proofQuery e
  | 0x21 => d.proofExport e
  | 0x30 => d.selftestCmd e
  | 0x31 => d.selftestStatus e
  | 0x34 => d.logInfo e
  | 0x35 => d.logRead e
  | 0x36 => d.replaceStatus e
  | 0x37 => d.ageRead e
  | 0x40 => live (d.fwInfo e)
  | 0x41 => live (d.fwWrite e)
  | 0x42 => live (d.fwVerify e v)
  | 0x43 => live (d.fwActivate e v)
  | 0x44 => d.warmReset e
  | 0x48 => live (d.manifestRead e)
  | 0x50 => live (d.spdmCmd e)
  | 0x52 => d.ownerEnrol e v
  | 0x53 => d.ownerRelease e v
  | 0x58 => d.debugNonce e
  | 0x59 => d.debugOpenCmd e v
  | 0x5A => d.debugCloseCmd e
  | _ => d.malformed e

/-! ## Which command starts (R384) -/

/-- KILL and the queries never wait. -/
def neverWaits (op : Nat) : Bool := [0x13, 0x01, 0x02, 0x20, 0x31, 0x34, 0x36, 0x40].contains op

/-- A command reaches the bosun: it starts, or waits behind the unfinished one of its own path. -/
def Dev.submit (d : Dev) (e : HostEntry) (v : Verdict) : Dev :=
  if !d.flag Reg.bosBootStatus F.bosBootStatusBosunReady then d
  else
    let busy := match e.q.src with
      | .ring => d.host.cur.isSome || d.host.waiting != []
      | .mailbox => d.host.mbCur.isSome || d.host.mbWaiting.isSome
    if neverWaits e.opcode || !busy then d.runCmd e v
    else match e.q.src with
      | .ring => { d with host := { d.host with waiting := d.host.waiting ++ [e] } }
      | .mailbox => if d.host.mbWaiting.isSome then d else { d with host := { d.host with mbWaiting := some e } }

/-- The waiting command that starts next: the mailbox's, then the ring's oldest, with those that never wait let through. -/
def Dev.dispatch (d : Dev) (v : Verdict) : Dev :=
  let ring := if d.clearing then none
    else if d.host.cur.isNone then d.host.waiting.head? else d.host.waiting.find? (fun e => neverWaits e.opcode)
  match d.host.mbWaiting.filter (fun e => d.host.mbCur.isNone || neverWaits e.opcode) with
  | some e => { d with host := { d.host with mbWaiting := none } }.runCmd e v
  | none =>
    match ring with
    | some e => { d with host := { d.host with waiting := d.host.waiting.erase e } }.runCmd e v
    | none => d

/-- RING_COMMAND_DISPATCH. -/
def execRingCommandDispatch (v : Verdict) : State → Host.Outcome State Fault Refusal :=
  onDev (fun d => if d.flag Reg.bosBootStatus F.bosBootStatusBosunReady then d.dispatch v else d)

/-! ## Completion (R389) -/

/-- What completes a pending command, when its condition holds: LOADED; the first release; the next release; slot A copied; or
the job's failure (R390). -/
def Dev.doneWith (d : Dev) (e : HostEntry) (v : Verdict) : Option Dev :=
  let failed := d.jst == JobSt.failed
  let runs := d.jst == JobSt.running || d.jst == JobSt.held || d.jst == JobSt.draining
  match e.opcode with
  | 0x10 => if d.jst = JobSt.loading then some (d.loaded.finish e 0 0 []) else none
  | 0x11 => if failed then some (d.finish e 6 0 [] d.step) else if runs && !d.hal.first then some (d.finish e 0 0 [] d.step) else none
  | 0x14 => if failed then some (d.finish e 6 0 [] d.step) else if runs && d.step != w32 (e.arg 0 4) then some (d.finish e 0 0 [] d.step) else none
  | 0x15 => if failed then some (d.finish e 6 0 []) else none
  | 0x43 => some (d.fwActivated e v)
  | _ => none

/-- COMMAND_COMPLETE: the pending command whose condition holds, the mailbox's before the ring's. -/
def execCommandComplete (v : Verdict) : State → Host.Outcome State Fault Refusal :=
  onDev (fun d =>
    match d.host.mbCur.bind (fun e => d.doneWith e v) with
    | some d1 => d1
    | none =>
      match d.host.cur.bind (fun e => d.doneWith e v) with
      | some d1 => d1
      | none => d)

/-- PENDING_LOAD_START: the mailbox LOAD that waited for IDLE (R400). -/
def execPendingLoadStart (v : Verdict) : State → Host.Outcome State Fault Refusal :=
  onDev (fun d =>
    match d.host.loadWait with
    | none => d
    | some e => if d.jst = JobSt.idle ∨ d.jst = JobSt.debug then { d with host := { d.host with loadWait := none } }.loadCmd e v else d)

/-! ## The command rows -/

/-- An entry with its argument bytes. -/
def hostCmd (q : CmdHdr) (op : Nat) (args : List Byte) : HostEntry := ⟨q, op, args ++ List.replicate (56 - args.length) 0⟩
def noVerdict : Verdict := ⟨false, false⟩

/-- NOP. -/
def execNop (q : CmdHdr) : State → Host.Outcome State Fault Refusal := onDev (fun d => d.submit (hostCmd q 0x01 []) noVerdict)
/-- STATUS. -/
def execStatus (q : CmdHdr) : State → Host.Outcome State Fault Refusal := onDev (fun d => d.submit (hostCmd q 0x02 []) noVerdict)
/-- LOAD. -/
def execLoad (q : CmdHdr) (addr bytes : DWord) (token : BitVec 256) (retain : Bool) (v : Verdict) : State → Host.Outcome State Fault Refusal :=
  onDev (fun d => d.submit (hostCmd q 0x10 (toBytes 8 addr.toNat ++ toBytes 8 bytes.toNat ++ toBytes 32 token.toNat ++ toBytes 1 (b2n retain))) v)
/-- START. -/
def execStart (q : CmdHdr) (step : Word) (source : Byte) (v : Verdict) : State → Host.Outcome State Fault Refusal :=
  onDev (fun d => d.submit (hostCmd q 0x11 (toBytes 4 step.toNat ++ [source])) v)
/-- END. -/
def execEndJob (q : CmdHdr) (last : Word) : State → Host.Outcome State Fault Refusal :=
  onDev (fun d => d.submit (hostCmd q 0x12 (toBytes 4 last.toNat)) noVerdict)
/-- KILL. -/
def execKill (q : CmdHdr) : State → Host.Outcome State Fault Refusal := onDev (fun d => d.submit (hostCmd q 0x13 []) noVerdict)
/-- RESUME. -/
def execResume (q : CmdHdr) : State → Host.Outcome State Fault Refusal := onDev (fun d => d.submit (hostCmd q 0x14 []) noVerdict)
/-- HOSTMSG. -/
def execHostmsg (q : CmdHdr) (body : List Byte) : State → Host.Outcome State Fault Refusal :=
  onDev (fun d => d.submit (hostCmd q 0x15 body) noVerdict)
/-- PROOF_QUERY. -/
def execProofQuery (q : CmdHdr) : State → Host.Outcome State Fault Refusal := onDev (fun d => d.submit (hostCmd q 0x20 []) noVerdict)
/-- PROOF_EXPORT. -/
def execProofExport (q : CmdHdr) (addr : DWord) (token : BitVec 256) : State → Host.Outcome State Fault Refusal :=
  onDev (fun d => d.submit (hostCmd q 0x21 (toBytes 8 addr.toNat ++ List.replicate 8 0 ++ toBytes 32 token.toNat)) noVerdict)
/-- FW_INFO. -/
def execFwInfo (q : CmdHdr) : State → Host.Outcome State Fault Refusal := onDev (fun d => d.submit (hostCmd q 0x40 []) noVerdict)
/-- FW_WRITE. -/
def execFwWrite (q : CmdHdr) (buf : DWord) (off bytes : Word) : State → Host.Outcome State Fault Refusal :=
  onDev (fun d => d.submit (hostCmd q 0x41 (toBytes 8 buf.toNat ++ toBytes 4 off.toNat ++ toBytes 4 bytes.toNat)) noVerdict)
/-- FW_VERIFY. -/
def execFwVerify (q : CmdHdr) (v : Verdict) : State → Host.Outcome State Fault Refusal := onDev (fun d => d.submit (hostCmd q 0x42 []) v)
/-- FW_ACTIVATE. -/
def execFwActivate (q : CmdHdr) (raise : Bool) (v : Verdict) : State → Host.Outcome State Fault Refusal :=
  onDev (fun d => d.submit (hostCmd q 0x43 (toBytes 1 (b2n raise))) v)
/-- WARM_RESET. -/
def execWarmReset (q : CmdHdr) : State → Host.Outcome State Fault Refusal := onDev (fun d => d.submit (hostCmd q 0x44 []) noVerdict)
/-- MANIFEST_READ. -/
def execManifestRead (q : CmdHdr) (buf : DWord) (bytes : Word) : State → Host.Outcome State Fault Refusal :=
  onDev (fun d => d.submit (hostCmd q 0x48 (toBytes 8 buf.toNat ++ toBytes 4 bytes.toNat)) noVerdict)
/-- SPDM. -/
def execSpdm (q : CmdHdr) (req : DWord) (bytes : Word) (resp : DWord) : State → Host.Outcome State Fault Refusal :=
  onDev (fun d => d.submit (hostCmd q 0x50 (toBytes 8 req.toNat ++ toBytes 4 bytes.toNat ++ toBytes 8 resp.toNat)) noVerdict)
/-- OWNER_ENROL. -/
def execOwnerEnrol (q : CmdHdr) (buf : DWord) (v : Verdict) : State → Host.Outcome State Fault Refusal :=
  onDev (fun d => d.submit (hostCmd q 0x52 (toBytes 8 buf.toNat)) v)
/-- OWNER_RELEASE. -/
def execOwnerRelease (q : CmdHdr) (buf : DWord) (v : Verdict) : State → Host.Outcome State Fault Refusal :=
  onDev (fun d => d.submit (hostCmd q 0x53 (toBytes 8 buf.toNat)) v)
/-- DEBUG_NONCE. -/
def execDebugNonce (q : CmdHdr) (buf : DWord) : State → Host.Outcome State Fault Refusal :=
  onDev (fun d => d.submit (hostCmd q 0x58 (toBytes 8 buf.toNat)) noVerdict)
/-- DEBUG_OPEN. -/
def execDebugOpen (q : CmdHdr) (buf : DWord) (v : Verdict) : State → Host.Outcome State Fault Refusal :=
  onDev (fun d => d.submit (hostCmd q 0x59 (toBytes 8 buf.toNat)) v)
/-- DEBUG_CLOSE. -/
def execDebugClose (q : CmdHdr) : State → Host.Outcome State Fault Refusal := onDev (fun d => d.submit (hostCmd q 0x5A []) noVerdict)
/-- SELFTEST. -/
def execSelftest (q : CmdHdr) (scope index : Byte) : State → Host.Outcome State Fault Refusal :=
  onDev (fun d => d.submit (hostCmd q 0x30 [scope, index]) noVerdict)
/-- SELFTEST_STATUS. -/
def execSelftestStatus (q : CmdHdr) : State → Host.Outcome State Fault Refusal := onDev (fun d => d.submit (hostCmd q 0x31 []) noVerdict)
/-- LOG_INFO. -/
def execLogInfo (q : CmdHdr) : State → Host.Outcome State Fault Refusal := onDev (fun d => d.submit (hostCmd q 0x34 []) noVerdict)
/-- LOG_READ. -/
def execLogRead (q : CmdHdr) (buf : DWord) (first : DWord) (n : Word) : State → Host.Outcome State Fault Refusal :=
  onDev (fun d => d.submit (hostCmd q 0x35 (toBytes 8 buf.toNat ++ toBytes 8 first.toNat ++ toBytes 4 n.toNat)) noVerdict)
/-- REPLACE_STATUS. -/
def execReplaceStatus (q : CmdHdr) : State → Host.Outcome State Fault Refusal := onDev (fun d => d.submit (hostCmd q 0x36 []) noVerdict)
/-- AGE_READ. -/
def execAgeRead (q : CmdHdr) (buf : DWord) : State → Host.Outcome State Fault Refusal :=
  onDev (fun d => d.submit (hostCmd q 0x37 (toBytes 8 buf.toNat)) noVerdict)

/-! ## SPDM over the SMBus (R419, R420) -/

/-- GET_VERSION. -/
def execGetVersion (req : List Byte) : State → Host.Outcome State Fault Refusal := onDev (spdmRequest req)
/-- GET_CAPABILITIES. -/
def execGetCapabilities (req : List Byte) : State → Host.Outcome State Fault Refusal := onDev (spdmRequest req)
/-- NEGOTIATE_ALGORITHMS. -/
def execNegotiateAlgorithms (req : List Byte) : State → Host.Outcome State Fault Refusal := onDev (spdmRequest req)
/-- GET_DIGESTS. -/
def execGetDigests (req : List Byte) : State → Host.Outcome State Fault Refusal := onDev (spdmRequest req)
/-- GET_CERTIFICATE. -/
def execGetCertificate (req : List Byte) : State → Host.Outcome State Fault Refusal := onDev (spdmRequest req)
/-- CHALLENGE. -/
def execChallenge (req : List Byte) : State → Host.Outcome State Fault Refusal := onDev (spdmRequest req)
/-- GET_MEASUREMENTS. -/
def execGetMeasurements (req : List Byte) : State → Host.Outcome State Fault Refusal := onDev (spdmRequest req)

/-! ## Host-port requests (R380) -/

/-- Tile stores and case memory are closed to the host but in debug with scope bit 0 (R427). -/
def Dev.hostMay (d : Dev) (a n : Nat) : Bool :=
  match placeOf a n with
  | .store _ => d.debugOpen 0
  | .case_ _ => d.debugOpen 0
  | _ => true

def Dev.hostRead (d : Dev) (a n : Nat) : Dev × Option (List Byte) :=
  if inCtl a then
    if n = 4 then
      let r := d.ctlRead .host (a - ctlLo)
      (r.1, r.2.map (fun v => toBytes 4 v.toNat))
    else (d, none)
  else if d.hostMay a n then d.memRead .host a n else (d, none)

def Dev.hostWrite (d : Dev) (a : Nat) (bs : List Byte) : Dev × Bool :=
  if inCtl a then (if bs.length = 4 then d.ctlWrite .host (a - ctlLo) (w32 (ofBytes bs)) else (d, false))
  else if d.hostMay a bs.length then d.memWrite .host a bs else (d, false)

/-- HOST_PORT_REQUEST. -/
def execHostPortRequest (q : HostReq) : State → Host.Outcome State Fault Refusal :=
  onDev (fun d =>
    if !d.flag Reg.hstStatus F.hstStatusUp then d
    else match q with
    | .read a n =>
      let r := d.hostRead a n
      r.1.send (.hostData r.2.isSome (r.2.getD []))
    | .write a bs =>
      let r := d.hostWrite a bs
      r.1.send (.hostData r.2 [])
    | .gadd a w v =>
      if inCtl a || !d.hostMay a w || !(w == 4 || w == 8) || a % w != 0 then d.send (.hostData false [])
      else
        let r := d.memGadd .host a w v
        r.1.send (.hostData r.2.isSome (match r.2 with | some x => toBytes w x | none => [])))

end Sys2Proof.Machine
end

