-- ==== Sys2Proof/Machine/Scalar.lean ====
section
/-! DEFINITION. Sys2Proof/Machine/Scalar.lean: the scalar instructions, register and immediate, and the predicate functions
(R139, R140). -/

namespace Sys2Proof.Machine

/-- sD = sA op sB. -/
def scalarRR (h : Iss) (i : Instr) (fn : Nat) (d a b : R5) (op : DWord → DWord → DWord) : State → Host.Outcome State Fault Refusal :=
  tileInstr h i { cls := 0x01, fn := fn, s := [d, a, b] } (fun dev k _ => .done (dev.putS h d (op (k.sreg a) (k.sreg b))))

/-- p(D) = sA op sB in all 128 bits; D[4:3] must be 0. -/
def compareRR (h : Iss) (i : Instr) (fn : Nat) (d a b : R5) (op : DWord → DWord → Bool) : State → Host.Outcome State Fault Refusal :=
  tileInstr h i { cls := 0x01, fn := fn, legal := isP d, s := [a, b] }
    (fun dev k _ => .done (dev.putP h d (allBits (op (k.sreg a) (k.sreg b)))))

/-- sD = sA op immediate, sign-extended. -/
def scalarRI (h : Iss) (i : Instr) (fn : Nat) (d a : R5) (imm : Imm) (op : DWord → DWord → DWord) : State → Host.Outcome State Fault Refusal :=
  tileInstr h i { cls := 0x02, fn := fn, long := immLong imm, s := [d, a] }
    (fun dev k _ => .done (dev.putS h d (op (k.sreg a) (immSext imm))))

/-- p(D) = sA op immediate. -/
def compareRI (h : Iss) (i : Instr) (fn : Nat) (d a : R5) (imm : Imm) (op : DWord → DWord → Bool) : State → Host.Outcome State Fault Refusal :=
  tileInstr h i { cls := 0x02, fn := fn, long := immLong imm, legal := isP d, s := [a] }
    (fun dev k _ => .done (dev.putP h d (allBits (op (k.sreg a) (immSext imm)))))

/-- p(D) from p(A) and p(B); bits [4:3] of each field must be 0. -/
def predRR (h : Iss) (i : Instr) (fn : Nat) (d a b : R5) (op : Pred → Pred → Pred) : State → Host.Outcome State Fault Refusal :=
  tileInstr h i { cls := 0x05, fn := fn, legal := isP d && isP a && isP b }
    (fun dev k _ => .done (dev.putP h d (op (k.preg a) (k.preg b))))

/-- Shifts use the low 6 bits of the count (R139). -/
def count6 (x : DWord) : Nat := x.toNat % 64

/-- ADD (R139). -/
def execAdd (h : Iss) (d a b : R5) : State → Host.Outcome State Fault Refusal :=
  scalarRR h (.add h d a b) 0x0 d a b (fun x y => x + y)

/-- SUB (R139). -/
def execSub (h : Iss) (d a b : R5) : State → Host.Outcome State Fault Refusal :=
  scalarRR h (.sub h d a b) 0x1 d a b (fun x y => x - y)

/-- AND (R139). -/
def execAnd (h : Iss) (d a b : R5) : State → Host.Outcome State Fault Refusal :=
  scalarRR h (.and h d a b) 0x2 d a b (fun x y => x &&& y)

/-- OR (R139). -/
def execOr (h : Iss) (d a b : R5) : State → Host.Outcome State Fault Refusal :=
  scalarRR h (.or h d a b) 0x3 d a b (fun x y => x ||| y)

/-- XOR (R139). -/
def execXor (h : Iss) (d a b : R5) : State → Host.Outcome State Fault Refusal :=
  scalarRR h (.xor h d a b) 0x4 d a b (fun x y => x ^^^ y)

/-- SHL (R139). -/
def execShl (h : Iss) (d a b : R5) : State → Host.Outcome State Fault Refusal :=
  scalarRR h (.shl h d a b) 0x5 d a b (fun x y => x <<< count6 y)

/-- SHR (R139). -/
def execShr (h : Iss) (d a b : R5) : State → Host.Outcome State Fault Refusal :=
  scalarRR h (.shr h d a b) 0x6 d a b (fun x y => x >>> count6 y)

/-- SRA (R139). -/
def execSra (h : Iss) (d a b : R5) : State → Host.Outcome State Fault Refusal :=
  scalarRR h (.sra h d a b) 0x7 d a b (fun x y => x.sshiftRight (count6 y))

/-- MUL (R139). -/
def execMul (h : Iss) (d a b : R5) : State → Host.Outcome State Fault Refusal :=
  scalarRR h (.mul h d a b) 0x8 d a b (fun x y => x * y)

/-- MULHU (R139). -/
def execMulhu (h : Iss) (d a b : R5) : State → Host.Outcome State Fault Refusal :=
  scalarRR h (.mulhu h d a b) 0x9 d a b (fun x y => BitVec.ofNat 64 (x.toNat * y.toNat / 2 ^ 64))

/-- MIN (R139). -/
def execMin (h : Iss) (d a b : R5) : State → Host.Outcome State Fault Refusal :=
  scalarRR h (.min h d a b) 0xa d a b (fun x y => if x.slt y then x else y)

/-- MAX (R139). -/
def execMax (h : Iss) (d a b : R5) : State → Host.Outcome State Fault Refusal :=
  scalarRR h (.max h d a b) 0xb d a b (fun x y => if x.slt y then y else x)

/-- MINU (R139). -/
def execMinu (h : Iss) (d a b : R5) : State → Host.Outcome State Fault Refusal :=
  scalarRR h (.minu h d a b) 0xc d a b (fun x y => if x.ult y then x else y)

/-- MAXU (R139). -/
def execMaxu (h : Iss) (d a b : R5) : State → Host.Outcome State Fault Refusal :=
  scalarRR h (.maxu h d a b) 0xd d a b (fun x y => if x.ult y then y else x)

/-- CMPEQ (R139). -/
def execCmpeq (h : Iss) (d a b : R5) : State → Host.Outcome State Fault Refusal :=
  compareRR h (.cmpeq h d a b) 0x10 d a b (fun x y => x == y)

/-- CMPNE (R139). -/
def execCmpne (h : Iss) (d a b : R5) : State → Host.Outcome State Fault Refusal :=
  compareRR h (.cmpne h d a b) 0x11 d a b (fun x y => x != y)

/-- CMPLT (R139). -/
def execCmplt (h : Iss) (d a b : R5) : State → Host.Outcome State Fault Refusal :=
  compareRR h (.cmplt h d a b) 0x12 d a b (fun x y => x.slt y)

/-- CMPLE (R139). -/
def execCmple (h : Iss) (d a b : R5) : State → Host.Outcome State Fault Refusal :=
  compareRR h (.cmple h d a b) 0x13 d a b (fun x y => x.sle y)

/-- CMPLTU (R139). -/
def execCmpltu (h : Iss) (d a b : R5) : State → Host.Outcome State Fault Refusal :=
  compareRR h (.cmpltu h d a b) 0x14 d a b (fun x y => x.ult y)

/-- CMPLEU (R139). -/
def execCmpleu (h : Iss) (d a b : R5) : State → Host.Outcome State Fault Refusal :=
  compareRR h (.cmpleu h d a b) 0x15 d a b (fun x y => x.ule y)

/-- ADDI (R139). -/
def execAddi (h : Iss) (d a : R5) (imm : Imm) : State → Host.Outcome State Fault Refusal :=
  scalarRI h (.addi h d a imm) 0x0 d a imm (fun x y => x + y)

/-- ANDI (R139). -/
def execAndi (h : Iss) (d a : R5) (imm : Imm) : State → Host.Outcome State Fault Refusal :=
  scalarRI h (.andi h d a imm) 0x1 d a imm (fun x y => x &&& y)

/-- ORI (R139). -/
def execOri (h : Iss) (d a : R5) (imm : Imm) : State → Host.Outcome State Fault Refusal :=
  scalarRI h (.ori h d a imm) 0x2 d a imm (fun x y => x ||| y)

/-- XORI (R139). -/
def execXori (h : Iss) (d a : R5) (imm : Imm) : State → Host.Outcome State Fault Refusal :=
  scalarRI h (.xori h d a imm) 0x3 d a imm (fun x y => x ^^^ y)

/-- SHLI (R139). -/
def execShli (h : Iss) (d a : R5) (imm : Imm) : State → Host.Outcome State Fault Refusal :=
  scalarRI h (.shli h d a imm) 0x4 d a imm (fun x y => x <<< count6 y)

/-- SHRI (R139). -/
def execShri (h : Iss) (d a : R5) (imm : Imm) : State → Host.Outcome State Fault Refusal :=
  scalarRI h (.shri h d a imm) 0x5 d a imm (fun x y => x >>> count6 y)

/-- SRAI (R139). -/
def execSrai (h : Iss) (d a : R5) (imm : Imm) : State → Host.Outcome State Fault Refusal :=
  scalarRI h (.srai h d a imm) 0x6 d a imm (fun x y => x.sshiftRight (count6 y))

/-- MOVH: sD[63:32] = IMM32, sD[31:0] = sA[31:0]; long form only (R139). -/
def execMovh (h : Iss) (d a : R5) (imm : Imm) : State → Host.Outcome State Fault Refusal :=
  tileInstr h (.movh h d a imm) { cls := 0x02, fn := 7, long := immLong imm, legal := immLong imm, s := [d, a] }
    (fun dev k _ => .done (dev.putS h d ((immSext imm).setWidth 32 ++ (k.sreg a).setWidth 32)))

/-- CMPEQI (R139). -/
def execCmpeqi (h : Iss) (d a : R5) (imm : Imm) : State → Host.Outcome State Fault Refusal :=
  compareRI h (.cmpeqi h d a imm) 0x8 d a imm (fun x y => x == y)

/-- CMPNEI (R139). -/
def execCmpnei (h : Iss) (d a : R5) (imm : Imm) : State → Host.Outcome State Fault Refusal :=
  compareRI h (.cmpnei h d a imm) 0x9 d a imm (fun x y => x != y)

/-- CMPLTI (R139). -/
def execCmplti (h : Iss) (d a : R5) (imm : Imm) : State → Host.Outcome State Fault Refusal :=
  compareRI h (.cmplti h d a imm) 0xa d a imm (fun x y => x.slt y)

/-- CMPLTUI (R139). -/
def execCmpltui (h : Iss) (d a : R5) (imm : Imm) : State → Host.Outcome State Fault Refusal :=
  compareRI h (.cmpltui h d a imm) 0xb d a imm (fun x y => x.ult y)

/-- PAND (R140). -/
def execPand (h : Iss) (d a b : R5) : State → Host.Outcome State Fault Refusal :=
  predRR h (.pand h d a b) 0x5 d a b (fun x y => x &&& y)

/-- POR (R140). -/
def execPor (h : Iss) (d a b : R5) : State → Host.Outcome State Fault Refusal :=
  predRR h (.por h d a b) 0x6 d a b (fun x y => x ||| y)

/-- PXOR (R140). -/
def execPxor (h : Iss) (d a b : R5) : State → Host.Outcome State Fault Refusal :=
  predRR h (.pxor h d a b) 0x7 d a b (fun x y => x ^^^ y)

/-- PNOT (R140). -/
def execPnot (h : Iss) (d a : R5) : State → Host.Outcome State Fault Refusal :=
  predRR h (.pnot h d a) 0x8 d a 0 (fun x _ => ~~~ x)

/-- PANY (R140). -/
def execPany (h : Iss) (d a : R5) : State → Host.Outcome State Fault Refusal :=
  predRR h (.pany h d a) 0x9 d a 0 (fun x _ => allBits (x != 0))

/-- PALL (R140). -/
def execPall (h : Iss) (d a : R5) : State → Host.Outcome State Fault Refusal :=
  predRR h (.pall h d a) 0xa d a 0 (fun x _ => allBits (x == allOnes))

end Sys2Proof.Machine
end

