-- ==== Sys2Proof/Machine/Resume.lean ====
section
/-! DEFINITION. Sys2Proof/Machine/Resume.lean: a stalled instruction issues again (R134). -/

namespace Sys2Proof.Machine

/-- The meaning of a tile instruction; a command that is none leaves the device as it is. -/
def execTile : Instr → State → Host.Outcome State Fault Refusal
  | .add h d a b => execAdd h d a b
  | .sub h d a b => execSub h d a b
  | .and h d a b => execAnd h d a b
  | .or h d a b => execOr h d a b
  | .xor h d a b => execXor h d a b
  | .shl h d a b => execShl h d a b
  | .shr h d a b => execShr h d a b
  | .sra h d a b => execSra h d a b
  | .mul h d a b => execMul h d a b
  | .mulhu h d a b => execMulhu h d a b
  | .min h d a b => execMin h d a b
  | .max h d a b => execMax h d a b
  | .minu h d a b => execMinu h d a b
  | .maxu h d a b => execMaxu h d a b
  | .cmpeq h d a b => execCmpeq h d a b
  | .cmpne h d a b => execCmpne h d a b
  | .cmplt h d a b => execCmplt h d a b
  | .cmple h d a b => execCmple h d a b
  | .cmpltu h d a b => execCmpltu h d a b
  | .cmpleu h d a b => execCmpleu h d a b
  | .addi h d a imm => execAddi h d a imm
  | .andi h d a imm => execAndi h d a imm
  | .ori h d a imm => execOri h d a imm
  | .xori h d a imm => execXori h d a imm
  | .shli h d a imm => execShli h d a imm
  | .shri h d a imm => execShri h d a imm
  | .srai h d a imm => execSrai h d a imm
  | .movh h d a imm => execMovh h d a imm
  | .cmpeqi h d a imm => execCmpeqi h d a imm
  | .cmpnei h d a imm => execCmpnei h d a imm
  | .cmplti h d a imm => execCmplti h d a imm
  | .cmpltui h d a imm => execCmpltui h d a imm
  | .bra h off => execBra h off
  | .call h off => execCall h off
  | .jr h a => execJr h a
  | .nopInstruction h => execNopInstruction h
  | .halt h => execHalt h
  | .fence h => execFence h
  | .srd h d n => execSrd h d n
  | .pand h d a b => execPand h d a b
  | .por h d a b => execPor h d a b
  | .pxor h d a b => execPxor h d a b
  | .pnot h d a => execPnot h d a
  | .pany h d a => execPany h d a
  | .pall h d a => execPall h d a
  | .ldU8 h d a imm => execLdU8 h d a imm
  | .ldS8 h d a imm => execLdS8 h d a imm
  | .ldU16 h d a imm => execLdU16 h d a imm
  | .ldS16 h d a imm => execLdS16 h d a imm
  | .ldU32 h d a imm => execLdU32 h d a imm
  | .ldS32 h d a imm => execLdS32 h d a imm
  | .ld64 h d a imm => execLd64 h d a imm
  | .st8 h d a imm => execSt8 h d a imm
  | .st16 h d a imm => execSt16 h d a imm
  | .st32 h d a imm => execSt32 h d a imm
  | .st64 h d a imm => execSt64 h d a imm
  | .lxadd32 h d a imm => execLxadd32 h d a imm
  | .lxadd64 h d a imm => execLxadd64 h d a imm
  | .ldg32 h d a => execLdg32 h d a
  | .ldg64 h d a => execLdg64 h d a
  | .stg32 h a b => execStg32 h a b
  | .stg64 h a b => execStg64 h a b
  | .gadd32 h d a b => execGadd32 h d a b
  | .gadd64 h d a b => execGadd64 h d a b
  | .vldg h d a => execVldg h d a
  | .vstg h d a => execVstg h d a
  | .vadd h d a b lf rnd hi => execVadd h d a b lf rnd hi
  | .vsub h d a b lf rnd hi => execVsub h d a b lf rnd hi
  | .vmul h d a b lf rnd hi => execVmul h d a b lf rnd hi
  | .vfma h d a b lf rnd hi => execVfma h d a b lf rnd hi
  | .vmin h d a b lf rnd hi => execVmin h d a b lf rnd hi
  | .vmax h d a b lf rnd hi => execVmax h d a b lf rnd hi
  | .vabs h d a lf rnd hi => execVabs h d a lf rnd hi
  | .vneg h d a lf rnd hi => execVneg h d a lf rnd hi
  | .vcmpeq h d a b lf => execVcmpeq h d a b lf
  | .vcmpne h d a b lf => execVcmpne h d a b lf
  | .vcmplt h d a b lf => execVcmplt h d a b lf
  | .vcmple h d a b lf => execVcmple h d a b lf
  | .vcmpun h d a b lf => execVcmpun h d a b lf
  | .vsel h d a b lf => execVsel h d a b lf
  | .vmov h d a lf => execVmov h d a lf
  | .vbcast h d a lf => execVbcast h d a lf
  | .vext h d a b lf => execVext h d a b lf
  | .vins h d a b lf => execVins h d a b lf
  | .vidx h d a lf => execVidx h d a lf
  | .vcvt h d a hi => execVcvt h d a hi
  | .vquoin h d a hi => execVquoin h d a hi
  | .vld16 h d a imm => execVld16 h d a imm
  | .vld8 h d a imm => execVld8 h d a imm
  | .vld4 h d a imm => execVld4 h d a imm
  | .vldW h d a imm => execVldW h d a imm
  | .vst16 h d a imm => execVst16 h d a imm
  | .vst8 h d a imm => execVst8 h d a imm
  | .vst4 h d a imm => execVst4 h d a imm
  | .vstW h d a imm => execVstW h d a imm
  | .vrcp h d a bin16 => execVrcp h d a bin16
  | .vrsqrt h d a bin16 => execVrsqrt h d a bin16
  | .vexp h d a bin16 => execVexp h d a bin16
  | .vexp2 h d a bin16 => execVexp2 h d a bin16
  | .vlog h d a bin16 => execVlog h d a bin16
  | .vlog2 h d a bin16 => execVlog2 h d a bin16
  | .vsigm h d a bin16 => execVsigm h d a bin16
  | .vtanh h d a bin16 => execVtanh h d a bin16
  | .vsilu h d a bin16 => execVsilu h d a bin16
  | .verf h d a bin16 => execVerf h d a bin16
  | .vredSum h d a b vec bin16 => execVredSum h d a b vec bin16
  | .vredSumsq h d a b vec bin16 => execVredSumsq h d a b vec bin16
  | .vredMin h d a b vec bin16 => execVredMin h d a b vec bin16
  | .vredMax h d a b vec bin16 => execVredMax h d a b vec bin16
  | .vredAmax h d a b vec bin16 => execVredAmax h d a b vec bin16
  | .qrow h a b hi => execQrow h a b hi
  | .qmerge h a b hi => execQmerge h a b hi
  | .mload h f => execMload h f
  | .mopen h f => execMopen h f
  | .mstream h f => execMstream h f
  | .mpair h f => execMpair h f
  | .mclose h f => execMclose h f
  | .mdrop h f => execMdrop h f
  | .mepl h f => execMepl h f
  | .mwait h f => execMwait h f
  | .gset h a g => execGset h a g
  | .gacq h d g => execGacq h d g
  | .gacqNb h d g => execGacqNb h d g
  | .grel h g => execGrel h g
  | .gres h d g => execGres h d g
  | .gresNb h d g => execGresNb h d g
  | .gcom h g => execGcom h g
  | .gstat h d g => execGstat h d g
  | .stake h d => execStake h d
  | .stakeW h d => execStakeW h d
  | .sdone h a => execSdone h a
  | .spost h a => execSpost h a
  | .sctlOpen h => execSctlOpen h
  | .sctlClose h => execSctlClose h
  | .sctlDrain h => execSctlDrain h
  | .dpost h a e => execDpost h a e
  | .dwait h a e => execDwait h a e
  | .dstat h d e => execDstat h d e
  | .hbar h b => execHbar h b
  | .hwait h b => execHwait h b
  | .hsync h b => execHsync h b
  | .hflagSet h a => execHflagSet h a
  | .hflagClr h a => execHflagClr h a
  | .hbc h a => execHbc h a
  | .hrx h d => execHrx h d
  | .hdec h d a => execHdec h d a
  | .hrel h a => execHrel h a
  | .hwcr h a => execHwcr h a
  | .xgo h a => execXgo h a
  | .xwait h => execXwait h
  | .xstat h d => execXstat h d
  | .brk h => execBrk h
  | .dmark h a => execDmark h a
  | _ => onDev id

/-- ISSUE_RESUME: what the core waits for is tried again; where it has not come, the core stalls again. -/
def execIssueResume (slot : Slot) (core : Fin 4) (s : State) : Host.Outcome State Fault Refusal :=
  if coreExists slot core then
    match (s.dev.core slot core).run, (s.dev.core slot core).stalled with
    | .stalled, some i => execTile i { s with dev := s.dev.modCore slot core (fun k => { k with run := .running }) }
    | _, _ => onDev id s
  else .fault (.noSuchCore slot core)

end Sys2Proof.Machine
end

