-- ==== Sys2Proof/Machine/Router.lean ====
section
/-! DEFINITION. Sys2Proof/Machine/Router.lean: a router's step and its failure: an uncorrectable error, the retry limit of a link
into it, no credit from it (R261, R262). -/

namespace Sys2Proof.Machine

/-- Router `y` fails for a cause of R261: its yard is furl-pending (at once in the map where no job is loaded, R20), and the ports
on it are lost, the host port among them; a corner router is device-fatal, with a replacement request. -/
def Dev.failRouter (d : Dev) (y cause : Nat) : Dev :=
  if d.routerFailed y then d
  else
    let r := Reg.yardRtrStatus y
    let d := ((d.setFlag r F.yardRtrStatusFailed true).setFld r F.yardRtrStatusCause cause).fenceYard y
    let d := d.logEv 2 3 y cause [w32 (d.reg r)]
    let d := (portsAt y).foldl (fun d n => (d.modLink n (fun l => { l with edgeDead := true })).portDown n 6) d
    let d := if y = hostYard then d.setFlag Reg.hstStatus F.hstStatusUp false else d
    let d := if ctlYards.contains y then (d.fatal 3 cause y 5 (some (1, y))).replaceCause 6 else d
    d.settle1 []

/-- Retries of one flit after which the router at the link's end is failed (R261). -/
def retryLimit : Nat := 16

/-- ROUTER_HOP: the k-th packet of a virtual channel crosses router `y` (R236). Retries on the link it takes count at the router it goes
into; an uncorrectable error is router `y`'s (R261). -/
def execRouterHop (y : Yard) (vc : Fin 3) (k : HopIn) : State → Host.Outcome State Fault Refusal :=
  onDev (fun d =>
    if k.ue then d.failRouter y 1
    else match d.hopInto y vc k.k with
      | none => d.hop y vc k.k
      | some y2 =>
        let d := if d.routerFailed y2 then d else d.satFld (Reg.yardRtrRetry y2) fld32 (min k.retries retryLimit)
        (if retryLimit ≤ k.retries then d.failRouter y2 2 else d).hop y vc k.k)

/-- ROUTER_CREDIT_SILENCE: a neighbour that holds traffic for router `y` gets no credit for 2^16 cycles (R261). -/
def execRouterCreditSilence (y : Yard) : State → Host.Outcome State Fault Refusal := onDev (fun d => d.failRouter y 3)

end Sys2Proof.Machine
end

