-- ==== Sys2Proof/Machine/Dispatch.lean ====
section
/-! DEFINITION. Sys2Proof/Machine/Dispatch.lean: one arm per command, in the order of spec/opcode_table.json. -/

namespace Sys2Proof.Machine
open Sys2Proof

def exec (i : Instr) (s : State) : Host.Outcome State Fault Refusal :=
  match i with
  | .add h d a b => Sys2Proof.Machine.execAdd h d a b s
  | .sub h d a b => Sys2Proof.Machine.execSub h d a b s
  | .and h d a b => Sys2Proof.Machine.execAnd h d a b s
  | .or h d a b => Sys2Proof.Machine.execOr h d a b s
  | .xor h d a b => Sys2Proof.Machine.execXor h d a b s
  | .shl h d a b => Sys2Proof.Machine.execShl h d a b s
  | .shr h d a b => Sys2Proof.Machine.execShr h d a b s
  | .sra h d a b => Sys2Proof.Machine.execSra h d a b s
  | .mul h d a b => Sys2Proof.Machine.execMul h d a b s
  | .mulhu h d a b => Sys2Proof.Machine.execMulhu h d a b s
  | .min h d a b => Sys2Proof.Machine.execMin h d a b s
  | .max h d a b => Sys2Proof.Machine.execMax h d a b s
  | .minu h d a b => Sys2Proof.Machine.execMinu h d a b s
  | .maxu h d a b => Sys2Proof.Machine.execMaxu h d a b s
  | .cmpeq h d a b => Sys2Proof.Machine.execCmpeq h d a b s
  | .cmpne h d a b => Sys2Proof.Machine.execCmpne h d a b s
  | .cmplt h d a b => Sys2Proof.Machine.execCmplt h d a b s
  | .cmple h d a b => Sys2Proof.Machine.execCmple h d a b s
  | .cmpltu h d a b => Sys2Proof.Machine.execCmpltu h d a b s
  | .cmpleu h d a b => Sys2Proof.Machine.execCmpleu h d a b s
  | .addi h d a imm => Sys2Proof.Machine.execAddi h d a imm s
  | .andi h d a imm => Sys2Proof.Machine.execAndi h d a imm s
  | .ori h d a imm => Sys2Proof.Machine.execOri h d a imm s
  | .xori h d a imm => Sys2Proof.Machine.execXori h d a imm s
  | .shli h d a imm => Sys2Proof.Machine.execShli h d a imm s
  | .shri h d a imm => Sys2Proof.Machine.execShri h d a imm s
  | .srai h d a imm => Sys2Proof.Machine.execSrai h d a imm s
  | .movh h d a imm => Sys2Proof.Machine.execMovh h d a imm s
  | .cmpeqi h d a imm => Sys2Proof.Machine.execCmpeqi h d a imm s
  | .cmpnei h d a imm => Sys2Proof.Machine.execCmpnei h d a imm s
  | .cmplti h d a imm => Sys2Proof.Machine.execCmplti h d a imm s
  | .cmpltui h d a imm => Sys2Proof.Machine.execCmpltui h d a imm s
  | .bra h off => Sys2Proof.Machine.execBra h off s
  | .call h off => Sys2Proof.Machine.execCall h off s
  | .jr h a => Sys2Proof.Machine.execJr h a s
  | .nopInstruction h => Sys2Proof.Machine.execNopInstruction h s
  | .halt h => Sys2Proof.Machine.execHalt h s
  | .fence h => Sys2Proof.Machine.execFence h s
  | .srd h d n => Sys2Proof.Machine.execSrd h d n s
  | .pand h d a b => Sys2Proof.Machine.execPand h d a b s
  | .por h d a b => Sys2Proof.Machine.execPor h d a b s
  | .pxor h d a b => Sys2Proof.Machine.execPxor h d a b s
  | .pnot h d a => Sys2Proof.Machine.execPnot h d a s
  | .pany h d a => Sys2Proof.Machine.execPany h d a s
  | .pall h d a => Sys2Proof.Machine.execPall h d a s
  | .ldU8 h d a imm => Sys2Proof.Machine.execLdU8 h d a imm s
  | .ldS8 h d a imm => Sys2Proof.Machine.execLdS8 h d a imm s
  | .ldU16 h d a imm => Sys2Proof.Machine.execLdU16 h d a imm s
  | .ldS16 h d a imm => Sys2Proof.Machine.execLdS16 h d a imm s
  | .ldU32 h d a imm => Sys2Proof.Machine.execLdU32 h d a imm s
  | .ldS32 h d a imm => Sys2Proof.Machine.execLdS32 h d a imm s
  | .ld64 h d a imm => Sys2Proof.Machine.execLd64 h d a imm s
  | .st8 h d a imm => Sys2Proof.Machine.execSt8 h d a imm s
  | .st16 h d a imm => Sys2Proof.Machine.execSt16 h d a imm s
  | .st32 h d a imm => Sys2Proof.Machine.execSt32 h d a imm s
  | .st64 h d a imm => Sys2Proof.Machine.execSt64 h d a imm s
  | .lxadd32 h d a imm => Sys2Proof.Machine.execLxadd32 h d a imm s
  | .lxadd64 h d a imm => Sys2Proof.Machine.execLxadd64 h d a imm s
  | .ldg32 h d a => Sys2Proof.Machine.execLdg32 h d a s
  | .ldg64 h d a => Sys2Proof.Machine.execLdg64 h d a s
  | .stg32 h a b => Sys2Proof.Machine.execStg32 h a b s
  | .stg64 h a b => Sys2Proof.Machine.execStg64 h a b s
  | .gadd32 h d a b => Sys2Proof.Machine.execGadd32 h d a b s
  | .gadd64 h d a b => Sys2Proof.Machine.execGadd64 h d a b s
  | .vldg h d a => Sys2Proof.Machine.execVldg h d a s
  | .vstg h d a => Sys2Proof.Machine.execVstg h d a s
  | .vadd h d a b lf rnd hi => Sys2Proof.Machine.execVadd h d a b lf rnd hi s
  | .vsub h d a b lf rnd hi => Sys2Proof.Machine.execVsub h d a b lf rnd hi s
  | .vmul h d a b lf rnd hi => Sys2Proof.Machine.execVmul h d a b lf rnd hi s
  | .vfma h d a b lf rnd hi => Sys2Proof.Machine.execVfma h d a b lf rnd hi s
  | .vmin h d a b lf rnd hi => Sys2Proof.Machine.execVmin h d a b lf rnd hi s
  | .vmax h d a b lf rnd hi => Sys2Proof.Machine.execVmax h d a b lf rnd hi s
  | .vabs h d a lf rnd hi => Sys2Proof.Machine.execVabs h d a lf rnd hi s
  | .vneg h d a lf rnd hi => Sys2Proof.Machine.execVneg h d a lf rnd hi s
  | .vcmpeq h d a b lf => Sys2Proof.Machine.execVcmpeq h d a b lf s
  | .vcmpne h d a b lf => Sys2Proof.Machine.execVcmpne h d a b lf s
  | .vcmplt h d a b lf => Sys2Proof.Machine.execVcmplt h d a b lf s
  | .vcmple h d a b lf => Sys2Proof.Machine.execVcmple h d a b lf s
  | .vcmpun h d a b lf => Sys2Proof.Machine.execVcmpun h d a b lf s
  | .vsel h d a b lf => Sys2Proof.Machine.execVsel h d a b lf s
  | .vmov h d a lf => Sys2Proof.Machine.execVmov h d a lf s
  | .vbcast h d a lf => Sys2Proof.Machine.execVbcast h d a lf s
  | .vext h d a b lf => Sys2Proof.Machine.execVext h d a b lf s
  | .vins h d a b lf => Sys2Proof.Machine.execVins h d a b lf s
  | .vidx h d a lf => Sys2Proof.Machine.execVidx h d a lf s
  | .vcvt h d a hi => Sys2Proof.Machine.execVcvt h d a hi s
  | .vquoin h d a hi => Sys2Proof.Machine.execVquoin h d a hi s
  | .vld16 h d a imm => Sys2Proof.Machine.execVld16 h d a imm s
  | .vld8 h d a imm => Sys2Proof.Machine.execVld8 h d a imm s
  | .vld4 h d a imm => Sys2Proof.Machine.execVld4 h d a imm s
  | .vldW h d a imm => Sys2Proof.Machine.execVldW h d a imm s
  | .vst16 h d a imm => Sys2Proof.Machine.execVst16 h d a imm s
  | .vst8 h d a imm => Sys2Proof.Machine.execVst8 h d a imm s
  | .vst4 h d a imm => Sys2Proof.Machine.execVst4 h d a imm s
  | .vstW h d a imm => Sys2Proof.Machine.execVstW h d a imm s
  | .vrcp h d a bin16 => Sys2Proof.Machine.execVrcp h d a bin16 s
  | .vrsqrt h d a bin16 => Sys2Proof.Machine.execVrsqrt h d a bin16 s
  | .vexp h d a bin16 => Sys2Proof.Machine.execVexp h d a bin16 s
  | .vexp2 h d a bin16 => Sys2Proof.Machine.execVexp2 h d a bin16 s
  | .vlog h d a bin16 => Sys2Proof.Machine.execVlog h d a bin16 s
  | .vlog2 h d a bin16 => Sys2Proof.Machine.execVlog2 h d a bin16 s
  | .vsigm h d a bin16 => Sys2Proof.Machine.execVsigm h d a bin16 s
  | .vtanh h d a bin16 => Sys2Proof.Machine.execVtanh h d a bin16 s
  | .vsilu h d a bin16 => Sys2Proof.Machine.execVsilu h d a bin16 s
  | .verf h d a bin16 => Sys2Proof.Machine.execVerf h d a bin16 s
  | .vredSum h d a b vec bin16 => Sys2Proof.Machine.execVredSum h d a b vec bin16 s
  | .vredSumsq h d a b vec bin16 => Sys2Proof.Machine.execVredSumsq h d a b vec bin16 s
  | .vredMin h d a b vec bin16 => Sys2Proof.Machine.execVredMin h d a b vec bin16 s
  | .vredMax h d a b vec bin16 => Sys2Proof.Machine.execVredMax h d a b vec bin16 s
  | .vredAmax h d a b vec bin16 => Sys2Proof.Machine.execVredAmax h d a b vec bin16 s
  | .qrow h a b hi => Sys2Proof.Machine.execQrow h a b hi s
  | .qmerge h a b hi => Sys2Proof.Machine.execQmerge h a b hi s
  | .vtUnitResult slot u => Sys2Proof.Machine.execVtUnitResult slot u s
  | .mload h f => Sys2Proof.Machine.execMload h f s
  | .mopen h f => Sys2Proof.Machine.execMopen h f s
  | .mstream h f => Sys2Proof.Machine.execMstream h f s
  | .mpair h f => Sys2Proof.Machine.execMpair h f s
  | .mclose h f => Sys2Proof.Machine.execMclose h f s
  | .mdrop h f => Sys2Proof.Machine.execMdrop h f s
  | .mepl h f => Sys2Proof.Machine.execMepl h f s
  | .mwait h f => Sys2Proof.Machine.execMwait h f s
  | .matrixOpStart slot k => Sys2Proof.Machine.execMatrixOpStart slot k s
  | .matrixOpComplete slot k => Sys2Proof.Machine.execMatrixOpComplete slot k s
  | .gset h a g => Sys2Proof.Machine.execGset h a g s
  | .gacq h d g => Sys2Proof.Machine.execGacq h d g s
  | .gacqNb h d g => Sys2Proof.Machine.execGacqNb h d g s
  | .grel h g => Sys2Proof.Machine.execGrel h g s
  | .gres h d g => Sys2Proof.Machine.execGres h d g s
  | .gresNb h d g => Sys2Proof.Machine.execGresNb h d g s
  | .gcom h g => Sys2Proof.Machine.execGcom h g s
  | .gstat h d g => Sys2Proof.Machine.execGstat h d g s
  | .galleyStallLimit slot g consumer => Sys2Proof.Machine.execGalleyStallLimit slot g consumer s
  | .stake h d => Sys2Proof.Machine.execStake h d s
  | .stakeW h d => Sys2Proof.Machine.execStakeW h d s
  | .stakeWPoll slot core => Sys2Proof.Machine.execStakeWPoll slot core s
  | .stakeWLimit slot core => Sys2Proof.Machine.execStakeWLimit slot core s
  | .sdone h a => Sys2Proof.Machine.execSdone h a s
  | .spost h a => Sys2Proof.Machine.execSpost h a s
  | .sctlOpen h => Sys2Proof.Machine.execSctlOpen h s
  | .sctlClose h => Sys2Proof.Machine.execSctlClose h s
  | .sctlDrain h => Sys2Proof.Machine.execSctlDrain h s
  | .taskLanding slot => Sys2Proof.Machine.execTaskLanding slot s
  | .channelRequestIssue y ch n r => Sys2Proof.Machine.execChannelRequestIssue y ch n r s
  | .taskComplete y ch => Sys2Proof.Machine.execTaskComplete y ch s
  | .dpost h a e => Sys2Proof.Machine.execDpost h a e s
  | .dwait h a e => Sys2Proof.Machine.execDwait h a e s
  | .dstat h d e => Sys2Proof.Machine.execDstat h d e s
  | .descRequestIssue slot e => Sys2Proof.Machine.execDescRequestIssue slot e s
  | .descRequestComplete slot e k r => Sys2Proof.Machine.execDescRequestComplete slot e k r s
  | .hbar h b => Sys2Proof.Machine.execHbar h b s
  | .hwait h b => Sys2Proof.Machine.execHwait h b s
  | .hsync h b => Sys2Proof.Machine.execHsync h b s
  | .hflagSet h a => Sys2Proof.Machine.execHflagSet h a s
  | .hflagClr h a => Sys2Proof.Machine.execHflagClr h a s
  | .hbc h a => Sys2Proof.Machine.execHbc h a s
  | .hrx h d => Sys2Proof.Machine.execHrx h d s
  | .hdec h d a => Sys2Proof.Machine.execHdec h d a s
  | .hrel h a => Sys2Proof.Machine.execHrel h a s
  | .hwcr h a => Sys2Proof.Machine.execHwcr h a s
  | .xgo h a => Sys2Proof.Machine.execXgo h a s
  | .xwait h => Sys2Proof.Machine.execXwait h s
  | .xstat h d => Sys2Proof.Machine.execXstat h d s
  | .brk h => Sys2Proof.Machine.execBrk h s
  | .dmark h a => Sys2Proof.Machine.execDmark h a s
  | .issueResume slot core => Sys2Proof.Machine.execIssueResume slot core s
  | .globalLoadResponse slot core k r => Sys2Proof.Machine.execGlobalLoadResponse slot core k r s
  | .postedWriteAck slot core k r => Sys2Proof.Machine.execPostedWriteAck slot core k r s
  | .storeEccWriteback slot word => Sys2Proof.Machine.execStoreEccWriteback slot word s
  | .storeScrub slot line struck lastOfPass => Sys2Proof.Machine.execStoreScrub slot line struck lastOfPass s
  | .caseSliceBeat y slice reqs => Sys2Proof.Machine.execCaseSliceBeat y slice reqs s
  | .caseEccWriteback y word => Sys2Proof.Machine.execCaseEccWriteback y word s
  | .caseScrub y slice line struck lastOfPass => Sys2Proof.Machine.execCaseScrub y slice line struck lastOfPass s
  | .holdRequest c press path op => Sys2Proof.Machine.execHoldRequest c press path op s
  | .holdReadComplete c k t => Sys2Proof.Machine.execHoldReadComplete c k t s
  | .holdWriteComplete c k t => Sys2Proof.Machine.execHoldWriteComplete c k t s
  | .holdPatrol c burst t => Sys2Proof.Machine.execHoldPatrol c burst t s
  | .perBankRefresh c ch bank => Sys2Proof.Machine.execPerBankRefresh c ch bank s
  | .rfm c ch => Sys2Proof.Machine.execRfm c ch s
  | .oscillatorTracking c ch => Sys2Proof.Machine.execOscillatorTracking c ch s
  | .phaseStart slot => Sys2Proof.Machine.execPhaseStart slot s
  | .exchCreditArrive slot e n => Sys2Proof.Machine.execExchCreditArrive slot e n s
  | .exchUnitSend slot e => Sys2Proof.Machine.execExchUnitSend slot e s
  | .exchUnitCommit slot e r => Sys2Proof.Machine.execExchUnitCommit slot e r s
  | .phaseLimit slot => Sys2Proof.Machine.execPhaseLimit slot s
  | .routerHop y vc k => Sys2Proof.Machine.execRouterHop y vc k s
  | .routerCreditSilence y => Sys2Proof.Machine.execRouterCreditSilence y s
  | .reductionChunkArrive k => Sys2Proof.Machine.execReductionChunkArrive k s
  | .barrierRelease y b peers => Sys2Proof.Machine.execBarrierRelease y b peers s
  | .releaseBarrierRelease peers => Sys2Proof.Machine.execReleaseBarrierRelease peers s
  | .decisionBarrierRelease peers => Sys2Proof.Machine.execDecisionBarrierRelease peers s
  | .commitBarrierRelease peers => Sys2Proof.Machine.execCommitBarrierRelease peers s
  | .halyardFrame node crcOk again => Sys2Proof.Machine.execHalyardFrame node crcOk again s
  | .halyardStallLimit slot core => Sys2Proof.Machine.execHalyardStallLimit slot core s
  | .broadcastDeliver => Sys2Proof.Machine.execBroadcastDeliver s
  | .faultNotice => Sys2Proof.Machine.execFaultNotice s
  | .abortFromPeer block kind inst => Sys2Proof.Machine.execAbortFromPeer block kind inst s
  | .replayRestore => Sys2Proof.Machine.execReplayRestore s
  | .yardSqWaveOpen m y v => Sys2Proof.Machine.execYardSqWaveOpen m y v s
  | .tileBankNext m slot v => Sys2Proof.Machine.execTileBankNext m slot v s
  | .yardSliceArm m y v => Sys2Proof.Machine.execYardSliceArm m y v s
  | .pairLoRead m off => Sys2Proof.Machine.execPairLoRead m off s
  | .pairHiRead m off => Sys2Proof.Machine.execPairHiRead m off s
  | .pairHiWrite m off v => Sys2Proof.Machine.execPairHiWrite m off v s
  | .pairLoWrite m off v => Sys2Proof.Machine.execPairLoWrite m off v s
  | .dbgdataRead m slot => Sys2Proof.Machine.execDbgdataRead m slot s
  | .registerWrite m off v => Sys2Proof.Machine.execRegisterWrite m off v s
  | .pressReady m v => Sys2Proof.Machine.execPressReady m v s
  | .passALayerStart c => Sys2Proof.Machine.execPassALayerStart c s
  | .passALayerEnd c => Sys2Proof.Machine.execPassALayerEnd c s
  | .combinationReturn layer peers => Sys2Proof.Machine.execCombinationReturn layer peers s
  | .stepSizePush m v => Sys2Proof.Machine.execStepSizePush m v s
  | .stepSizeLatch => Sys2Proof.Machine.execStepSizeLatch s
  | .stepSizeTimeout => Sys2Proof.Machine.execStepSizeTimeout s
  | .pressDecisionArrival c => Sys2Proof.Machine.execPressDecisionArrival c s
  | .passBLayerStart c peers => Sys2Proof.Machine.execPassBLayerStart c peers s
  | .mirrorSpoilAck => Sys2Proof.Machine.execMirrorSpoilAck s
  | .releaseCountLimit c => Sys2Proof.Machine.execReleaseCountLimit c s
  | .channelRegen layer ch => Sys2Proof.Machine.execChannelRegen layer ch s
  | .passBLayerEnd c => Sys2Proof.Machine.execPassBLayerEnd c s
  | .pressCopyIn m v => Sys2Proof.Machine.execPressCopyIn m v s
  | .pressCommitWork c => Sys2Proof.Machine.execPressCommitWork c s
  | .recordAck t => Sys2Proof.Machine.execRecordAck t s
  | .recordedNotice dev step => Sys2Proof.Machine.execRecordedNotice dev step s
  | .mirrorCtlOpen m => Sys2Proof.Machine.execMirrorCtlOpen m s
  | .mirrorCtlClose m => Sys2Proof.Machine.execMirrorCtlClose m s
  | .mirrorHeadOpening burst => Sys2Proof.Machine.execMirrorHeadOpening burst s
  | .mirrorHeadComplete burst => Sys2Proof.Machine.execMirrorHeadComplete burst s
  | .mirrorHeadSpoiled burst => Sys2Proof.Machine.execMirrorHeadSpoiled burst s
  | .mirrorImageWrite off data => Sys2Proof.Machine.execMirrorImageWrite off data s
  | .mirrorRestoreComplete rec hdr => Sys2Proof.Machine.execMirrorRestoreComplete rec hdr s
  | .flitSend n => Sys2Proof.Machine.execFlitSend n s
  | .flitReceive n flit fecOk announce => Sys2Proof.Machine.execFlitReceive n flit fecOk announce s
  | .compactAckRelease n pool => Sys2Proof.Machine.execCompactAckRelease n pool s
  | .creditReturn n => Sys2Proof.Machine.execCreditReturn n s
  | .fullTraining n t => Sys2Proof.Machine.execFullTraining n t s
  | .fastRetrain n t => Sys2Proof.Machine.execFastRetrain n t s
  | .signalDetectRetry n => Sys2Proof.Machine.execSignalDetectRetry n s
  | .capabilityTimeout n => Sys2Proof.Machine.execCapabilityTimeout n s
  | .lnkRetrain m n => Sys2Proof.Machine.execLnkRetrain m n s
  | .lnkWide m n v => Sys2Proof.Machine.execLnkWide m n v s
  | .lnkCfgEnable m n v => Sys2Proof.Machine.execLnkCfgEnable m n v s
  | .calibrationLane n eyeMv eyeUi ce => Sys2Proof.Machine.execCalibrationLane n eyeMv eyeUi ce s
  | .hitlessSwap n lane found => Sys2Proof.Machine.execHitlessSwap n lane found s
  | .swapRetry n found => Sys2Proof.Machine.execSwapRetry n found s
  | .laneErrorWindow n lane eyeMv ce => Sys2Proof.Machine.execLaneErrorWindow n lane eyeMv ce s
  | .lossOfLock n lane => Sys2Proof.Machine.execLossOfLock n lane s
  | .hostPortRequest q => Sys2Proof.Machine.execHostPortRequest q s
  | .doorbell m v => Sys2Proof.Machine.execDoorbell m v s
  | .ringCommandDispatch v => Sys2Proof.Machine.execRingCommandDispatch v s
  | .bosMbGo m => Sys2Proof.Machine.execBosMbGo m s
  | .commandComplete v => Sys2Proof.Machine.execCommandComplete v s
  | .cplPush m => Sys2Proof.Machine.execCplPush m s
  | .cplRingFullTimeout => Sys2Proof.Machine.execCplRingFullTimeout s
  | .hstHb m v => Sys2Proof.Machine.execHstHb m v s
  | .heartbeatWindow => Sys2Proof.Machine.execHeartbeatWindow s
  | .deviceHeartbeat => Sys2Proof.Machine.execDeviceHeartbeat s
  | .irqHoldoffEnd v => Sys2Proof.Machine.execIrqHoldoffEnd v s
  | .nop q => Sys2Proof.Machine.execNop q s
  | .status q => Sys2Proof.Machine.execStatus q s
  | .load q addr bytes token retain v => Sys2Proof.Machine.execLoad q addr bytes token retain v s
  | .pendingLoadStart v => Sys2Proof.Machine.execPendingLoadStart v s
  | .start q step source v => Sys2Proof.Machine.execStart q step source v s
  | .endJob q last => Sys2Proof.Machine.execEndJob q last s
  | .endEvent last => Sys2Proof.Machine.execEndEvent last s
  | .kill q => Sys2Proof.Machine.execKill q s
  | .killNotice dev => Sys2Proof.Machine.execKillNotice dev s
  | .resume q => Sys2Proof.Machine.execResume q s
  | .heldEvent dev step => Sys2Proof.Machine.execHeldEvent dev step s
  | .resumeEvent => Sys2Proof.Machine.execResumeEvent s
  | .hostmsg q body => Sys2Proof.Machine.execHostmsg q body s
  | .proofQuery q => Sys2Proof.Machine.execProofQuery q s
  | .proofExport q addr token => Sys2Proof.Machine.execProofExport q addr token s
  | .clearsComplete o => Sys2Proof.Machine.execClearsComplete o s
  | .holdRepairComplete c => Sys2Proof.Machine.execHoldRepairComplete c s
  | .fwInfo q => Sys2Proof.Machine.execFwInfo q s
  | .fwWrite q buf off bytes => Sys2Proof.Machine.execFwWrite q buf off bytes s
  | .fwVerify q v => Sys2Proof.Machine.execFwVerify q v s
  | .fwActivate q raise v => Sys2Proof.Machine.execFwActivate q raise v s
  | .warmReset q => Sys2Proof.Machine.execWarmReset q s
  | .manifestRead q buf bytes => Sys2Proof.Machine.execManifestRead q buf bytes s
  | .spdm q req bytes resp => Sys2Proof.Machine.execSpdm q req bytes resp s
  | .ownerEnrol q buf v => Sys2Proof.Machine.execOwnerEnrol q buf v s
  | .ownerRelease q buf v => Sys2Proof.Machine.execOwnerRelease q buf v s
  | .debugNonce q buf => Sys2Proof.Machine.execDebugNonce q buf s
  | .debugOpen q buf v => Sys2Proof.Machine.execDebugOpen q buf v s
  | .debugClose q => Sys2Proof.Machine.execDebugClose q s
  | .selftest q scope index => Sys2Proof.Machine.execSelftest q scope index s
  | .selftestComplete fails pages => Sys2Proof.Machine.execSelftestComplete fails pages s
  | .selftestStatus q => Sys2Proof.Machine.execSelftestStatus q s
  | .logInfo q => Sys2Proof.Machine.execLogInfo q s
  | .logRead q buf first n => Sys2Proof.Machine.execLogRead q buf first n s
  | .replaceStatus q => Sys2Proof.Machine.execReplaceStatus q s
  | .ageRead q buf => Sys2Proof.Machine.execAgeRead q buf s
  | .spareTestRound => Sys2Proof.Machine.execSpareTestRound s
  | .spareTestEnd y pass => Sys2Proof.Machine.execSpareTestEnd y pass s
  | .ageingSample slack => Sys2Proof.Machine.execAgeingSample slack s
  | .getVersion req => Sys2Proof.Machine.execGetVersion req s
  | .getCapabilities req => Sys2Proof.Machine.execGetCapabilities req s
  | .negotiateAlgorithms req => Sys2Proof.Machine.execNegotiateAlgorithms req s
  | .getDigests req => Sys2Proof.Machine.execGetDigests req s
  | .getCertificate req => Sys2Proof.Machine.execGetCertificate req s
  | .challenge req => Sys2Proof.Machine.execChallenge req s
  | .getMeasurements req => Sys2Proof.Machine.execGetMeasurements req s
  | .pldmStateSensorRead => Sys2Proof.Machine.execPldmStateSensorRead s
  | .pldmFirmwareUpdate img b => Sys2Proof.Machine.execPldmFirmwareUpdate img b s
  | .rstNDeassert b => Sys2Proof.Machine.execRstNDeassert b s
  | .rstNAssert => Sys2Proof.Machine.execRstNAssert s
  | .vauxFall => Sys2Proof.Machine.execVauxFall s
  | .pwrGoodDeassert inSelfRefresh => Sys2Proof.Machine.execPwrGoodDeassert inSelfRefresh s
  | .vinCoreWarning mv => Sys2Proof.Machine.execVinCoreWarning mv s
  | .dipDebounce => Sys2Proof.Machine.execDipDebounce s
  | .vinCoreRecovery mv => Sys2Proof.Machine.execVinCoreRecovery mv s
  | .supplyHoldEnd => Sys2Proof.Machine.execSupplyHoldEnd s
  | .vinCoreResetTrip inSelfRefresh => Sys2Proof.Machine.execVinCoreResetTrip inSelfRefresh s
  | .brownoutRecovery b => Sys2Proof.Machine.execBrownoutRecovery b s
  | .droopDetect island => Sys2Proof.Machine.execDroopDetect island s
  | .droopClear island => Sys2Proof.Machine.execDroopClear island s
  | .refclkLoss => Sys2Proof.Machine.execRefclkLoss s
  | .refclkHoldoverEnd => Sys2Proof.Machine.execRefclkHoldoverEnd s
  | .tpulseEdge => Sys2Proof.Machine.execTpulseEdge s
  | .alignTb m v => Sys2Proof.Machine.execAlignTb m v s
  | .powerSample w mv amps => Sys2Proof.Machine.execPowerSample w mv amps s
  | .powerEvaluate => Sys2Proof.Machine.execPowerEvaluate s
  | .pwrLimit m v => Sys2Proof.Machine.execPwrLimit m v s
  | .pwrThermCfg m v => Sys2Proof.Machine.execPwrThermCfg m v s
  | .thermalSample t => Sys2Proof.Machine.execThermalSample t s
  | .thermalRequestDrop => Sys2Proof.Machine.execThermalRequestDrop s
  | .thermalTrip sensor temp => Sys2Proof.Machine.execThermalTrip sensor temp s
  | .tapReset => Sys2Proof.Machine.execTapReset s
  | .bypass => Sys2Proof.Machine.execBypass s
  | .extestPulse drive => Sys2Proof.Machine.execExtestPulse drive s
  | .extestTrain drive => Sys2Proof.Machine.execExtestTrain drive s
  | .tapPrivateInstruction code => Sys2Proof.Machine.execTapPrivateInstruction code s
  | .vauxRise => Sys2Proof.Machine.execVauxRise s
  | .vinCoreRemoved => Sys2Proof.Machine.execVinCoreRemoved s
  | .refclkReturn => Sys2Proof.Machine.execRefclkReturn s
  | .nonceExpiry => Sys2Proof.Machine.execNonceExpiry s
  | .extest drive => Sys2Proof.Machine.execExtest drive s
  | .samplePreload drive => Sys2Proof.Machine.execSamplePreload drive s

end Sys2Proof.Machine
end

