-- ==== Sys2Proof/Machine/Package.lean ====
section
/-! DEFINITION. Sys2Proof/Machine/Package.lean: the ball map (R478 to R481): which net or signal each of the 8,836 balls carries. The
map is fixed and no command changes it. -/

namespace Sys2Proof.Machine

/-- The supply nets. -/
inductive Rail where
  | vinCore | vinSerdes | vaux | vdd1Hold | vdd2hHold | vdd2lHold | vddqHold
deriving DecidableEq, Repr

/-- The single-ended signals, the reference clock and the sense pair (R480). -/
inductive Single where
  | rstN | pwrGood | thermtripN | alertN | replaceN | tpulse | smbScl | smbSda | boardPos (i : Fin 3) | trstN | tck | tms | tdi | tdo
  | vinCoreSense (p : Bool) | refclk (p : Bool)
deriving DecidableEq, Repr

/-- What a ball carries. A lane's port is none for the host port. -/
inductive Net where
  | gnd
  | reserved
  | rail (r : Rail)
  | single (s : Single)
  | lane (port : Option Nat) (lane : Nat) (tx p : Bool)
deriving DecidableEq, Repr

/-- An edge with its slots, clockwise: none is the host port (R479). -/
structure PackEdge where
  first : Nat
  pitch : Nat
  slots : List (Option Nat)
deriving DecidableEq, Repr

def edgeNorth : PackEdge := ⟨3, 18, [some 0, some 1, none, some 2, some 3]⟩
def edgeEast : PackEdge := ⟨8, 20, [some 4, some 5, some 6, some 7]⟩
def edgeSouth : PackEdge := ⟨8, 20, [some 8, some 9, some 10, some 11]⟩
def edgeWest : PackEdge := ⟨8, 20, [some 12, some 13, some 14, some 15]⟩

/-- The slot of position `u` and the place in it: a slot spans the 18 positions of its nine lanes. -/
def PackEdge.slotAt (e : PackEdge) (u : Nat) : Option (Option Nat × Nat) :=
  if u < e.first then none
  else if 18 ≤ (u - e.first) % e.pitch then none
  else match e.slots[(u - e.first) / e.pitch]? with
    | none => none
    | some s => some (s, (u - e.first) % e.pitch)

/-- Lanes of a port: nine, of the host port four. -/
def lanesOf (port : Option Nat) : Nat := if port.isSome then 9 else 4

/-- The ball of an edge at depth `d`, position `u`; none outside the slot spans' depths (R479). -/
def PackEdge.net (e : PackEdge) (d u : Nat) : Option Net :=
  match e.slotAt u with
  | none => none
  | some (port, o) =>
    if d = 8 then some (.rail .vinSerdes)
    else if d = 2 ∨ d = 5 then (if o / 2 < lanesOf port then some (.lane port (o / 2) (d == 2) (o % 2 == 0)) else some .gnd)
    else if d = 1 ∨ d = 3 ∨ d = 4 ∨ d = 6 then some .gnd
    else none

/-- R480. -/
def singleAt (row col : Nat) : Option Net :=
  match row, col with
  | 1, 1 => some (.single .rstN)
  | 1, 2 => some (.single .pwrGood)
  | 2, 1 => some (.single .thermtripN)
  | 2, 2 => some (.single .alertN)
  | 3, 1 => some (.single .replaceN)
  | 3, 2 => some (.single .tpulse)
  | 4, 1 => some (.single .smbScl)
  | 4, 2 => some (.single .smbSda)
  | 5, 1 => some (.single (.boardPos 0))
  | 5, 2 => some (.single (.boardPos 1))
  | 6, 1 => some (.single (.boardPos 2))
  | 6, 2 => some (.single .trstN)
  | 7, 1 => some (.single .tck)
  | 7, 2 => some (.single .tms)
  | 7, 3 => some (.single .tdi)
  | 7, 4 => some (.single .tdo)
  | 8, 1 => some (.single (.vinCoreSense true))
  | 8, 2 => some (.single (.vinCoreSense false))
  | 9, 3 => some (.single (.refclk true))
  | 9, 4 => some (.single (.refclk false))
  | _, _ => if (row = 7 ∨ row = 9) ∧ 6 ≤ col ∧ col ≤ 9 then some (.rail .vaux) else none

/-- The rail of the `k`-th row of a hold block (R481). -/
def holdRail (k : Nat) : Rail := if k ≤ 2 then .vdd1Hold else if k ≤ 6 then .vdd2hHold else if k ≤ 8 then .vdd2lHold else .vddqHold

/-- Where a row or a column lies in the hold blocks: counted 1 to 10. -/
def holdBlock (x : Nat) : Option Nat :=
  if 10 ≤ x ∧ x ≤ 19 then some (x - 9) else if 76 ≤ x ∧ x ≤ 85 then some (x - 75) else none

/-- The regions of R481. -/
def regionNet (row col : Nat) : Net :=
  if 20 ≤ row ∧ row ≤ 75 ∧ 20 ≤ col ∧ col ≤ 75 then (if (row + col) % 2 = 0 then .rail .vinCore else .gnd)
  else if (row ≤ 6 ∧ 93 ≤ col) ∨ (89 ≤ row ∧ col ≤ 2) then .reserved
  else match holdBlock row, holdBlock col with
    | some k, some _ => if (row + col) % 2 = 0 then .rail (holdRail k) else .gnd
    | _, _ => .gnd

/-- What the edges give a ball. North's and east's lane fields share part of row 08: a lane's pair goes before the supply, and the
supply before GND (log entry 128). -/
def edgeNets (row col : Nat) : List Net :=
  [edgeNorth.net row col, edgeEast.net (95 - col) row, edgeSouth.net (95 - row) (95 - col), edgeWest.net col (95 - row)].filterMap id

def Net.rank (n : Net) : Nat :=
  match n with
  | .lane _ _ _ _ | .single _ => 2
  | .rail _ => 1
  | .gnd | .reserved => 0

/-- The net of ball RR.CC, seen from the lid (R478). -/
def ballNet (row col : Nat) : Net :=
  match singleAt row col with
  | some n => n
  | none =>
    match edgeNets row col with
    | [] => regionNet row col
    | n :: rest => rest.foldl (fun best m => if best.rank < m.rank then m else best) n

end Sys2Proof.Machine
end

