-- ==== Sys2Proof/Safety.lean ====
section
/-! DEFINITION. Sys2Proof/Safety.lean: the terms that claims use: when a core may issue an instruction, what an instruction
that has done its work leaves, the canonical form of a state, what a safe run is. -/

namespace Sys2Proof.Machine

/-- A step from `s` answers a next state. -/
def Goes (s : State) : Prop := ∃ t, step s = .next t

/-- Memory and registers in canonical form (equal contents are equal data). -/
abbrev State.Inv (s : State) : Prop := Memory.wf s.dev.mem = true ∧ Sparse.wf regReset s.dev.regs = true

/-- The answer of a command whose effect on the device is `d`. -/
def answer (s : State) (d : Dev) : Host.Outcome State Fault Refusal := .next { s with dev := d.canon }

/-! ## Tile instructions -/

/-- The core of `h`. -/
def Dev.at_ (d : Dev) (h : Iss) : Core := d.core h.slot h.core

/-- The core exists and runs, the words at its PC are sound and spell an instruction, the tile's kind accepts the class (R118,
R124, R136, R137, R169). -/
structure Issues (d : Dev) (h : Iss) (cls : Nat) (long : Bool) : Prop where
  core : coreExists h.slot h.core = true
  running : (d.at_ h).run = .running
  sound : (d.at_ h).stalled = none → d.readStore h.slot (d.at_ h).pc (if long then 8 else 4) 0 = (d, true)
  spelled : d.spelled h = true
  kind : accepts h.slot cls = true

/-- Beside that, no global load's outcome is open, and no register that the instruction names has a write outstanding (R134,
R157). -/
structure Ready (d : Dev) (h : Iss) (cls : Nat) (long : Bool) (rs vs : List R5) : Prop extends Issues d h cls long where
  known : d.unresolved h.slot h.core = false
  free : rs.any (fun r => (d.busyS h.slot h.core).contains r) = false
  freeV : vs.any (fun r => (d.busyV h.slot h.core).contains r) = false

/-- The guard of a scalar instruction is set: bit 0 (R128). -/
abbrev Dev.on (d : Dev) (h : Iss) : Prop := ((d.at_ h).guard h).getLsbD 0 = true

/-- The guard of a vector instruction is set in some lane (R128). -/
abbrev Dev.onV (d : Dev) (h : Iss) : Prop := (d.at_ h).guard h ≠ 0

/-- The instruction has done its work: the PC moves past it, TILE_ISSUE counts it (R134). -/
def Dev.retired (d : Dev) (h : Iss) (long : Bool) : Dev :=
  (d.modCore h.slot h.core (fun k => k.advance long)).counted h.slot

/-- The instruction stays with its core, which waits. -/
def Dev.waits (d : Dev) (h : Iss) (i : Instr) : Dev :=
  d.modCore h.slot h.core (fun k => { k with run := .stalled, stalled := some i })

/-! ## Host commands -/

/-- The bosun takes the command at once: it has booted, and nothing of the command's own path is unfinished (R384). -/
abbrev Dev.takes (d : Dev) (q : CmdHdr) : Prop :=
  d.flag Reg.bosBootStatus F.bosBootStatusBosunReady = true ∧ (q.src = .ring → d.host.cur = none ∧ d.host.waiting = [])
    ∧ (q.src = .mailbox → d.host.mbCur = none ∧ d.host.mbWaiting = none)

end Sys2Proof.Machine
end

