-- ==== Sys2Proof/Certificates/Slice0/Obligations.lean ====
section
/-! DEFINITION. Sys2Proof/Certificates/Slice0/Obligations.lean: the statements for the provers. -/

open Sys2Proof Sys2Proof.Machine Sys2Proof.Num

/-! ## The queue and the whole machine -/

/-- Tier 1. A step executes the command at the front with the rest of the queue. -/
def Obligations.StepRunsFront : Prop :=
  ∀ (c : Instr) (rest : List Instr) (d : Dev), step ⟨c :: rest, d⟩ = exec c ⟨rest, d⟩

/-- On an empty queue the block takes what needs no command (log entry 1: the model's choice): the queue stays empty,
no memory byte, tile, yard, link or job changes, and with the islands running the timebase counts one tick (R474). -/
def Parts.IdleStep : Prop :=
  ∀ d : Dev, ∃ t, step ⟨[], d⟩ = .next ⟨[], t⟩ ∧ (∀ a, t.byte a = d.byte a) ∧ t.tiles = d.tiles ∧ t.yards = d.yards ∧ t.links = d.links
    ∧ t.job = d.job ∧ t.press = d.press ∧ t.hal = d.hal ∧ t.host = d.host ∧ t.out = d.out
    ∧ (d.bos.tb = true → d.pwr.stopped = false → t.reg64 Reg.clkTbLo Reg.clkTbHi = (d.reg64 Reg.clkTbLo Reg.clkTbHi + 1) % 2 ^ 64)

/-- Tier 3. Whatever the state before, every step that goes on leaves memory and registers in canonical form. -/
def Obligations.CanonicalAlways : Prop := ∀ s t : State, step s = .next t → t.Inv

/-- The state at reset is canonical, idle and lists no memory. -/
def Parts.ResetCanonical : Prop :=
  State.reset.Inv ∧ State.reset.pending = [] ∧ State.reset.dev.mem = [] ∧ State.reset.dev.regs = [] ∧ State.reset.dev.out = []

/-- Tier 1. The state at reset is canonical and idle; on an empty queue the block only takes what needs no command (log entry 1, the model's choice). -/
def Obligations.ResetAndIdle : Prop := Parts.IdleStep ∧ Parts.ResetCanonical

/-- No well-formed command stops the machine: it answers a next state, and the rest of the queue stays as it is. -/
def Parts.WellFormedGoes : Prop :=
  ∀ (c : Instr) (rest : List Instr) (d : Dev), c.wf = true → ∃ t, step ⟨c :: rest, d⟩ = .next t ∧ t.pending = rest

/-- Nothing is refused, and the one fault is a command for core 1, 2 or 3 of a slot that has one core (R118, R126). -/
def Parts.OnlyFault : Prop :=
  ∀ s : State, (∀ r, step s ≠ .refused r) ∧ (∀ p c, step s = .fault (.noSuchCore p c) → coreExists p c = false)

/-- Tier 3. No well-formed command stops the machine; the only fault is a command for a core that does not exist. -/
def Obligations.NeverStops : Prop := Parts.WellFormedGoes ∧ Parts.OnlyFault

/-! ## Issue (R126 to R137, R157) -/

/-- The scalar forms of two operands that write a register. -/
def scalarForms (h : Iss) (d a b : R5) : List Instr :=
  [.add h d a b, .sub h d a b, .and h d a b, .or h d a b, .xor h d a b, .shl h d a b, .shr h d a b, .sra h d a b, .mul h d a b,
   .mulhu h d a b, .min h d a b, .max h d a b, .minu h d a b, .maxu h d a b]

/-- The forms of two operands that write a predicate. -/
def compareForms (h : Iss) (d a b : R5) : List Instr :=
  [.cmpeq h d a b, .cmpne h d a b, .cmplt h d a b, .cmple h d a b, .cmpltu h d a b, .cmpleu h d a b]

/-- The forms with an immediate that write a register. -/
def immForms (h : Iss) (d a : R5) (i : Imm) : List Instr :=
  [.addi h d a i, .andi h d a i, .ori h d a i, .xori h d a i, .shli h d a i, .shri h d a i, .srai h d a i]

/-- The forms with an immediate that write a predicate. -/
def compareImmForms (h : Iss) (d a : R5) (i : Imm) : List Instr :=
  [.cmpeqi h d a i, .cmpnei h d a i, .cmplti h d a i, .cmpltui h d a i]

/-- The predicate forms. -/
def predForms (h : Iss) (d a b : R5) : List Instr := [.pand h d a b, .por h d a b, .pxor h d a b, .pnot h d a, .pany h d a, .pall h d a]

/-- A core that does not run (halted, stalled, stopped) issues nothing: the command changes nothing. -/
def Parts.OnlyRunningIssues : Prop :=
  ∀ (s : State) (h : Iss) (d a b : R5) (i : Imm) (x : Instr), coreExists h.slot h.core = true → s.Inv → (s.dev.at_ h).run ≠ .running →
    x ∈ scalarForms h d a b ++ compareForms h d a b ++ immForms h d a i ++ compareImmForms h d a i ++ predForms h d a b →
    exec x s = .next s

/-- Under a guard that is 0 a scalar instruction only passes, whatever registers it names and whatever is outstanding:
the PC and the issue count move, nothing else (R128). -/
def Parts.GuardSquashes : Prop :=
  ∀ (s : State) (h : Iss) (d a b : R5) (x : Instr), Issues s.dev h 0x01 false → ((s.dev.at_ h).guard h).getLsbD 0 = false →
    d.val < 8 → x ∈ scalarForms h d a b ++ compareForms h d a b → exec x s = answer s (s.dev.retired h false)

/-- Tier 2. A core that does not run issues nothing; under a cleared guard a scalar instruction only passes. -/
def Obligations.GuardsAndStates : Prop := Parts.OnlyRunningIssues ∧ Parts.GuardSquashes

/-- What an instruction that has retired leaves: only the core's PC, run state and stall, and the two registers of the
tile's issue count; every byte of memory, every other register, every other core and tile are as before. -/
def Parts.RetiredFrame : Prop :=
  ∀ (s : State) (h : Iss) (long : Bool), ∃ t, answer s (s.dev.retired h long) = .next t ∧ t.pending = s.pending
    ∧ (∀ a, t.dev.byte a = s.dev.byte a)
    ∧ (∀ off, off ≠ Reg.tileIssueLo h.slot → off ≠ Reg.tileIssueHi h.slot → t.dev.reg off = s.dev.reg off)
    ∧ (∀ p c, ¬ (p = h.slot.val ∧ c = h.core.val) → t.dev.core p c = s.dev.core p c)
    ∧ (∀ r, (t.dev.at_ h).sreg r = (s.dev.at_ h).sreg r) ∧ (∀ r, (t.dev.at_ h).vreg r = (s.dev.at_ h).vreg r)
    ∧ (∀ r, (t.dev.at_ h).preg r = (s.dev.at_ h).preg r)
    ∧ (t.dev.at_ h).pc = ((s.dev.at_ h).pc + if long then 8 else 4) % 2 ^ 19 ∧ (t.dev.at_ h).run = .running
    ∧ t.dev.hal = s.dev.hal ∧ t.dev.press = s.dev.press ∧ t.dev.yards = s.dev.yards ∧ t.dev.links = s.dev.links ∧ t.dev.job = s.dev.job
    ∧ t.dev.host = s.dev.host ∧ t.dev.bos = s.dev.bos ∧ t.dev.out = s.dev.out

/-- TILE_ISSUE counts the instruction: its 64-bit value rises by one, modulo 2^64. -/
def Parts.IssueCounts : Prop :=
  ∀ (s : State) (h : Iss) (long : Bool), (s.dev.retired h long).reg64 (Reg.tileIssueLo h.slot) (Reg.tileIssueHi h.slot)
    = (s.dev.reg64 (Reg.tileIssueLo h.slot) (Reg.tileIssueHi h.slot) + 1) % 2 ^ 64

/-- Tier 2. What an instruction that has retired leaves: the PC and the issue count move, nothing else. -/
def Obligations.IssueFrame : Prop := Parts.RetiredFrame ∧ Parts.IssueCounts

/-- An instruction of a class that the tile's kind does not accept is cause 0x1 at its PC (R124, R136, R157): a matrix
instruction outside an MT, a special function outside a VT, a descriptor instruction outside a CT. -/
def Parts.ClassRefused : Prop :=
  ∀ (s : State) (h : Iss) (f : MFields) (d a e : R5) (b : Bool), coreExists h.slot h.core = true → (s.dev.at_ h).run = .running →
    (∀ n, (s.dev.at_ h).stalled = none → s.dev.readStore h.slot (s.dev.at_ h).pc n 0 = (s.dev, true)) → s.dev.spelled h = true →
    (slotIsMt h.slot = false → exec (.mopen h f) s = answer s (s.dev.progFault h.slot h.core 0x0F 1 (s.dev.at_ h).pc 1 0)
        ∧ exec (.stake h d) s = answer s (s.dev.progFault h.slot h.core 0x11 0 (s.dev.at_ h).pc 1 0))
    ∧ (slotIsVt h.slot = false → exec (.vrcp h d a b) s = answer s (s.dev.progFault h.slot h.core 0x0C (16 * b2n b) (s.dev.at_ h).pc 1 0))
    ∧ (slotIsCt h.slot = false → exec (.dwait h a e) s = answer s (s.dev.progFault h.slot h.core 0x13 1 (s.dev.at_ h).pc 1 0)
        ∧ exec (.spost h a) s = answer s (s.dev.progFault h.slot h.core 0x12 0 (s.dev.at_ h).pc 1 0))

/-- A program fault with VALID 0 is recorded whole: cause, core, class and function in TILE_PROG_FAULT with VALID, the
PC and the address beside it; every core of the tile that was not halted stops, and a notice goes to the root (R157, R158). -/
def Parts.ProgramFault : Prop :=
  ∀ (d : Dev) (p c cls fn pc cause : Nat) (addr : DWord), p < 1536 → c < 4 → cls < 32 → fn < 2 ^ 20 → cause < 16 → pc < 2 ^ 19 →
    d.reg (Reg.tileProgFault p) = 0 →
    let t := d.progFault p c cls fn pc cause addr
    t.reg (Reg.tileProgFault p) = cause + c * 2 ^ 4 + cls * 2 ^ 6 + fn * 2 ^ 11 + 2 ^ 31
    ∧ t.reg (Reg.tileProgPc p) = pc ∧ t.reg64 (Reg.tileProgAddrLo p) (Reg.tileProgAddrHi p) = addr.toNat
    ∧ (∀ k, k < 4 → (t.core p k).run = if (d.core p k).run = .halted then .halted else .stopped)
    ∧ t.hal.notices = d.hal.notices ++ [⟨1, cause, p⟩] ∧ (∀ a, t.byte a = d.byte a)

/-- Words at the PC of a tile with an image that spell no instruction are cause 0x1 at the PC, with the class and the
function that the first word names; a zeroed store is such a word (R137). -/
def Parts.IllegalWords : Prop :=
  ∀ (s : State) (h : Iss) (d a b : R5) (x : Instr), coreExists h.slot h.core = true → (s.dev.at_ h).run = .running →
    (s.dev.at_ h).stalled = none → s.dev.readStore h.slot (s.dev.at_ h).pc 4 0 = (s.dev, true) → (s.dev.tile h.slot).image.loaded = true →
    x ∈ scalarForms h d a b ++ compareForms h d a b ++ predForms h d a b →
    let pc := (s.dev.at_ h).pc
    let w := s.dev.insnWord h.slot pc
    (decodeInsn h.slot h.core w (s.dev.insnWord h.slot (pc + 4)) = none →
      exec x s = answer s (s.dev.progFault h.slot h.core (wClass w) (wFunction w) pc 1 0))
    ∧ (w = 0 → exec x s = answer s (s.dev.progFault h.slot h.core 0 0 pc 1 0))

/-- The first word of layout W (R135) with a function of seven bits. -/
def wordW (cls : Nat) (long : Bool) (pg : Fin 8) (pn : Bool) (d a b : R5) (fn : Nat) : Word :=
  BitVec.ofNat 32 (b2n long + cls * 2 + pg.val * 2 ^ 6 + b2n pn * 2 ^ 9 + d.val * 2 ^ 10 + a.val * 2 ^ 15 + b.val * 2 ^ 20 + fn * 2 ^ 25)

/-- The first word of layout I with IMM8, and the first word of a long one, whose IMM8 is 0. -/
def wordI (cls : Nat) (long : Bool) (pg : Fin 8) (pn : Bool) (d a : R5) (fn : Nat) (imm : BitVec 8) : Word :=
  BitVec.ofNat 32 (b2n long + cls * 2 + pg.val * 2 ^ 6 + b2n pn * 2 ^ 9 + d.val * 2 ^ 10 + a.val * 2 ^ 15 + fn * 2 ^ 20 + imm.toNat * 2 ^ 24)

/-- The words that the tables of R135, R136, R139 and R140 give the scalar, compare, predicate, immediate and jump forms
spell them, whatever the guard and the registers; the words 0 and 0xFFFF_FFFF, a class outside the table and a length that a
class does not allow spell nothing; so do the worked examples of R145 and R148. -/
def Parts.WordsSpell : Prop :=
  (∀ (p : Slot) (c : Fin 4) (pg : Fin 8) (pn : Bool) (d a b : R5) (v8 : BitVec 8) (w1 : Word) (off : BitVec 22),
    let h : Iss := ⟨p, c, pg, pn⟩
    (List.range 14).map (fun fn => decodeInsn p c (wordW 1 false pg pn d a b fn) w1) = (scalarForms h d a b).map some
    ∧ (List.range 6).map (fun k => decodeInsn p c (wordW 1 false pg pn d a b (0x10 + k)) w1) = (compareForms h d a b).map some
    ∧ (List.range 6).map (fun k => decodeInsn p c (wordW 5 false pg pn d a b (5 + k)) w1) = (predForms h d a b).map some
    ∧ (∀ long : Bool, let i : Imm := if long then .long w1 else .short v8
        let word := fun fn => wordI 2 long pg pn d a fn (if long then 0 else v8)
        (List.range 7).map (fun fn => decodeInsn p c (word fn) w1) = (immForms h d a i).map some
        ∧ (List.range 4).map (fun k => decodeInsn p c (word (8 + k)) w1) = (compareImmForms h d a i).map some
        ∧ decodeInsn p c (word 7) w1 = some (.movh h d a i))
    ∧ decodeInsn p c (BitVec.ofNat 32 (3 * 2 + pg.val * 2 ^ 6 + b2n pn * 2 ^ 9 + off.toNat * 2 ^ 10)) w1 = some (.bra h off)
    ∧ decodeInsn p c (BitVec.ofNat 32 (4 * 2 + pg.val * 2 ^ 6 + b2n pn * 2 ^ 9 + off.toNat * 2 ^ 10)) w1 = some (.call h off)
    ∧ (∀ cls fn, cls = 0 ∨ 0x17 ≤ cls ∧ cls < 32 → fn < 128 → decodeInsn p c (wordW cls false pg pn d a b fn) w1 = none)
    ∧ (∀ cls fn, cls ∈ [1, 3, 4, 5, 7, 9, 0xC, 0xD, 0x10, 0x11, 0x12, 0x13, 0x14, 0x15, 0x16] → fn < 128 →
        decodeInsn p c (wordW cls true pg pn d a b fn) w1 = none)
    ∧ (∀ cls fn, cls ∈ [0xA, 0xE, 0xF] → fn < 128 → decodeInsn p c (wordW cls false pg pn d a b fn) w1 = none))
  ∧ (∀ (p : Slot) (c : Fin 4) (w1 : Word),
    decodeInsn p c 0 w1 = none ∧ decodeInsn p c 0xFFFFFFFF w1 = none
    ∧ decodeInsn p c 0x02042815 0x00440201 = some (.vquoin ⟨p, c, 0, false⟩ 10 8 0x00440201)
    ∧ decodeInsn p c 0x0A830C1F 0x00000002 = some (.mpair ⟨p, c, 0, false⟩ ⟨2, true, false, 0, 2, 5, 0, 2, 0, false, 0, 0⟩))

/-! ## Scalar instructions (R126, R127, R139, R140) -/

/-- Register forms: the result goes to sD. -/
def Parts.ScalarResults : Prop :=
  ∀ (s : State) (h : Iss) (d a b : R5), Ready s.dev h 0x01 false [d, a, b] [] → s.dev.on h →
    let x := (s.dev.at_ h).sreg a
    let y := (s.dev.at_ h).sreg b
    let n := y.toNat % 64
    let gives := fun v : DWord => answer s ((s.dev.putS h d v).retired h false)
    exec (.add h d a b) s = gives (x + y) ∧ exec (.sub h d a b) s = gives (x - y) ∧ exec (.and h d a b) s = gives (x &&& y)
    ∧ exec (.or h d a b) s = gives (x ||| y) ∧ exec (.xor h d a b) s = gives (x ^^^ y) ∧ exec (.shl h d a b) s = gives (x <<< n)
    ∧ exec (.shr h d a b) s = gives (x >>> n) ∧ exec (.sra h d a b) s = gives (x.sshiftRight n) ∧ exec (.mul h d a b) s = gives (x * y)
    ∧ exec (.mulhu h d a b) s = gives (BitVec.ofNat 64 (x.toNat * y.toNat / 2 ^ 64))
    ∧ exec (.min h d a b) s = gives (if x.toInt < y.toInt then x else y) ∧ exec (.max h d a b) s = gives (if x.toInt < y.toInt then y else x)
    ∧ exec (.minu h d a b) s = gives (if x.toNat < y.toNat then x else y) ∧ exec (.maxu h d a b) s = gives (if x.toNat < y.toNat then y else x)

/-- Compares: p(D) takes the outcome in all 128 bits. -/
def Parts.CompareResults : Prop :=
  ∀ (s : State) (h : Iss) (d a b : R5), Ready s.dev h 0x01 false [a, b] [] → s.dev.on h → d.val < 8 →
    let x := (s.dev.at_ h).sreg a
    let y := (s.dev.at_ h).sreg b
    let gives := fun q : Bool => answer s ((s.dev.putP h d (if q then BitVec.allOnes 128 else 0)).retired h false)
    exec (.cmpeq h d a b) s = gives (decide (x = y)) ∧ exec (.cmpne h d a b) s = gives (decide (x ≠ y))
    ∧ exec (.cmplt h d a b) s = gives (decide (x.toInt < y.toInt)) ∧ exec (.cmple h d a b) s = gives (decide (x.toInt ≤ y.toInt))
    ∧ exec (.cmpltu h d a b) s = gives (decide (x.toNat < y.toNat)) ∧ exec (.cmpleu h d a b) s = gives (decide (x.toNat ≤ y.toNat))

/-- Tier 2. Results of the scalar and compare instructions of two registers. -/
def Obligations.TwoOperandResults : Prop := Parts.ScalarResults ∧ Parts.CompareResults

/-- Immediate forms: the immediate is sign-extended; movh keeps the low half of sA and takes its high half from IMM32. -/
def Parts.ImmediateResults : Prop :=
  ∀ (s : State) (h : Iss) (d a : R5) (i : Imm), Ready s.dev h 0x02 (immLong i) [d, a] [] → s.dev.on h →
    let x := (s.dev.at_ h).sreg a
    let y : DWord := match i with | .short v => v.signExtend 64 | .long v => v.signExtend 64
    let n := y.toNat % 64
    let gives := fun v : DWord => answer s ((s.dev.putS h d v).retired h (immLong i))
    exec (.addi h d a i) s = gives (x + y) ∧ exec (.andi h d a i) s = gives (x &&& y) ∧ exec (.ori h d a i) s = gives (x ||| y)
    ∧ exec (.xori h d a i) s = gives (x ^^^ y) ∧ exec (.shli h d a i) s = gives (x <<< n) ∧ exec (.shri h d a i) s = gives (x >>> n)
    ∧ exec (.srai h d a i) s = gives (x.sshiftRight n)
    ∧ (∀ v, i = .long v → exec (.movh h d a i) s = gives (v ++ x.setWidth 32))

/-- Compares with an immediate. -/
def Parts.CompareImmediateResults : Prop :=
  ∀ (s : State) (h : Iss) (d a : R5) (i : Imm), Ready s.dev h 0x02 (immLong i) [a] [] → s.dev.on h → d.val < 8 →
    let x := (s.dev.at_ h).sreg a
    let y : DWord := match i with | .short v => v.signExtend 64 | .long v => v.signExtend 64
    let gives := fun q : Bool => answer s ((s.dev.putP h d (if q then BitVec.allOnes 128 else 0)).retired h (immLong i))
    exec (.cmpeqi h d a i) s = gives (decide (x = y)) ∧ exec (.cmpnei h d a i) s = gives (decide (x ≠ y))
    ∧ exec (.cmplti h d a i) s = gives (decide (x.toInt < y.toInt)) ∧ exec (.cmpltui h d a i) s = gives (decide (x.toNat < y.toNat))

/-- Tier 2. Results of the scalar and compare instructions with an immediate, and of movh. -/
def Obligations.ImmediateForms : Prop := Parts.ImmediateResults ∧ Parts.CompareImmediateResults

/-- Tier 2. Predicate functions on predicates 0 to 7. -/
def Obligations.PredicateResults : Prop :=
  ∀ (s : State) (h : Iss) (d a b : R5), Ready s.dev h 0x05 false [] [] → s.dev.on h → d.val < 8 → a.val < 8 → b.val < 8 →
    let x := (s.dev.at_ h).preg a
    let y := (s.dev.at_ h).preg b
    let ones := BitVec.allOnes 128
    let gives := fun v : Pred => answer s ((s.dev.putP h d v).retired h false)
    exec (.pand h d a b) s = gives (x &&& y) ∧ exec (.por h d a b) s = gives (x ||| y) ∧ exec (.pxor h d a b) s = gives (x ^^^ y)
    ∧ exec (.pnot h d a) s = gives (~~~ x) ∧ exec (.pany h d a) s = gives (if x = 0 then 0 else ones)
    ∧ exec (.pall h d a) s = gives (if x = ones then ones else 0)

/-- What a write of sD does: s0 discards it and reads 0 (R127), sD takes it, every other register, every other core and
all memory stay. -/
def Parts.ScalarWriteFrame : Prop :=
  ∀ (d : Dev) (h : Iss) (r : R5) (v : DWord),
    (∀ q, ((d.putS h r v).at_ h).sreg q = if q = 0 then 0 else if q = r then v else (d.at_ h).sreg q)
    ∧ ((d.putS h r v).at_ h).v = (d.at_ h).v ∧ ((d.putS h r v).at_ h).p = (d.at_ h).p ∧ ((d.putS h r v).at_ h).pc = (d.at_ h).pc
    ∧ (∀ p c, ¬ (p = h.slot.val ∧ c = h.core.val) → (d.putS h r v).core p c = d.core p c)
    ∧ (d.putS h r v).regs = d.regs ∧ (d.putS h r v).mem = d.mem

/-- The same for a predicate: p0 is all ones and cannot be written (R126). -/
def Parts.PredicateWriteFrame : Prop :=
  ∀ (d : Dev) (h : Iss) (r : Nat) (v : Pred),
    (∀ q, ((d.putP h r v).at_ h).preg q = if q = 0 then BitVec.allOnes 128 else if q = r then v else (d.at_ h).preg q)
    ∧ ((d.putP h r v).at_ h).s = (d.at_ h).s ∧ ((d.putP h r v).at_ h).v = (d.at_ h).v
    ∧ (∀ p c, ¬ (p = h.slot.val ∧ c = h.core.val) → (d.putP h r v).core p c = d.core p c)
    ∧ (d.putP h r v).regs = d.regs ∧ (d.putP h r v).mem = d.mem

/-- Tier 2. Writes of a scalar register or a predicate: what they change, s0 and p0, and the frame. -/
def Obligations.CoreRegisterWrites : Prop := Parts.ScalarWriteFrame ∧ Parts.PredicateWriteFrame

/-- A predicate field above 7, and movh's short form, are illegal instructions (R139, R140, R157). -/
def Parts.IllegalForms : Prop :=
  ∀ (s : State) (h : Iss) (d a b : R5) (x : Instr), coreExists h.slot h.core = true → (s.dev.at_ h).run = .running →
    ((s.dev.at_ h).stalled = none → s.dev.readStore h.slot (s.dev.at_ h).pc 4 0 = (s.dev, true)) → 8 ≤ d.val →
    x ∈ compareForms h d a b ++ predForms h d a b ++ [.movh h d a (.short 0)] →
    ∃ cls fn, exec x s = answer s (s.dev.progFault h.slot h.core cls fn (s.dev.at_ h).pc 1 0)

/-- Tier 2. What words spell; classes a kind refuses, illegal forms and illegal words are cause 0x1; a fault is recorded whole and stops the tile. -/
def Obligations.IllegalInstructions : Prop := Parts.ClassRefused ∧ Parts.IllegalWords ∧ Parts.WordsSpell ∧ Parts.IllegalForms ∧ Parts.ProgramFault

/-! ## Control (R129, R138, R140, R156) -/

/-- A taken branch to a multiple of 4 inside the code region sets the PC; call also links s31; any other target is a
local-address fault at the branch. -/
def Parts.Branches : Prop :=
  ∀ (s : State) (h : Iss) (off : BitVec 22) (a : R5), s.dev.on h →
    let k := s.dev.at_ h
    let t := (w64 k.pc + off.signExtend 64 * 4#64).toNat
    let ok := fun t : Nat => t % 4 = 0 ∧ t < (s.dev.tile h.slot).image.codeEnd
    let goes := fun (d : Dev) (t : Nat) =>
      answer s ((d.modCore h.slot h.core (fun k => { k with pc := t, run := .running, stalled := none })).counted h.slot)
    let bad := fun (cls fn t : Nat) => answer s (s.dev.progFault h.slot h.core cls fn k.pc 2 (w64 t))
    (Ready s.dev h 0x03 false [] [] → exec (.bra h off) s = if ok t then goes s.dev t else bad 3 0 t)
    ∧ (Ready s.dev h 0x04 false [31] [] → exec (.call h off) s = if ok t then goes (s.dev.putS h 31 (w64 (k.pc + 4))) t else bad 4 0 t)
    ∧ (Ready s.dev h 0x05 false [a] [] → exec (.jr h a) s = if ok (k.sreg a).toNat then goes s.dev (k.sreg a).toNat else bad 5 3 (k.sreg a).toNat)

/-- nop only passes; fence passes once no global access of the core is outstanding, else it waits; halt ends the
core's issue past itself and drops the broadcasts that wait for it; dmark writes the mark register. -/
def Parts.ControlResults : Prop :=
  ∀ (s : State) (h : Iss) (a : R5), s.dev.on h →
    let k := s.dev.at_ h
    (Ready s.dev h 0x05 false [] [] →
      exec (.nopInstruction h) s = answer s (s.dev.retired h false)
      ∧ exec (.fence h) s = answer s (if k.loads = [] ∧ k.stores = [] then s.dev.retired h false else s.dev.waits h (.fence h))
      ∧ ∃ t, exec (.halt h) s = .next t ∧ (t.dev.at_ h).run = .halted ∧ (t.dev.at_ h).bq = [] ∧ (t.dev.at_ h).pc = (k.pc + 4) % 2 ^ 19
          ∧ (∀ x, t.dev.byte x = s.dev.byte x))
    ∧ (Ready s.dev h 0x16 false [a] [] → exec (.dmark h a) s = answer s ((s.dev.setReg (Reg.tileDbgMark h.slot) (k.sreg a).toNat).retired h false))
    ∧ (Ready s.dev h 0x16 false [] [] →
      (s.dev.debugOpen 2 = false → exec (.brk h) s = answer s (s.dev.retired h false))
      ∧ (s.dev.debugOpen 2 = true → ∃ t, exec (.brk h) s = .next t ∧ (t.dev.at_ h).run = .halted
          ∧ t.dev.out = s.dev.out ++ [.debugger h.slot h.core]))

/-- The special registers 0 to 9 (R129); the cycle counter is a free value (log entry 4), any other number an illegal
instruction. -/
def Parts.SpecialRegisters : Prop :=
  ∀ (s : State) (h : Iss) (d n : R5), Ready s.dev h 0x05 false [d] [] → s.dev.on h →
    let t := s.dev.tile h.slot
    let gives := fun v : DWord => exec (.srd h d n) s = answer s ((s.dev.putS h d v).retired h false)
    (n = 0 → gives (t.step.setWidth 64)) ∧ (n = 1 → gives (w64 (s.dev.logical h.slot))) ∧ (n = 2 → gives (w64 h.slot))
    ∧ (n = 3 → gives (w64 h.core)) ∧ (n = 4 → gives (w64 s.dev.ownDev)) ∧ (n = 5 → gives (w64 (s.dev.fld Reg.devBoard F.devBoardBoardPos)))
    ∧ (n = 6 → gives (if t.replayed then 1 else 0))
    ∧ (n = 7 → exec (.srd h d n) s = answer s ((s.dev.free.2.putS h d s.dev.free.1).retired h false))
    ∧ (n = 8 → gives (w64 s.dev.timebase)) ∧ (n = 9 → gives (w64 (s.dev.fld Reg.devMap F.devMapMapGen)))
    ∧ (9 < n.val → exec (.srd h d n) s = answer s (s.dev.progFault h.slot h.core 5 4 (s.dev.at_ h).pc 1 0))

/-- Tier 2. Branches, calls, halt, fence, dmark, brk and the special registers. -/
def Obligations.ControlFlow : Prop := Parts.Branches ∧ Parts.ControlResults ∧ Parts.SpecialRegisters

/-! ## Local memory (R130, R141, R146) -/

/-- sA + IMM8 × size, or sA + IMM32 (R141). -/
def addrOf (i : Imm) (x : DWord) (size : Nat) : DWord :=
  match i with
  | .short v => x + v.signExtend 64 * w64 size
  | .long v => x + v.signExtend 64

/-- Loads from the tile's own store: the bytes in order, zero- or sign-extended, go to sD; lxadd takes the old value and
leaves the sum; memory outside the access is as before. -/
def Parts.LocalLoads : Prop :=
  ∀ (s : State) (h : Iss) (d a : R5) (i : Imm), Ready s.dev h 0x06 (immLong i) [d, a] [] → s.dev.on h →
    let x := (s.dev.at_ h).sreg a
    let v := fun n => s.dev.nat (tileBase h.slot + (addrOf i x n).toNat) n
    let may := fun n => (addrOf i x n).toNat + n ≤ 0x60000 ∧ (addrOf i x n).toNat % n = 0
      ∧ s.dev.readStore h.slot (addrOf i x n).toNat n (1 + h.core.val) = (s.dev, true)
    let gives := fun w : DWord => answer s ((s.dev.putS h d w).retired h (immLong i))
    (may 1 → exec (.ldU8 h d a i) s = gives (w64 (v 1)) ∧ exec (.ldS8 h d a i) s = gives ((BitVec.ofNat 8 (v 1)).signExtend 64))
    ∧ (may 2 → exec (.ldU16 h d a i) s = gives (w64 (v 2)) ∧ exec (.ldS16 h d a i) s = gives ((BitVec.ofNat 16 (v 2)).signExtend 64))
    ∧ (may 4 → exec (.ldU32 h d a i) s = gives (w64 (v 4)) ∧ exec (.ldS32 h d a i) s = gives ((BitVec.ofNat 32 (v 4)).signExtend 64))
    ∧ (may 8 → exec (.ld64 h d a i) s = gives (w64 (v 8)))

/-- Stores and lxadd: the low bytes of sD (of old + sD for lxadd, whose old value goes to sD) lie at the address, least
significant first; every other byte of memory, every other core and the other registers are as before. -/
def Parts.LocalStores : Prop :=
  ∀ (s : State) (h : Iss) (d a : R5) (i : Imm), Ready s.dev h 0x06 (immLong i) [d, a] [] → s.dev.on h → s.dev.ecc = [] →
    let k := s.dev.at_ h
    let at_ := fun n => tileBase h.slot + (addrOf i (k.sreg a) n).toNat
    let may := fun n => (addrOf i (k.sreg a) n).toNat + n ≤ 0x60000 ∧ (addrOf i (k.sreg a) n).toNat % n = 0
      ∧ (s.dev.tile h.slot).image.codeEnd ≤ (addrOf i (k.sreg a) n).toNat ∧ s.dev.mayWrite h.slot (addrOf i (k.sreg a) n).toNat n 0 = true
    let puts := fun (x : Instr) (n v : Nat) (k' : Core) => ∃ t, exec x s = .next t ∧ t.pending = s.pending
      ∧ (∀ y, t.dev.byte y = if at_ n ≤ y ∧ y < at_ n + n then BitVec.ofNat 8 (v / 256 ^ (y - at_ n)) else s.dev.byte y)
      ∧ t.dev.at_ h = k'.advance (immLong i)
      ∧ (∀ p c, ¬ (p = h.slot.val ∧ c = h.core.val) → t.dev.core p c = s.dev.core p c)
      ∧ (∀ off, off ≠ Reg.tileIssueLo h.slot → off ≠ Reg.tileIssueHi h.slot → t.dev.reg off = s.dev.reg off)
    let v := (k.sreg d).toNat
    let old := fun n => s.dev.nat (at_ n) n
    (may 1 → puts (.st8 h d a i) 1 v k) ∧ (may 2 → puts (.st16 h d a i) 2 v k) ∧ (may 4 → puts (.st32 h d a i) 4 v k)
    ∧ (may 8 → puts (.st64 h d a i) 8 v k)
    ∧ (may 4 → puts (.lxadd32 h d a i) 4 (old 4 + v) (k.setS d (w64 (old 4))))
    ∧ (may 8 → puts (.lxadd64 h d a i) 8 (old 8 + v) (k.setS d (w64 (old 8))))

/-- An access outside the store or not a multiple of its size is a local-address fault, cause 0x2, at its address; so is
a store into the code region (R130, R157). -/
def Parts.LocalAddressFaults : Prop :=
  ∀ (s : State) (h : Iss) (d a : R5) (i : Imm) (n fn : Nat) (x : Instr), Ready s.dev h 0x06 (immLong i) [d, a] [] → s.dev.on h →
    (n, fn, x) ∈ ([(1, 0, .ldU8 h d a i), (1, 1, .ldS8 h d a i), (2, 2, .ldU16 h d a i), (2, 3, .ldS16 h d a i), (4, 4, .ldU32 h d a i),
      (4, 5, .ldS32 h d a i), (8, 6, .ld64 h d a i), (1, 8, .st8 h d a i), (2, 9, .st16 h d a i), (4, 0xA, .st32 h d a i),
      (8, 0xB, .st64 h d a i), (4, 0xC, .lxadd32 h d a i), (8, 0xD, .lxadd64 h d a i)] : List (Nat × Nat × Instr)) →
    let ad := addrOf i ((s.dev.at_ h).sreg a) n
    (0x60000 < ad.toNat + n ∨ ad.toNat % n ≠ 0) ∨ (8 ≤ fn ∧ fn ≤ 0xB ∧ ad.toNat < (s.dev.tile h.slot).image.codeEnd) →
    exec x s = answer s (s.dev.progFault h.slot h.core 6 fn (s.dev.at_ h).pc 2 ad)

/-- Tier 2. Loads, stores and atomic additions of the tile's own store, their faults, and which bytes stay. -/
def Obligations.LocalMemory : Prop := Parts.LocalLoads ∧ Parts.LocalStores ∧ Parts.LocalAddressFaults

/-- Tier 2. Vector loads and stores at a 64-byte-aligned address, with all lanes on: 128 elements of 16, 8, 4 or 32 bits between
v(D) (v(D), v(D + 1) in the wide form) and the store. -/
def Obligations.VectorMemory : Prop :=
  ∀ (s : State) (h : Iss) (d a : R5) (i : Imm), s.dev.onV h → s.dev.ecc = [] →
    let k := s.dev.at_ h
    let g := k.guard h
    let ad := addrOf i (k.sreg a) 64
    let g0 := tileBase h.slot + ad.toNat
    let may := fun n => ad.toNat + n ≤ 0x60000 ∧ ad.toNat % 64 = 0
    let wr := fun n => may n ∧ (s.dev.tile h.slot).image.codeEnd ≤ ad.toNat ∧ s.dev.mayWrite h.slot ad.toNat n 0 = true
    let gives := fun f : Core → Core => answer s ((s.dev.modCore h.slot h.core f).retired h (immLong i))
    let puts := fun (x : Instr) (n : Nat) (f : Nat → Nat) => ∃ t, exec x s = .next t
      ∧ (∀ y, t.dev.byte y = if g0 ≤ y ∧ y < g0 + n then BitVec.ofNat 8 (f (y - g0)) else s.dev.byte y)
      ∧ t.dev.at_ h = k.advance (immLong i)
    (Ready s.dev h 0x0B (immLong i) [a] [d] →
      (may 256 → exec (.vld16 h d a i) s = gives (fun k => k.putLanes g d (fun l => s.dev.nat (g0 + 2 * l) 2)))
      ∧ (may 128 → exec (.vld8 h d a i) s = gives (fun k => k.putLanes g d (fun l => (s.dev.byte (g0 + l)).toNat)))
      ∧ (may 64 → exec (.vld4 h d a i) s = gives (fun k => k.putLanes g d (fun l => (s.dev.byte (g0 + l / 2)).toNat / 16 ^ (l % 2) % 16)))
      ∧ (g = BitVec.allOnes 128 → wr 256 → puts (.vst16 h d a i) 256 (fun j => (lane (k.vreg d) (j / 2)).toNat / 256 ^ (j % 2)))
      ∧ (g = BitVec.allOnes 128 → wr 128 → puts (.vst8 h d a i) 128 (fun j => (lane (k.vreg d) j).toNat))
      ∧ (g = BitVec.allOnes 128 → wr 64 → puts (.vst4 h d a i) 64 (fun j =>
          (lane (k.vreg d) (2 * j)).toNat % 16 + 16 * ((lane (k.vreg d) (2 * j + 1)).toNat % 16))))
    ∧ (Ready s.dev h 0x0B (immLong i) [a] [d, d + 1] → d.val % 2 = 0 →
      (may 512 → exec (.vldW h d a i) s = gives (fun k => k.putWide g d (fun l => s.dev.nat (g0 + 4 * l) 4)))
      ∧ (g = BitVec.allOnes 128 → wr 512 → puts (.vstW h d a i) 512 (fun j => (k.wide d (j / 4)).toNat / 256 ^ (j % 4))))

/-! ## Global memory (R131 to R133, R142) -/

/-- A global access of this device that is aligned, inside its addresses and not control space: a load or an atomic
addition reads at once and waits for its answer with what it read; a store writes at once and waits for its acknowledgement. A load from
another device goes out as a request and waits. -/
def Parts.GlobalAccess : Prop :=
  ∀ (s : State) (h : Iss) (d a b : R5), (s.dev.at_ h).loads.length < 8 → (s.dev.at_ h).stores.length < 32 →
    let k := s.dev.at_ h
    let x := k.sreg a
    let m := x.toNat % 2 ^ 48
    let okAt := fun n => x.toNat / 2 ^ 61 = 0 ∧ s.dev.isLocal x.toNat = true ∧ gaAddr x.toNat = m ∧ m % min n 64 = 0 ∧ inCtl m = false
    let acc : Nat → Nat → Bool → GAcc := fun fn n remote => ⟨0, k.pc, 7, fn, x, n, false, false, 0, [], true, remote⟩
    let done := fun (e : Dev) (st : Bool) (g : GAcc) => answer s ((e.pushAcc h st g).retired h false)
    let load := fun (i : Instr) (fn n : Nat) (vec : Bool) => ∀ e bs, okAt n → s.dev.memRead (.tile h.slot) m n = (e, some bs) →
      exec i s = done e false { acc fn n (inHold m) with data := bs, vec := vec, d := d }
    let store := fun (i : Instr) (fn n : Nat) (v : Nat) => ∀ e r, okAt n → s.dev.memWrite (.tile h.slot) m (toBytes n v) = (e, r) →
      exec i s = done e true { acc fn n true with ok := r }
    let atomic := fun (i : Instr) (fn n : Nat) => ∀ e old, okAt n → s.dev.memGadd (.tile h.slot) m n (k.sreg b) = (e, some old) →
      exec i s = done e false { acc fn n (inHold m) with data := toBytes n old, atomic := true, d := d }
    (s.dev.on h →
      (Ready s.dev h 7 false [d, a] [] → load (.ldg32 h d a) 0 4 false ∧ load (.ldg64 h d a) 1 8 false
        ∧ ∀ e, x.toNat / 2 ^ 61 = 0 → s.dev.isLocal x.toNat = false → gaAddr x.toNat % 4 = 0 → inCtl (gaAddr x.toNat) = false →
            s.dev.remoteVia 0 (h.slot.val / 24) (gaDev x.toNat) 1 (gaAddr x.toNat) (.read 4) = (e, true) →
            exec (.ldg32 h d a) s = done e false { acc 0 4 true with d := d })
      ∧ (Ready s.dev h 7 false [a, b] [] → store (.stg32 h a b) 2 4 (k.sreg b).toNat ∧ store (.stg64 h a b) 3 8 (k.sreg b).toNat)
      ∧ (Ready s.dev h 7 false [d, a, b] [] → atomic (.gadd32 h d a b) 4 4 ∧ atomic (.gadd64 h d a b) 5 8)
      ∧ (Ready s.dev h 7 false [a] [d] → load (.vldg h d a) 6 256 true ∧ store (.vstg h d a) 7 256 (k.vreg d).toNat))

/-- The answer of a local load or atomic addition goes to its register and the access is no longer outstanding; the
acknowledgement of a store that went well leaves the list; an access that failed is a global-address fault at its own PC and address,
at which the core of a failed load stands (R131, R142, R157). -/
def Parts.GlobalCompletion : Prop :=
  ∀ (s : State) (p : Slot) (c : Fin 4) (k : Nat) (g : GAcc) (r : Remote), coreExists p c = true → r ≠ .err → s.dev.isLocal g.addr.toNat = true →
    let q := s.dev.core p c
    let noLoad := s.dev.modCore p c (fun q => { q with loads := q.loads.eraseIdx k })
    let noStore := s.dev.modCore p c (fun q => { q with stores := q.stores.eraseIdx k })
    (q.loads[k]? = some g → exec (.globalLoadResponse p c k r) s =
      if g.ok then answer s ((noLoad.modCore p c (fun q => q.putAcc g g.data)).settle p)
      else answer s ((if g.atomic then noLoad else noLoad.modCore p c (fun q => { q with pc := g.pc })).progFault p c g.cls g.fn g.pc 3 g.addr))
    ∧ (q.stores[k]? = some g → exec (.postedWriteAck p c k r) s =
      if g.ok then answer s (noStore.settle p) else answer s (noStore.progFault p c g.cls g.fn g.pc 3 g.addr))

/-- Tier 2. Global loads, stores and atomic additions, and how they complete. -/
def Obligations.GlobalMemory : Prop := Parts.GlobalAccess ∧ Parts.GlobalCompletion

/-! ## Vector instructions (R108 to R111, R143 to R145) -/

/-- Lane arithmetic with RNE: exact result of the two (three) lanes, rounded once to the lane format, in the guarded
lanes; 16-bit integers wrap, min and max compare them unsigned. -/
def Parts.VectorArithmetic : Prop :=
  ∀ (s : State) (h : Iss) (d a b : R5) (lf : Fin 4), s.dev.onV h → (lf = 3 → d.val % 2 = 0 ∧ a.val % 2 = 0 ∧ b.val % 2 = 0) →
    let k := s.dev.at_ h
    let m := laneFmt lf
    let regs := regsFor lf [d, a, b]
    let x := fun i => k.laneOf lf a i
    let y := fun i => k.laneOf lf b i
    let z := fun i => k.laneOf lf d i
    let gives := fun (f : Nat → Conv) => answer s ((s.dev.putConv h lf ((s.dev.at_ h).guard h) d f).retired h false)
    let rounds := fun (f : NV → NV → NV → NV) => gives (fun i => m.conv .rne (f (m.dec (x i)) (m.dec (y i)) (m.dec (z i))))
    let wraps := fun (f : Nat → Nat → Nat → Nat) => gives (fun i => ⟨f (x i) (y i) (z i) % 2 ^ 16, false, false⟩)
    (Ready s.dev h 8 false [] regs →
      (lf ≠ 2 → exec (.vadd h d a b lf 0 none) s = rounds (fun x y _ => x.add y) ∧ exec (.vsub h d a b lf 0 none) s = rounds (fun x y _ => x.sub y)
        ∧ exec (.vmul h d a b lf 0 none) s = rounds (fun x y _ => x.mul y) ∧ exec (.vfma h d a b lf 0 none) s = rounds (fun x y z => (x.mul y).add z)
        ∧ exec (.vmin h d a b lf 0 none) s = rounds (fun x y _ => x.vmin y) ∧ exec (.vmax h d a b lf 0 none) s = rounds (fun x y _ => x.vmax y))
      ∧ (lf = 2 → exec (.vadd h d a b lf 0 none) s = wraps (fun x y _ => x + y) ∧ exec (.vsub h d a b lf 0 none) s = wraps (fun x y _ => x + 2 ^ 16 - y)
        ∧ exec (.vmul h d a b lf 0 none) s = wraps (fun x y _ => x * y) ∧ exec (.vfma h d a b lf 0 none) s = wraps (fun x y z => x * y + z)
        ∧ exec (.vmin h d a b lf 0 none) s = wraps (fun x y _ => min x y) ∧ exec (.vmax h d a b lf 0 none) s = wraps (fun x y _ => max x y)))
    ∧ (lf ≠ 2 → Ready s.dev h 8 false [] (regsFor lf [d, a, 0]) →
      exec (.vabs h d a lf 0 none) s = gives (fun i => m.conv .rne (m.dec (x i)).abs)
      ∧ exec (.vneg h d a lf 0 none) s = gives (fun i => m.conv .rne (m.dec (x i)).neg))

/-- Stochastic and truncating rounding take the same exact result: SR takes u of lane i from the pair that the high word
names (R54, R143). -/
def Parts.VectorRounding : Prop :=
  ∀ (s : State) (h : Iss) (d a b u : R5), s.dev.onV h → u.val % 2 = 0 →
    let k := s.dev.at_ h
    let sum := fun i => (bf16.dec (k.laneOf 0 a i)).add (bf16.dec (k.laneOf 0 b i))
    (Ready s.dev h 8 true [] [d, a, b, u, u + 1] → exec (.vadd h d a b 0 1 (some (w32 u))) s
        = answer s ((s.dev.putConv h 0 (k.guard h) d (fun i => bf16.conv (.sr (k.wide u i).toNat) (sum i))).retired h true))
    ∧ (Ready s.dev h 8 false [] [d, a, b] → exec (.vadd h d a b 0 2 none) s
        = answer s ((s.dev.putConv h 0 (k.guard h) d (fun i => bf16.conv .rz (sum i))).retired h false))

/-- Tier 2. Lane arithmetic: one rounding of the exact result, in the guarded lanes, in each rounding mode. -/
def Obligations.VectorArithmetic : Prop := Parts.VectorArithmetic ∧ Parts.VectorRounding

/-- Compares give p(D) bit by bit in the guarded lanes; the moves give v(D), vsel in every lane by the guard; vext and vins
act on lane sB[6:0], of the pair in the wide form. -/
def Parts.VectorCompareMove : Prop :=
  ∀ (s : State) (h : Iss) (d a b : R5) (lf : Fin 4), (lf = 3 → d.val % 2 = 0 ∧ a.val % 2 = 0 ∧ b.val % 2 = 0) →
    let k := s.dev.at_ h
    let g := k.guard h
    let m := laneFmt lf
    let x := fun i => k.laneOf lf a i
    let y := fun i => k.laneOf lf b i
    let cmp := fun (f : NV → NV → Bool) (n : Nat → Nat → Bool) => answer s ((s.dev.putP h d (predOf g (k.preg d) (fun i =>
      if lf = 2 then n (x i) (y i) else f (m.dec (x i)) (m.dec (y i))))).retired h false)
    let mov := fun f : Core → Core => answer s ((s.dev.modCore h.slot h.core f).retired h false)
    let l := (k.sreg b).toNat % 128
    (s.dev.onV h → Ready s.dev h 9 false [] (regsFor lf [a, b]) → d.val < 8 →
      exec (.vcmpeq h d a b lf) s = cmp (fun x y => x.eqv y) (fun x y => x == y)
      ∧ exec (.vcmpne h d a b lf) s = cmp (fun x y => !x.eqv y) (fun x y => x != y)
      ∧ exec (.vcmplt h d a b lf) s = cmp (fun x y => x.lt y) (fun x y => decide (x < y))
      ∧ exec (.vcmple h d a b lf) s = cmp (fun x y => x.le y) (fun x y => decide (x ≤ y))
      ∧ exec (.vcmpun h d a b lf) s = cmp (fun x y => x.isNan || y.isNan) (fun _ _ => false))
    ∧ (Ready s.dev h 9 false [] (regsFor lf [d, a, b]) → exec (.vsel h d a b lf) s
        = mov (fun k' => k'.putLf lf (BitVec.allOnes 128) d (fun i => if g.getLsbD i then x i else y i)))
    ∧ (s.dev.onV h → Ready s.dev h 9 false [] (regsFor lf [d, a]) → exec (.vmov h d a lf) s = mov (fun k' => k'.putLf lf g d x))
    ∧ (s.dev.onV h → Ready s.dev h 9 false [a] (regsFor lf [d]) →
      exec (.vbcast h d a lf) s = mov (fun k' => k'.putLf lf g d (fun _ => (k.sreg a).toNat % (if lf = 3 then 2 ^ 32 else 2 ^ 16)))
      ∧ (lf = 3 → exec (.vidx h d a lf) s = mov (fun k' => k'.putWide g d (fun i => ((k.sreg a).toNat + i) % 2 ^ 32))))
    ∧ (s.dev.onV h → Ready s.dev h 9 false [d, b] (regsFor lf [a]) → exec (.vext h d a b lf) s
        = answer s ((if g.getLsbD l then s.dev.putS h d (w64 (x l)) else s.dev).retired h false))
    ∧ (s.dev.onV h → Ready s.dev h 9 false [a, b] (regsFor lf [d]) → exec (.vins h d a b lf) s
        = mov (fun k' => k'.putLf lf g d (fun i => if i = l then (k.sreg a).toNat % 2 ^ 16 else k.laneOf lf d i)))

/-- vcvt between BF16 and FP32 converts the guarded lanes with RNE; vquoin gives the quoin output of each lane's index at
a raw-draw point, and is cause 0x8 at any other (R57, R59, R145, R157). -/
def Parts.VectorConvert : Prop :=
  ∀ (s : State) (h : Iss) (d a : R5) (hi : Word), s.dev.onV h →
    let k := s.dev.at_ h
    let g := k.guard h
    let pt := hi.toNat % 2 ^ 16
    (Ready s.dev h 0x0A true [] [a, a + 1, d] → a.val % 2 = 0 → exec (.vcvt h d a (w32 (7 + 5 * 16))) s
        = answer s ((s.dev.putConv h 0 g d (fun i => fmtConv 5 .rne (fp32.dec (k.wide a i).toNat))).retired h true))
    ∧ (Ready s.dev h 0x0A true [] [d, d + 1, a, a + 1] → d.val % 2 = 0 → a.val % 2 = 0 →
      (0x200 ≤ pt → pt ≤ 0x2FF → exec (.vquoin h d a hi) s
        = answer s ((s.dev.modCore h.slot h.core (fun k' => k'.putWide g d (fun i =>
            (quoin s.dev.seed (s.dev.tile h.slot).step (BitVec.ofNat 16 pt) (BitVec.ofNat 16 (hi.toNat / 2 ^ 16)) (k.wide a i)).toNat))).retired h true))
      ∧ ((pt < 0x200 ∨ 0x2FF < pt) → exec (.vquoin h d a hi) s = answer s (s.dev.progFault h.slot h.core 0x0A 1 (s.dev.at_ h).pc 8 0)))

/-- Tier 2. Vector compares, moves and conversions, and the quoin instruction. -/
def Obligations.VectorMoves : Prop := Parts.VectorCompareMove ∧ Parts.VectorConvert

/-! ## The units of a VT (R112 to R115, R147) -/

/-- With room in the unit's queue of four, the instruction joins it with its guard and operands; with the queue full it
waits. -/
def Parts.UnitQueues : Prop :=
  ∀ (s : State) (h : Iss) (d a b : R5) (bin16 : Bool) (hi : Word), s.dev.onV h ∧ s.dev.on h →
    let t := s.dev.tile h.slot
    let k := s.dev.at_ h
    let g := k.guard h
    let puts := fun (t' : Tile) (long : Bool) => answer s ((s.dev.setTile h.slot t').retired h long)
    let e : Nat → VEnt := fun fn => ⟨fn, g, d, 0, 0, k.vreg a, true, bin16, 0, k.pc⟩
    (Ready s.dev h 0x0C false [] [d, a] →
      ∀ fn x, (fn, x) ∈ ([(0, .vrcp h d a bin16), (1, .vrsqrt h d a bin16), (2, .vexp h d a bin16), (3, .vexp2 h d a bin16), (4, .vlog h d a bin16),
        (5, .vlog2 h d a bin16), (6, .vsigm h d a bin16), (7, .vtanh h d a bin16), (8, .vsilu h d a bin16), (9, .verf h d a bin16)] : List (Nat × Instr)) →
      exec x s = if t.sfu.length < 4 then puts { t with sfu := t.sfu ++ [e fn] } false else answer s (s.dev.waits h x))
    ∧ (Ready s.dev h 0x0D false [d] [a] →
      ∀ fn x, (fn, x) ∈ ([(0, .vredSum h d a b true bin16), (1, .vredSumsq h d a b true bin16), (2, .vredMin h d a b true bin16),
        (3, .vredMax h d a b true bin16), (4, .vredAmax h d a b true bin16)] : List (Nat × Instr)) →
      exec x s = if t.red.length < 4 then puts { t with red := t.red ++ [{ e fn with a := k.sreg a, b := 128 }] } false else answer s (s.dev.waits h x))
    ∧ (Ready s.dev h 0x0E true [a, b] [] →
      ∀ fn x, (fn, x) ∈ ([(0, .qrow h a b hi), (1, .qmerge h a b hi)] : List (Nat × Instr)) → quantLegal fn hi = true →
      exec x s = if t.qnt.length < 4 then puts { t with qnt := t.qnt ++ [⟨fn, g, 0, k.sreg a, k.sreg b, 0, false, false, hi, k.pc⟩] } true
        else answer s (s.dev.waits h x))

/-- The oldest instruction of a unit completes: a special function's results go to the guarded lanes of its register, a
reduction's value to its scalar register, and the instruction leaves its queue; the quantiser works its rows (R112 to R116). -/
def Parts.UnitResults : Prop :=
  ∀ (s : State) (p : Slot) (e : VEnt) (es : List VEnt),
    let t := s.dev.tile p
    (t.sfu = e :: es → ∃ u, exec (.vtUnitResult p .sfu) s = .next u ∧ (u.dev.tile p).sfu = es
      ∧ (u.dev.core p 0).vreg e.d = ((s.dev.core p 0).putLanes e.g e.d (fun i => (sfuLane e.fn e.bin16 (lane e.vin i)).code)).vreg e.d
      ∧ (∀ a, u.dev.byte a = s.dev.byte a))
    ∧ (t.red = e :: es → e.vec = true → ∃ u, exec (.vtUnitResult p .red) s = .next u ∧ (u.dev.tile p).red = es
      ∧ (u.dev.core p 0).sreg e.d = if e.d = 0 then 0 else
          w64 (to32 (rowReduce e.fn ((List.range 128).map (fun i => (if e.bin16 then binary16 else bf16).dec (lane e.vin i).toNat)))))
    ∧ (t.qnt = e :: es → e.b = 1 → ∀ d', s.dev.quantRow p e = .done d' →
      exec (.vtUnitResult p .qnt) s = answer s (d'.modTile p (fun t => { t with qnt := t.qnt.tail })))

/-- Tier 2. Special-function, reduction and quantiser instructions: their queues and their results. -/
def Obligations.TileUnits : Prop := Parts.UnitQueues ∧ Parts.UnitResults

/-! ## The matrix tile (R78 to R106, R148) -/

/-- A matrix instruction with a legal encoding and count joins its array's queue of four (a close: the epilogue's queue of
two) with its scalar operands and its PC, else it waits; a count out of range is matrix fault 0x3. -/
def Parts.MatrixQueues : Prop :=
  ∀ (s : State) (h : Iss) (f : MFields) (mop : Nat) (x : Instr), s.dev.on h →
    (mop, x) ∈ ([(0, .mload h f), (1, .mopen h f), (2, .mstream h f), (3, .mpair h f), (4, .mclose h f), (5, .mdrop h f)] : List (Nat × Instr)) →
    Ready s.dev h 0x0F true (if mop = 4 then [f.sa, f.sb] else []) [] → matrixLegal mop f = true →
    let t := s.dev.tile h.slot
    let k := s.dev.at_ h
    let room := if mop = 4 then t.epQ f.arr < 2 else if mop = 3 then t.arrQ 0 < 4 ∧ t.arrQ 1 < 4 else t.arrQ f.arr < 4
    exec x s =
      if countOk mop f = false then answer s (s.dev.matrixFault h.slot k.pc mop 3 (f.arr.val % 2) f.grp (b2n f.bank) f.ep)
      else if room then answer s ((s.dev.modTile h.slot (fun t =>
        { t with mq := t.mq ++ [⟨mop, f, k.sreg f.sa, k.sreg f.sb, h.core, k.pc, false, 0⟩] })).retired h true)
      else answer s (s.dev.waits h x)

/-- mepl loads and keeps an epilogue descriptor once no queued close uses it, and a descriptor that breaks a rule is matrix
fault 0x4; mwait passes once nothing is queued for the arrays it names (R93, R95, R102). -/
def Parts.MatrixWaits : Prop :=
  ∀ (s : State) (h : Iss) (f : MFields), s.dev.on h →
    let t := s.dev.tile h.slot
    let k := s.dev.at_ h
    let v := BitVec.ofNat 256 (s.dev.nat (tileBase h.slot + (k.sreg f.sa).toNat) 32)
    (Ready s.dev h 0x0F true [f.sa] [] → matrixLegal 6 f = true →
      ((∃ e ∈ t.mq, e.mop = 4 ∧ e.f.ep = f.ep) → exec (.mepl h f) s = answer s (s.dev.waits h (.mepl h f)))
      ∧ ((¬ ∃ e ∈ t.mq, e.mop = 4 ∧ e.f.ep = f.ep) → (k.sreg f.sa).toNat + 32 ≤ 0x60000 → (k.sreg f.sa).toNat % 32 = 0 →
        s.dev.readStore h.slot (k.sreg f.sa).toNat 32 (1 + h.core.val) = (s.dev, true) →
        exec (.mepl h f) s = if epLegal v then answer s ((s.dev.modTile h.slot (fun t => t.setEp f.ep v)).retired h true)
          else answer s (s.dev.matrixFault h.slot k.pc 6 4 (f.arr.val % 2) f.grp (b2n f.bank) f.ep)))
    ∧ (Ready s.dev h 0x0F true [] [] → matrixLegal 7 f = true →
      exec (.mwait h f) s = if (t.mq.any (fun e => f.arr.val == 2 || e.f.arr.val == f.arr.val || e.f.arr.val == 2)) = true
        then answer s (s.dev.waits h (.mwait h f)) else answer s (s.dev.retired h true))

/-- Tier 2. Issue of matrix instructions: queues, epilogue descriptors, waits and count faults. -/
def Obligations.MatrixIssue : Prop := Parts.MatrixQueues ∧ Parts.MatrixWaits

/-- A queued matrix instruction begins once every earlier one that shares a bank, a group, its array's stream or its
epilogue is gone: an open of a group that is open is matrix fault 0x1, a load needs a galley slot of the bank's size, a close marks
its groups closing (R87, R102, R106). -/
def Parts.MatrixStarts : Prop :=
  ∀ (s : State) (p : Slot) (k : Nat) (e : MEnt), (s.dev.tile p).mq[k]? = some e → e.begun = false →
    let t := s.dev.tile p
    let x := s.dev.galley p e.f.gal
    let begins := fun f : Tile → Tile => answer s (s.dev.modTile p (fun t => { f t with mq := (f t).mq.set k { e with begun := true } }))
    ((∃ w ∈ t.mq.take k, w.shares t e = true) → exec (.matrixOpStart p k) s = answer s s.dev)
    ∧ ((∀ w ∈ t.mq.take k, w.shares t e = false) →
      (e.mop = 1 → exec (.matrixOpStart p k) s = if (t.group e.f.arr e.f.grp).st = .open_ then answer s (s.dev.mFault p e 1) else begins id)
      ∧ (e.mop = 5 → exec (.matrixOpStart p k) s = begins id)
      ∧ (e.mop = 0 → x.init = true → x.cons = 1 →
        exec (.matrixOpStart p k) s = if 64 * x.units = bankBytes e.f.fmt then begins id else answer s (s.dev.mFault p e 3))
      ∧ (e.mop = 4 → e.span t = 1 →
        exec (.matrixOpStart p k) s = if (t.group e.f.arr e.f.grp).st = .open_ then
            begins (fun t => t.setGroup e.f.arr e.f.grp { t.group e.f.arr e.f.grp with st := .closing })
          else answer s (s.dev.mFault p e 1))
      ∧ (e.mop = 2 → e.f.flag = false → (t.group e.f.arr e.f.grp).st ≠ .open_ → exec (.matrixOpStart p k) s = answer s (s.dev.mFault p e 1)))

/-- On a tile that no fault has stopped, a matrix instruction that has begun does its work and leaves the queue: an open empties its group, a drop closes it, a
load fills the bank from the galley's oldest slot (turned where the flag says so) and frees the slot (R81, R87, R102). -/
def Parts.MatrixCompletes : Prop :=
  ∀ (s : State) (p : Slot) (k : Nat) (e : MEnt), (s.dev.tile p).mq[k]? = some e → e.begun = true →
    let t := s.dev.tile p
    let x := s.dev.galley p e.f.gal
    let w := fmtWidth e.f.fmt
    s.dev.frozen p = false →
    (e.mop = 1 → exec (.matrixOpComplete p k) s = answer s ((s.dev.modTile p (fun t =>
        t.setGroup e.f.arr e.f.grp { Group.closed with st := .open_ })).modTile p (fun t => { t with mq := t.mq.eraseIdx k })))
    ∧ (e.mop = 5 → ∃ u, exec (.matrixOpComplete p k) s = .next u ∧ (u.dev.tile p).mq = t.mq.eraseIdx k
        ∧ ((u.dev.tile p).group e.f.arr e.f.grp).st = .closed ∧ ((u.dev.tile p).group e.f.arr e.f.grp).acc = []
        ∧ ((u.dev.tile p).group e.f.arr e.f.grp).sat = (t.group e.f.arr e.f.grp).sat ∧ ∀ a, u.dev.byte a = s.dev.byte a)
    ∧ (e.mop = 0 → s.dev.ecc = [] → x.init = true → x.cons = 1 → 0 < x.nfull →
      let a := x.base + (x.tail + x.nacq) % x.nslots * (64 * x.units)
      let bs := s.dev.bytes (tileBase p + a) (bankBytes e.f.fmt)
      ∃ u, exec (.matrixOpComplete p k) s = .next u ∧ (u.dev.tile p).mq = t.mq.eraseIdx k ∧ (∀ b, u.dev.byte b = s.dev.byte b)
        ∧ (u.dev.galley p e.f.gal).nfull = x.nfull - 1 ∧ (u.dev.galley p e.f.gal).tail = (x.tail + 1) % x.nslots
        ∧ ((u.dev.tile p).bank e.f.arr (b2n e.f.bank)).valid = true ∧ ((u.dev.tile p).bank e.f.arr (b2n e.f.bank)).fmt = e.f.fmt
        ∧ ∀ i n, i < e.f.count.toNat → n < 48 → Sparse.get (fun _ => 0) ((u.dev.tile p).bank e.f.arr (b2n e.f.bank)).codes (48 * i + n)
            = codeAt bs w (if e.f.flag then depthOf e.f.fmt * n + i else 48 * i + n))

/-- A one-row stream adds, for each of the 48 columns, its products with the bank to the accumulator: 8-bit and 4-bit
integers exactly and clamped, floats with one rounding (R51, R52, R84, R89). -/
def Parts.MatrixAccumulates : Prop :=
  ∀ (s : State) (p : Slot) (k : Nat) (e : MEnt), (s.dev.tile p).mq[k]? = some e → e.begun = true → e.mop = 2 → e.f.flag = false →
    e.f.count = 1 → e.row = 0 → s.dev.ecc = [] →
    let t := s.dev.tile p
    let x := s.dev.galley p e.f.gal
    let a := x.base + (x.tail + x.nacq) % x.nslots * (64 * x.units)
    let row := codeAt (s.dev.bytes (tileBase p + a) (rowBytes e.f.fmt)) (fmtWidth e.f.fmt)
    let b := t.bank e.f.arr (b2n e.f.bank)
    let g := t.group e.f.arr e.f.grp
    s.dev.frozen p = false → x.init = true → x.cons = 1 → 0 < x.nfull →
    ∃ u, exec (.matrixOpComplete p k) s = .next u ∧ (u.dev.tile p).mq = t.mq.eraseIdx k ∧ (u.dev.galley p e.f.gal).nfull = x.nfull - 1
      ∧ (∀ z, u.dev.byte z = s.dev.byte z)
      ∧ ∀ j, j < 48 → ((u.dev.tile p).group e.f.arr e.f.grp).at_ 0 j =
        if isIntFmt e.f.fmt then (clampInt ((g.at_ 0 j).toInt + intSum b e.f.fmt row j)).1
        else (accFloat (fmtWidth e.f.fmt == 16) (g.at_ 0 j) (products b e.f.fmt row j)).acc

/-- Tier 2. Matrix work: when a queued instruction starts, what it does, and what a stream accumulates. -/
def Obligations.MatrixWork : Prop := Parts.MatrixStarts ∧ Parts.MatrixCompletes ∧ Parts.MatrixAccumulates

/-! ## Galleys (R149, R179 to R188) -/

/-- The program's four operations on a galley: acquire hands out the oldest filled slot, release frees the oldest held,
reserve hands out the next free slot, commit makes the oldest reserved filled; without a slot the plain forms stall, the
non-blocking forms give the status. A side shows as stalled while a core of the tile waits on it. -/
def Parts.GalleyOperations : Prop :=
  ∀ (s : State) (h : Iss) (d g : R5), s.dev.on h → g.val < 16 →
    let x := s.dev.galley h.slot g
    let at_ := fun i => w64 (x.base + i % x.nslots * (64 * x.units))
    let sets := fun y : Galley => s.dev.setGalley h.slot g y
    let status : DWord := 0x8000000000000001#64
    x.init = true →
    (x.cons = 0 → Ready s.dev h 0x10 false [d] [] →
      (0 < x.nfull → ∀ i ∈ [Instr.gacq h d g, .gacqNb h d g], exec i s = answer s (((sets
          { x with nfull := x.nfull - 1, nacq := x.nacq + 1, cstall := (s.dev.galleyWaiter h.slot g true).isSome }).putS h d (at_ (x.tail + x.nacq))).retired h false))
      ∧ (x.nfull = 0 → exec (.gacq h d g) s = answer s ((sets { x with cstall := true }).waits h (.gacq h d g))
          ∧ exec (.gacqNb h d g) s = answer s ((s.dev.putS h d status).retired h false)))
    ∧ (x.prod = 0 → Ready s.dev h 0x10 false [d] [] →
      (0 < x.nslots - x.nres - x.nfull - x.nacq → ∀ i ∈ [Instr.gres h d g, .gresNb h d g], exec i s = answer s (((sets
          { x with nres := x.nres + 1, pstall := (s.dev.galleyWaiter h.slot g false).isSome }).putS h d (at_ (x.head + x.nres))).retired h false))
      ∧ (x.nslots - x.nres - x.nfull - x.nacq = 0 → exec (.gres h d g) s = answer s ((sets { x with pstall := true }).waits h (.gres h d g))
          ∧ exec (.gresNb h d g) s = answer s ((s.dev.putS h d status).retired h false)))
    ∧ (x.cons = 0 → Ready s.dev h 0x10 false [] [] → exec (.grel h g) s =
        if x.nacq = 0 then answer s (s.dev.galleyFault h.slot h.core 0x10 3 (s.dev.at_ h).pc g 4 true 0)
        else answer s ((sets { x with tail := (x.tail + 1) % x.nslots, nacq := x.nacq - 1 }).retired h false))
    ∧ (x.prod = 0 → Ready s.dev h 0x10 false [] [] → exec (.gcom h g) s =
        if x.nres = 0 then answer s (s.dev.galleyFault h.slot h.core 0x10 6 (s.dev.at_ h).pc g 4 false 0)
        else answer s ((sets { x with head := (x.head + 1) % x.nslots, nres := x.nres - 1, nfull := x.nfull + 1 }).retired h false))
    ∧ (Ready s.dev h 0x10 false [d] [] → exec (.gstat h d g) s = answer s ((s.dev.putS h d (w64 (x.head + x.tail * 2 ^ 8 + x.nfull * 2 ^ 16
        + (x.nslots - x.nres - x.nfull - x.nacq) * 2 ^ 24 + x.nres * 2 ^ 32 + x.nacq * 2 ^ 40 + 2 ^ 48 + b2n x.pstall * 2 ^ 49
        + b2n x.cstall * 2 ^ 50))).retired h false))

/-- gset takes a valid descriptor for a galley that nothing uses, with every slot free, and is kind 0x6 for one in use; operations by a party that does
not hold the side, or on a galley not initialised, are galley faults of kind 0x2 and 0x3; so is gstat's (R181, R188). -/
def Parts.GalleySettingAndFaults : Prop :=
  ∀ (s : State) (h : Iss) (a d g : R5), s.dev.on h → g.val < 16 →
    let x := s.dev.galley h.slot g
    let k := s.dev.at_ h
    let ad := (k.sreg a).toNat
    let bad := fun fn kind c => answer s (s.dev.galleyFault h.slot h.core 0x10 fn k.pc g kind c 0)
    (Ready s.dev h 0x10 false [a] [] → ad + 16 ≤ 0x60000 → ad % 16 = 0 → s.dev.readStore h.slot ad 16 (1 + h.core.val) = (s.dev, true) →
      (∀ y, galleyOf (s.dev.bytes (tileBase h.slot + ad) 16) = some y →
        (s.dev.galleyValid h.slot g y = true → x.busy = false → s.dev.galleyQueued h.slot g = false →
          exec (.gset h a g) s = answer s ((s.dev.setGalley h.slot g y).retired h false))
        ∧ (s.dev.galleyValid h.slot g y = true → x.busy = true ∨ s.dev.galleyQueued h.slot g = true → exec (.gset h a g) s = bad 0 6 false)
        ∧ (s.dev.galleyValid h.slot g y = false → exec (.gset h a g) s = bad 0 5 false))
      ∧ (galleyOf (s.dev.bytes (tileBase h.slot + ad) 16) = none → exec (.gset h a g) s = bad 0 5 false))
    ∧ (Ready s.dev h 0x10 false [d] [] →
      (x.init = false → exec (.gacq h d g) s = bad 1 3 true ∧ exec (.gacqNb h d g) s = bad 2 3 true ∧ exec (.gres h d g) s = bad 4 3 false
        ∧ exec (.gresNb h d g) s = bad 5 3 false ∧ exec (.gstat h d g) s = bad 7 3 false)
      ∧ (x.init = true → x.cons ≠ 0 → exec (.gacq h d g) s = bad 1 2 true ∧ exec (.gacqNb h d g) s = bad 2 2 true)
      ∧ (x.init = true → x.prod ≠ 0 → exec (.gres h d g) s = bad 4 2 false ∧ exec (.gresNb h d g) s = bad 5 2 false))

/-- Tier 2. Galleys: acquire, release, reserve, commit, status, setting, and their faults. -/
def Obligations.Galleys : Prop := Parts.GalleyOperations ∧ Parts.GalleySettingAndFaults

/-! ## Steal queues (R269 to R281) -/

/-- Queue state, posting and the ways a take comes to nothing: spost appends the 256-byte record under the lowest free
entry number and counts POSTED of its wave; with nothing to take, stake answers the status, stake.w waits. -/
def Parts.StealPosts : Prop :=
  ∀ (s : State) (h : Iss) (a d : R5), s.dev.on h →
    let y := h.slot.val / 24
    let q := s.dev.yard y
    let k := s.dev.at_ h
    let ad := (k.sreg a).toNat
    let r : QRec := ⟨q.freeEntry, s.dev.bytes (tileBase h.slot + ad) 256⟩
    let st := Reg.yardSqState y
    (Ready s.dev h 0x12 false [] [] →
      exec (.sctlOpen h) s = answer s ((s.dev.setFlag st F.yardSqStateClosed false).retired h false)
      ∧ exec (.sctlClose h) s = answer s ((s.dev.setFlag st F.yardSqStateClosed true).retired h false)
      ∧ (q.recs = [] → ∃ t, exec (.sctlDrain h) s = .next t ∧ t.dev.flag st F.yardSqStateClosed = true ∧ (t.dev.yard y).recs = []))
    ∧ (Ready s.dev h 0x12 false [a] [] →
      (64 ≤ q.recs.length → s.dev.sqClosed y = false → exec (.spost h a) s = answer s (s.dev.waits h (.spost h a)))
      ∧ (q.recs.length < 64 → s.dev.sqClosed y = false → ad + 256 ≤ 0x60000 → ad % 64 = 0 →
        s.dev.readStore h.slot ad 256 (1 + h.core.val) = (s.dev, true) →
        r.slot < s.dev.fld (Reg.yardSqSlotCount y) F.yardSqSlotCountCount → q.slotsUsed.contains r.slot = false → s.dev.recordOk y r = true →
        exec (.spost h a) s = answer s (((s.dev.setYard y
          { q with recs := q.recs ++ [r], slotsUsed := r.slot :: q.slotsUsed, tasksUsed := r.task :: q.tasksUsed }).incFld (Reg.yardSqWave y r.wave) F.yardSqWavePosted 1).retired h false)))
    ∧ (Ready s.dev h 0x11 false [d] [] → s.dev.heldCount h.slot < 2 → s.dev.findTask y (s.dev.logical h.slot) = none →
      (s.dev.allClosed y = false → exec (.stake h d) s = answer s ((s.dev.putS h d 0x8000000000000001#64).retired h false)
        ∧ exec (.stakeW h d) s = answer s (s.dev.waits h (.stakeW h d)))
      ∧ (s.dev.allClosed y = true → ∀ i ∈ [Instr.stake h d, .stakeW h d],
        exec i s = answer s ((s.dev.putS h d 0x8000000000000002#64).retired h false)))

/-- A take: the record found leaves its queue for the taker, which gets its landing; a landing that core 0 could not
store is cause 0x2, a third task is a steal fault, kind 0x4; a waiting stake.w that polls takes likewise, and at its limit is kind 0x5 (R273 to R275, R279). -/
def Parts.StealTakes : Prop :=
  ∀ (s : State) (h : Iss) (d : R5) (v : Nat) (q : QRec) (ch : Nat), s.dev.on h →
    let p := h.slot.val
    let y := p / 24
    let k := s.dev.at_ h
    let area := s.dev.freeArea p
    let at_ := s.dev.fld (Reg.tileSqLand p) F.tileSqLandAddr + 64 * b2n area
    let lies := at_ + 64 ≤ 0x60000 ∧ (s.dev.tile p).image.codeEnd ≤ at_
    let taken := fun u : State => (u.dev.yard v).recs = (s.dev.yard v).recs.filter (fun e => e.entry != q.entry)
      ∧ (u.dev.tile p).landing = (s.dev.tile p).landing ++ [⟨⟨handleOf q v (q.pair == s.dev.logical p && v == y) area, v, q.wave, area, ch⟩,
          at_, q.bytes, q.pair == s.dev.logical p && v == y, h.core, d⟩]
      ∧ (u.dev.at_ h).pc = (k.pc + 4) % 2 ^ 19 ∧ (u.dev.at_ h).run = .running ∧ ∀ a, u.dev.byte a = s.dev.byte a
    let may := s.dev.heldCount p < 2 ∧ s.dev.findTask y (s.dev.logical p) = some (v, q) ∧ s.dev.freeChan y = some ch
      ∧ lies ∧ s.dev.mayWrite p at_ 64 0 = true
    (Ready s.dev h 0x11 false [d] [] →
      (may → ∀ i ∈ [Instr.stake h d, .stakeW h d], ∃ u, exec i s = .next u ∧ taken u)
      ∧ (s.dev.heldCount p < 2 → s.dev.findTask y (s.dev.logical p) = some (v, q) → s.dev.freeChan y = some ch → ¬ lies →
        exec (.stake h d) s = answer s (s.dev.progFault p h.core 0x11 0 k.pc 2 (w64 at_))
        ∧ exec (.stakeW h d) s = answer s (s.dev.progFault p h.core 0x11 1 k.pc 2 (w64 at_)))
      ∧ (2 ≤ s.dev.heldCount p →
        exec (.stake h d) s = answer s ((s.dev.sqFault y 4 (p % 24) 0 0).progFault p h.core 0x11 0 k.pc 6 0)
        ∧ exec (.stakeW h d) s = answer s ((s.dev.sqFault y 4 (p % 24) 0 0).progFault p h.core 0x11 1 k.pc 6 0)))
    ∧ (coreExists h.slot h.core = true → k.run = .stalled → k.stalled = some (.stakeW h d) →
      (may → ∃ u, exec (.stakeWPoll h.slot h.core) s = .next u ∧ taken u)
      ∧ exec (.stakeWLimit h.slot h.core) s = answer s ((s.dev.sqFault y 5 (p % 24) 0 0).progFault p h.core 0x11 1 k.pc 6 0))

/-- Tier 2. The steal queue: control, posts and takes. -/
def Obligations.StealQueue : Prop := Parts.StealPosts ∧ Parts.StealTakes

/-- Tier 2. A landing writes header and ARGS to the landing area, starts the channel with the templates (a paired take: those of
MASK) and gives the handle; sdone ends the hold; the channel frees when its descriptors are done too, and DONE of the wave counts,
which may let an arrival of the queue's CT leave (R272, R275 to R277, R280). -/
def Obligations.TasksRun : Prop :=
  ∀ (s : State) (p : Slot) (y : Yard) (ch : Fin 32),
    (∀ l rest, (s.dev.tile p).landing = l :: rest → l.record.length = 256 → s.dev.ecc = [] →
      let at_ := tileBase p + l.at_
      let q : QRec := ⟨0, l.record⟩
      ∃ t, exec (.taskLanding p) s = .next t ∧ (t.dev.tile p).landing = rest ∧ (t.dev.tile p).held = (s.dev.tile p).held ++ [l.held]
        ∧ (∀ a, t.dev.byte a = if at_ ≤ a ∧ a < at_ + 64 then l.record.getD (a - at_) 0 else s.dev.byte a)
        ∧ (t.dev.core p l.core).sreg l.d = (if l.d = 0 then 0 else l.held.handle)
        ∧ ∃ c, t.dev.chan (p.val / 24) l.held.ch = some c ∧ c.handle = l.held.handle ∧ c.slot = p ∧ c.sdone = false
          ∧ c.descs.length = ((List.range q.ndesc).filter (fun i => !l.paired || q.mask / 2 ^ i % 2 == 1)).length)
    ∧ (∀ (h : Iss) (a : R5) x c, Ready s.dev h 0x11 false [a] [] → s.dev.on h →
      (s.dev.tile h.slot).held.find? (fun x => x.handle == (s.dev.at_ h).sreg a) = some x → s.dev.chan (h.slot.val / 24) x.ch = some c →
      exec (.sdone h a) s = answer s (((s.dev.modTile h.slot (fun t => { t with held := t.held.erase x })).setChan (h.slot.val / 24) x.ch
        { c with sdone := true }).retired h false))
    ∧ (∀ c, s.dev.chan y ch = some c →
      exec (.taskComplete y ch) s =
        if c.sdone = true ∧ c.stopped = false ∧ ∀ r ∈ c.descs, r.finished = true then
          answer s (((s.dev.modYard y (fun q => { q with chans := Sparse.erase q.chans ch })).incFld (Reg.yardSqWave c.yard c.wave) F.yardSqWaveDone 1).settle
            (24 * c.yard + 23))
        else answer s s.dev)
    ∧ (∀ c i run d1 run1 d2 run2 r, s.dev.chan y ch = some c → c.descs[i]? = some run → c.stopped = false → s.dev.descGalley run = true →
      s.dev.descIssue run = (d1, run1) → d1.descComplete (.desc (24 * y.val + 23)) run1 (run1.out.length - 1) r = .ok d2 run2 →
      exec (.channelRequestIssue y ch i r) s = answer s (d2.setChan y ch { c with descs := c.descs.set i run2 }))

/-! ## Descriptor engines (R121, R122, R151, R218, R219) -/

/-- Tier 2. dpost queues a valid descriptor (16 deep), dwait passes by the DONE count, dstat reads the engine; the head's next
request is up to 256 bytes of its row, and a completed request has moved its bytes; the last one counts the descriptor done. -/
def Obligations.DescriptorEngines : Prop :=
  ∀ (s : State) (h : Iss) (a d : R5) (e : Fin 4), s.dev.on h →
    let ee : R5 := ⟨e.val, by omega⟩
    let x := (s.dev.tile h.slot).engine e
    let k := s.dev.at_ h
    let ad := (k.sreg a).toNat
    let r := descOf (s.dev.bytes (tileBase h.slot + ad) 32)
    (Ready s.dev h 0x13 false [a] [] →
      (16 ≤ x.q.length → exec (.dpost h a ee) s = answer s (s.dev.waits h (.dpost h a ee)))
      ∧ (x.q.length < 16 → ad + 32 ≤ 0x60000 → ad % 32 = 0 → s.dev.readStore h.slot ad 32 (1 + h.core.val) = (s.dev, true) →
        exec (.dpost h a ee) s = if descShape r = true ∧ s.dev.descGalley r = true
          then answer s ((s.dev.setEngine h.slot e { x with q := x.q ++ [r], posted := x.posted + 1 }).retired h false)
          else answer s ((s.dev.engineFault h.slot e 2 x.posted).retired h false))
      ∧ exec (.dwait h a ee) s = if (w32 (s.dev.reg (Reg.tileCtDescDone h.slot e)) - (k.sreg a).setWidth 32).toNat < 2 ^ 31
          then answer s (s.dev.retired h false) else answer s (s.dev.waits h (.dwait h a ee)))
    ∧ (Ready s.dev h 0x13 false [d] [] → exec (.dstat h d ee) s = answer s ((s.dev.putS h d
        (w64 (x.q.length + b2n (x.q.any (fun r => r.out ≠ [])) * 32 + b2n x.stopped * 64))).retired h false))
    ∧ (∀ run rest, x.q = run :: rest → x.stopped = false → run.srcGal = false → run.dstGal = false →
      (run.row < run.rows → run.out.length < 64 →
        let n := min 256 (run.rowBytes - run.off)
        exec (.descRequestIssue h.slot e) s = answer s (s.dev.setEngine h.slot e { x with q :=
          ⟨run.w, if run.off + n = run.rowBytes then run.row + 1 else run.row, if run.off + n = run.rowBytes then 0 else run.off + n,
            run.out ++ [(run.row, run.off, n)], run.slotAt, run.failed⟩ :: rest }))
      ∧ (∀ i row off n d1 d2 bs ans, run.out[i]? = some (row, off, n) → run.zero = false → ans ≠ .err →
        s.dev.isLocal run.src = true → d1.isLocal run.dst = true →
        s.dev.memRead (.desc h.slot) (gaAddr (run.src + row * run.srcStride + off)) n = (d1, some bs) →
        d1.memWrite (.desc h.slot) (gaAddr (run.dst + row * run.dstStride + off)) bs = (d2, true) →
        let run' := { run with out := run.out.eraseIdx i }
        exec (.descRequestComplete h.slot e i ans) s = answer s (if run'.rows ≤ run'.row ∧ run'.out = [] then
            (d2.setEngine h.slot e { x with q := rest }).incFld (Reg.tileCtDescDone h.slot e) fld32 1
          else d2.setEngine h.slot e { x with q := run' :: rest })))

/-! ## The halyard (R152 to R154, R247 to R257) -/

/-- The barrier instructions: hbar arrives unless the core has arrived already or the tile's earlier work is not done,
hwait passes where the barrier has released since the core's last arrival or since it waits, hsync does one and then the other; a barrier the tile is no member of is cause 0x7. -/
def Parts.BarrierInstructions : Prop :=
  ∀ (s : State) (h : Iss) (b : Bar), Ready s.dev h 0x14 false [] [] → s.dev.on h →
    let bb : R5 := ⟨b.val, by omega⟩
    let p := h.slot.val
    let k := s.dev.at_ h
    let waits := fun i => answer s (s.dev.waits h i)
    let bad := fun fn => answer s (s.dev.progFault p h.core 0x14 fn k.pc 7 0)
    let synced := fun (d : Dev) (m : Bool) => d.modCore h.slot h.core (fun k => { k with synced := m })
    exec (.hwait h bb) s = (if k.released.getLsbD b || k.woken.getLsbD b then
        answer s ((s.dev.modCore p h.core (fun k => { k with woken := k.woken &&& ~~~ (barBit b) })).retired h false)
      else waits (.hwait h bb))
    ∧ (s.dev.mayArrive p b = false → exec (.hbar h bb) s = bad 0 ∧ (k.synced = false → exec (.hsync h bb) s = bad 2))
    ∧ (s.dev.mayArrive p b = true → k.hasArrived b = false → s.dev.arrivalReady p b = true →
      exec (.hbar h bb) s = answer s ((s.dev.arrive h b).retired h false)
      ∧ (k.synced = false → exec (.hsync h bb) s = answer s ((synced (s.dev.arrive h b) true).waits h (.hsync h bb))))
    ∧ (s.dev.mayArrive p b = true → (k.hasArrived b = true ∨ s.dev.arrivalReady p b = false) → exec (.hbar h bb) s = waits (.hbar h bb)
      ∧ (k.synced = false → exec (.hsync h bb) s = waits (.hsync h bb)))
    ∧ (k.synced = true → exec (.hsync h bb) s =
      if k.hasArrived b then waits (.hsync h bb) else answer s ((synced s.dev false).retired h false))

/-- An arrival: the core has arrived; the tile has once each of its cores is halted or has arrived and its own waits are over, and
it carries its flag contribution then; no memory, no register and no other tile changes (R153, R154). -/
def Parts.Arrivals : Prop :=
  ∀ (d : Dev) (h : Iss) (b : Bar),
    ((d.arrive h b).at_ h).hasArrived b = true
    ∧ (∀ q, q ≠ h.slot.val → (d.arrive h b).tile q = d.tile q) ∧ (d.arrive h b).regs = d.regs ∧ (d.arrive h b).mem = d.mem
    ∧ ((d.tile h.slot).arrived.getLsbD b = false → d.arrivalReady h.slot b = true →
      (∀ c, c < 4 → c ≠ h.core.val → (d.core h.slot c).run = .halted ∨ (d.core h.slot c).hasArrived b = true) →
      ((d.arrive h b).tile h.slot).arrived.getLsbD b = true
      ∧ Sparse.get (fun _ => 0) ((d.arrive h b).tile h.slot).arrFlags b = d.contribution h.slot)
    ∧ ((∃ c, c < 4 ∧ c ≠ h.core.val ∧ (d.core h.slot c).run ≠ .halted ∧ (d.core h.slot c).hasArrived b = false) ∨ d.arrivalReady h.slot b = false →
      ((d.arrive h b).tile h.slot).arrived.getLsbD b = (d.tile h.slot).arrived.getLsbD b)

/-- Tier 2. hbar, hwait and hsync, and what an arrival changes. -/
def Obligations.BarrierArrivals : Prop := Parts.BarrierInstructions ∧ Parts.Arrivals

/-- Tier 2. The other halyard instructions: flags are set and cleared, a broadcast joins the root's queue unless one of the tile
waits there, hrx takes the oldest, hdec gives the decision on its step, hrel asks for the next step at the step CT only, hwcr counts
a use of a layer's copy. -/
def Obligations.HalyardInstructions : Prop :=
  ∀ (s : State) (h : Iss) (a d : R5), s.dev.on h → s.dev.multi = false →
    let p := h.slot.val
    let k := s.dev.at_ h
    let x := k.sreg a
    let n : Word := x.setWidth 32
    let bad := fun fn cause => answer s (s.dev.progFault p h.core 0x14 fn k.pc cause 0)
    let more := fun l => Sparse.set (fun _ => 0) s.dev.press.rel l (Sparse.get (fun _ => 0) s.dev.press.rel l + 1)
    (Ready s.dev h 0x14 false [a] [] →
      exec (.hflagSet h a) s = answer s ((s.dev.modTile h.slot (fun t => { t with flags := t.flags ||| n })).retired h false)
      ∧ exec (.hflagClr h a) s = answer s ((s.dev.modTile h.slot (fun t => { t with flags := t.flags &&& ~~~ n })).retired h false)
      ∧ (x.toNat / 2 ^ 56 = 0xFF → exec (.hbc h a) s = bad 5 7)
      ∧ (x.toNat / 2 ^ 56 ≠ 0xFF → (∃ e ∈ s.dev.hal.bcq, e.src = some p) → exec (.hbc h a) s = answer s (s.dev.waits h (.hbc h a)))
      ∧ (x.toNat / 2 ^ 56 ≠ 0xFF → (∀ e ∈ s.dev.hal.bcq, e.src ≠ some p) → exec (.hbc h a) s
          = answer s (Dev.retired { s.dev with hal := { s.dev.hal with bcq := s.dev.hal.bcq ++ [⟨some p, x⟩] } } h false))
      ∧ (s.dev.stepCt ≠ some p → exec (.hrel h a) s = bad 8 1)
      ∧ (s.dev.stepCt = some p → (n ≠ s.dev.nextStep ∨ n = 0xFFFFFFFF#32) → exec (.hrel h a) s = bad 8 7)
      ∧ (s.dev.stepCt = some p → n = s.dev.nextStep → n ≠ 0xFFFFFFFF#32 → exec (.hrel h a) s
          = answer s (Dev.retired { s.dev with hal := { s.dev.hal with hrel := some n } } h false))
      ∧ (∀ y, s.dev.press.layer (x.toNat % 2 ^ 16) = some y → y.chCount ≠ 0 →
          Sparse.get (fun _ => 0) s.dev.press.rel (x.toNat % 2 ^ 16) < y.relExpect → exec (.hwcr h a) s
          = answer s (Dev.retired { s.dev with press := { s.dev.press with rel := more (x.toNat % 2 ^ 16) } } h false)))
    ∧ (Ready s.dev h 0x14 false [d] [] →
      (k.bq = [] → exec (.hrx h d) s = answer s (s.dev.waits h (.hrx h d)))
      ∧ (∀ v rest, k.bq = v :: rest → exec (.hrx h d) s
          = answer s (((s.dev.modCore h.slot h.core (fun k => { k with bq := rest })).putS h d v).retired h false)))
    ∧ (Ready s.dev h 0x14 false [d, a] [] →
      ((s.dev.tile p).decs.find? (fun e => e.1 == n) = none → exec (.hdec h d a) s = answer s (s.dev.waits h (.hdec h d a)))
      ∧ (∀ e, (s.dev.tile p).decs.find? (fun e => e.1 == n) = some e → exec (.hdec h d a) s
          = answer s ((s.dev.putS h d (w64 (b2n e.2 + n.toNat * 2 ^ 32))).retired h false)))

/-- A barrier of one yard, or of the device, releases once every member with a program has arrived: each member's RFLAGS takes the
reduced value and RBAR the barrier, its arrivals end, HAL_RELEASES counts; of any other tile only cores that had arrived there or wait
for it in hwait learn of it; with flag bit 6 in the value the step aborts instead
(R247, R248, R253). -/
def Parts.BarrierReleases : Prop :=
  ∀ (s : State) (y : Yard) (b : Bar) (peers : PeerArr),
    let sc := s.dev.barScope b
    let ps := s.dev.membersOf b (if sc = 1 then (List.range 24).map (fun i => 24 * y.val + i) else s.dev.tiles.map (·.1))
    let v := reducedValue s.dev.flagMode (s.dev.tileFlags b ps)
    sc = 1 ∨ sc = 2 → b.val ≠ s.dev.relBar → b.val ≠ s.dev.decBar → b.val ≠ s.dev.comBar → s.dev.hal.aborting = false →
    ps ≠ [] →
    ((∃ p ∈ ps, (s.dev.tile p).arrived.getLsbD b = false) → exec (.barrierRelease y b peers) s = answer s s.dev)
    ∧ ((∀ p ∈ ps, (s.dev.tile p).arrived.getLsbD b = true) → v.getLsbD 6 = true →
      exec (.barrierRelease y b peers) s = answer s (s.dev.abortHere (if sc = 1 then 16 + y.val else 8)))
    ∧ ((∀ p ∈ ps, (s.dev.tile p).arrived.getLsbD b = true) → v.getLsbD 6 = false →
      ∃ t, exec (.barrierRelease y b peers) s = .next t
        ∧ (∀ p ∈ ps, t.dev.reg (Reg.tileHalRflags p) = v.toNat ∧ t.dev.reg (Reg.tileHalRbar p) = b.val
            ∧ (t.dev.tile p).arrived.getLsbD b = false ∧ ∀ c, c < 4 → (t.dev.core p c).hasArrived b = false)
        ∧ (∀ q, q ∉ ps → { t.dev.tile q with cores := [] } = { s.dev.tile q with cores := [] })
        ∧ (∀ q c, q ∉ ps → c < 4 → t.dev.core q c
            = if q < 1536 ∧ (sc = 2 ∨ q / 24 = y.val) then (s.dev.core q c).release b else s.dev.core q c)
        ∧ (∀ a, t.dev.byte a = s.dev.byte a)
        ∧ t.dev.reg Reg.halReleases = (s.dev.reg Reg.halReleases + 1) % 2 ^ 32)

/-- On one device a step begins when every member has arrived at the release barrier, hrel has asked for it and the decision
before is out: HAL_STEP takes its number, every tile in service its STEP and its default flags, and the presses' step state starts anew,
but for what pass B of the step before still needs (R250, R288, R321; log entry 43). -/
def Parts.StepReleases : Prop :=
  ∀ (s : State) (peers : PeerArr) (n : Word),
    let b := s.dev.relBar
    let ps := s.dev.membersOf b (s.dev.tiles.map (·.1))
    let v := reducedValue s.dev.flagMode (s.dev.tileFlags b ps)
    s.dev.multi = false → s.dev.barScope b = 3 → s.dev.runningJob = true → s.dev.hal.aborting = false → s.dev.press.prep = false →
    s.dev.host.stStart = none → s.dev.hal.hrel = some n → (∀ p ∈ ps, (s.dev.tile p).arrived.getLsbD b = true) →
    (s.dev.hal.first = true ∨ s.dev.hal.decGiven = true ∨ s.dev.hal.restoreStep ≠ noStep) → s.dev.stepAllowed n = true →
    v.getLsbD 6 = false →
    ∃ t, exec (.releaseBarrierRelease peers) s = .next t ∧ t.dev.reg Reg.halStep = n.toNat ∧ t.dev.hal.hrel = none
      ∧ t.dev.hal.first = false ∧ t.dev.hal.decGiven = false ∧ t.dev.press.ready = [] ∧ t.dev.press.rel = []
      ∧ t.dev.press.relOld = s.dev.press.rel
      ∧ t.dev.press.comb = (if s.dev.press.dec.map (·.2) = some true then s.dev.press.comb else [])
      ∧ (∀ p, s.dev.inService p = true → (t.dev.tile p).step = n
          ∧ (t.dev.tile p).flags = w32 (s.dev.reg (Reg.tileHalFlagdef p)))
      ∧ (∀ a, t.dev.byte a = s.dev.byte a)

/-- Tier 2. Releases of yard, device and release barriers, and the start of a step. -/
def Obligations.Releases : Prop := Parts.BarrierReleases ∧ Parts.StepReleases

/-- Tier 2. The decision of a job on one device: a commit when no flag of SKIP_SET is in the reduced value, else a skip; it is tagged
with the step; bit 6 aborts; in a job of several devices the root first sends its combined arrival (R42, R251, R258). The commit barrier's release opens the time in which an abort is held (R252, R329). -/
def Obligations.DecisionAndCommit : Prop :=
  ∀ (s : State) (peers : PeerArr),
    (s.dev.decisionReady = false → exec (.decisionBarrierRelease peers) s = answer s s.dev)
    ∧ (s.dev.decisionReady = true → s.dev.multi = true → s.dev.hal.sentArr.getLsbD s.dev.decBar = false → peers.arrived = false →
      ∃ t dg, exec (.decisionBarrierRelease peers) s = .next t ∧ t.dev.reg Reg.halDec = s.dev.reg Reg.halDec
        ∧ t.dev.out = s.dev.out ++ [.arrival s.dev.decBar (s.dev.ownWithPresses.getD (0, 0xFFFFFFFF#32)).1
            (s.dev.ownWithPresses.getD (0, 0xFFFFFFFF#32)).2 (some s.dev.step) dg])
    ∧ (s.dev.decisionReady = true → s.dev.multi = false →
      let v := s.dev.decisionFlags peers
      let commits := v &&& w32 (s.dev.reg Reg.halSkipSet) == 0
      (v.getLsbD 6 = true → exec (.decisionBarrierRelease peers) s = answer s (s.dev.abortHere 8))
      ∧ (v.getLsbD 6 = false → ∃ t, exec (.decisionBarrierRelease peers) s = .next t
        ∧ t.dev.reg Reg.halDec = (if commits then 1 else 2) ∧ t.dev.reg Reg.halDecStep = s.dev.reg Reg.halStep
        ∧ t.dev.reg Reg.halDecFlags = v.toNat ∧ t.dev.hal.decGiven = true
        ∧ t.dev.press.dec = some (w32 (s.dev.reg Reg.halStep), commits)))
    ∧ (let b := s.dev.comBar
      let ps := s.dev.membersOf b (s.dev.tiles.map (·.1))
      s.dev.multi = false → s.dev.barScope b = 3 → s.dev.runningJob = true → s.dev.hal.aborting = false →
      (∀ p ∈ ps, (s.dev.tile p).arrived.getLsbD b = true) → (∀ c, c < 4 → (s.dev.pr c).comArr = true) →
      (reducedValue s.dev.flagMode (s.dev.tileFlags b ps)).getLsbD 6 = false →
      ∃ t, exec (.commitBarrierRelease peers) s = .next t ∧ t.dev.hal.holding = true ∧ t.dev.press.recWait = true
        ∧ t.dev.reg Reg.halReleases = (s.dev.reg Reg.halReleases + 1) % 2 ^ 32 ∧ ∀ a, t.dev.byte a = s.dev.byte a)

/-- Tier 2. A broadcast of the device goes to core 0 of the step CT alone, when its queue of 16 has room; in a job of several devices the
next broadcast may be another device's, and joins queues with room alone (log entry 109); a frame that fails its CRC
is recorded once and resent, and is device-fatal the second time (R254, R257). -/
def Obligations.BroadcastsAndFrames : Prop :=
  ∀ (s : State) (b : Bcast) (rest : List Bcast) (p : Nat) (node : Fin 80),
    (s.dev.multi = false → s.dev.hal.bcq = b :: rest → b.src = none → s.dev.stepCt = some p → (s.dev.core p 0).run = .running →
      ((s.dev.core p 0).bq.length < 16 → exec .broadcastDeliver s
        = answer s (Dev.modCore { s.dev with hal := { s.dev.hal with bcq := rest } } p 0 (fun k => { k with bq := k.bq ++ [b.data] })))
      ∧ (16 ≤ (s.dev.core p 0).bq.length → exec .broadcastDeliver s = answer s s.dev))
    ∧ (s.dev.multi = false → s.dev.hal.bcq = [] → exec .broadcastDeliver s = answer s s.dev)
    ∧ (s.dev.multi = true → ∃ t, exec .broadcastDeliver s = .next t ∧ (t.dev.hal.bcq = s.dev.hal.bcq ∨ t.dev.hal.bcq = s.dev.hal.bcq.tail)
      ∧ (∀ q c, ∃ vs, (t.dev.core q c).bq = (s.dev.core q c).bq ++ vs ∧ (vs ≠ [] → (s.dev.core q c).bq.length < 16))
      ∧ (∀ q c, { t.dev.core q c with bq := [] } = { s.dev.core q c with bq := [] }) ∧ ∀ a, t.dev.byte a = s.dev.byte a)
    ∧ (∀ again, exec (.halyardFrame node true again) s = answer s s.dev)
    ∧ (¬ (8 < node.val ∧ node.val < 16) → s.dev.flag Reg.halFault F.halFaultValid = false →
      (∃ t, exec (.halyardFrame node false false) s = .next t ∧ t.dev.reg Reg.halFault = 1 + node.val * 4 + 2 ^ 31 ∧ t.dev.jst = s.dev.jst)
      ∧ (s.dev.jst ≠ 7 → s.dev.jst ≠ 8 → ∃ t, exec (.halyardFrame node false true) s = .next t
          ∧ t.dev.reg Reg.halFault = 2 + node.val * 4 + 2 ^ 31 ∧ t.dev.jst = 7 ∧ t.dev.fld Reg.hstJob F.hstJobEndCause = 5))

/-! ## Waits that end: resumes and limits (R134, R187, R233, R256) -/

/-- Tier 2. A stalled instruction issues again as if its core ran: an add whose registers are free gives its sum, an hwait whose barrier
has released passes, else waits on; a core that waits for nothing is left alone; at the stall limits a
galley's party is galley fault 0x1, a halyard instruction cause 0x7 (not the release barrier's in HELD), and the exchange abandons its
phase. -/
def Obligations.ResumesAndLimits : Prop :=
  ∀ (s : State) (h : Iss) (d g a b : R5) (f : MFields) (gal : Gal) (cons : Bool), coreExists h.slot h.core = true →
    let p := h.slot.val
    let k := s.dev.at_ h
    (∀ i ∈ [Instr.fence h, .hwait h b, .hsync h b, .hbar h b, .hrx h d, .hdec h d a, .gacq h d g, .gres h d g, .mwait h f, .mopen h f,
        .xwait h, .xgo h a, .dwait h a b, .add h d a b, .stakeW h d], k.run = .stalled → k.stalled = some i →
      exec (.issueResume h.slot h.core) s = exec i { s with dev := s.dev.modCore h.slot h.core (fun k => { k with run := .running }) })
    ∧ (k.run = .stalled → s.dev.on h →
      (k.stalled = some (.add h d a b) → s.dev.unresolved p h.core = false →
        ([d, a, b].any fun r => (s.dev.busyS p h.core).contains r) = false →
        ∃ t, exec (.issueResume h.slot h.core) s = .next t ∧ (t.dev.at_ h).pc = (k.pc + 4) % 2 ^ 19 ∧ (t.dev.at_ h).run = .running
          ∧ (t.dev.at_ h).stalled = none ∧ (t.dev.at_ h).sreg d = (if d = 0 then 0 else k.sreg a + k.sreg b)
          ∧ ∀ z, t.dev.byte z = s.dev.byte z)
      ∧ (∀ bb : R5, k.stalled = some (.hwait h bb) → bb.val < 16 → s.dev.unresolved p h.core = false →
        ∃ t, exec (.issueResume h.slot h.core) s = .next t
          ∧ (t.dev.at_ h).run = (if k.released.getLsbD bb || k.woken.getLsbD bb then .running else .stalled)
          ∧ (t.dev.at_ h).pc = (if k.released.getLsbD bb || k.woken.getLsbD bb then (k.pc + 4) % 2 ^ 19 else k.pc)))
    ∧ (k.run ≠ .stalled → exec (.issueResume h.slot h.core) s = answer s s.dev
      ∧ exec (.halyardStallLimit h.slot h.core) s = answer s s.dev)
    ∧ (k.run = .stalled → k.stalled = some (.hwait h b) → s.dev.jst ≠ 5 → exec (.halyardStallLimit h.slot h.core) s
      = answer s (s.dev.progFault p h.core 0x14 1 k.pc 7 0))
    ∧ (let x := s.dev.galley p gal
      let at_ := s.dev.stalledAt p gal (if cons then x.cons else x.prod) cons
      exec (.galleyStallLimit h.slot gal cons) s = if x.init = true ∧ (if cons then x.cstall else x.pstall) = true
        then answer s (s.dev.galleyFault p at_.1 0x10 (if cons then 1 else 4) at_.2 gal 1 cons 0) else answer s s.dev)
    ∧ (((s.dev.tile p).xcur = none → exec (.phaseLimit h.slot) s = answer s s.dev)
      ∧ ((s.dev.tile p).xcur.isSome = true → ∃ t, exec (.phaseLimit h.slot) s = .next t ∧ (t.dev.tile p).xcur = none ∧ (t.dev.tile p).xq = []
          ∧ (t.dev.tile p).xaband = true ∧ (t.dev.tile p).flags = ((s.dev.tile p).flags ||| 0x40#32)
          ∧ ∀ z, t.dev.byte z = s.dev.byte z)
      ∧ (∀ r e es, (s.dev.tile p).xcur = some r → r.active = e :: es → e.idx < 512 → s.dev.flag (Reg.tileXchFault p) F.tileXchFaultValid = false →
        ∃ t, exec (.phaseLimit h.slot) s = .next t
          ∧ t.dev.reg (Reg.tileXchFault p) = 1 + e.idx * 2 ^ 3 + phNum ((s.dev.tile p).xhead r.phase) * 2 ^ 12 + 2 ^ 31))

/-! ## Aborts and replay (R253, R433 to R437) -/

/-- The oldest notice of a running job aborts its step: DEV_ABORT records it, HAL_DEC shows an abort, REPLAYS counts, nothing of
the step goes on; while a record is on its way the abort is held; another device's abort is taken with its PEER bit; the restore
brings the job to the release of the step after the newest record. -/
def Parts.AbortsAndReplay : Prop :=
  ∀ (s : State) (n : Notice) (rest : List Notice) (bl ki : Byte) (inst : BitVec 12),
    let stops := fun (t : State) (n : Notice) (peer : Bool) =>
      t.dev.reg Reg.devAbort = abortValue n peer ∧ t.dev.hal.aborting = true ∧ t.dev.reg Reg.halDec = 3
      ∧ t.dev.reg Reg.halDecStep = s.dev.replayStep.toNat ∧ t.dev.hal.bcq = [] ∧ t.dev.chunks = [] ∧ t.dev.units = []
      ∧ ∀ p c, c < 4 → p ∈ s.dev.tiles.map (·.1) → (t.dev.core p c).run ≠ .running ∧ (t.dev.core p c).run ≠ .stalled
    s.dev.runningJob = true → s.dev.hal.aborting = false → s.dev.hal.restoreStep = noStep →
    (s.dev.hal.notices = n :: rest → s.dev.hal.holding = false → s.dev.limitReached = false →
      ∃ t, exec .faultNotice s = .next t ∧ stops t n false)
    ∧ (s.dev.hal.notices = n :: rest → s.dev.hal.holding = false → s.dev.limitReached = true → s.dev.jst ≠ 7 → s.dev.jst ≠ 8 →
      ∃ t, exec .faultNotice s = .next t ∧ t.dev.jst = 7 ∧ t.dev.fld Reg.hstJob F.hstJobEndCause = 5)
    ∧ (s.dev.hal.notices = n :: rest → s.dev.hal.holding = true → s.dev.hal.heldAbort = none → exec .faultNotice s
      = answer s { s.dev with hal := { s.dev.hal with notices := rest, heldAbort := some n, heldPeer := false } })
    ∧ (s.dev.multi = false → exec (.abortFromPeer bl ki inst) s = answer s s.dev)
    ∧ (s.dev.multi = true → s.dev.hal.holding = false → s.dev.limitReached = false →
      ∃ t, exec (.abortFromPeer bl ki inst) s = .next t ∧ stops t ⟨bl.toNat, ki.toNat, inst.toNat⟩ true)

/-- What the device root makes of the oldest notice and of another device's abort, outside a running job and while an abort lasts:
a notice is logged or restarts the restore, a second abort of the job is the first one again (R433, R437; log entry 127). -/
def Parts.NoticesTaken : Prop :=
  ∀ (s : State) (n : Notice) (rest : List Notice) (bl ki : Byte) (inst : BitVec 12),
    let d' : Dev := { s.dev with hal := { s.dev.hal with notices := rest } }
    (s.dev.hal.notices = [] → exec .faultNotice s = answer s s.dev)
    ∧ (s.dev.hal.notices = n :: rest → s.dev.runningJob = false → exec .faultNotice s = answer s (d'.logEv 2 n.block n.inst n.kind []))
    ∧ (s.dev.hal.notices = n :: rest → s.dev.runningJob = true → s.dev.hal.holding = false → s.dev.hal.aborting = true →
      s.dev.limitReached = false → ∃ t, exec .faultNotice s = .next t ∧ t.dev.hal.aborting = true ∧ t.dev.hal.notices = []
        ∧ t.dev.reg Reg.halDec = 3 ∧ t.dev.fld Reg.devReplays F.devReplaysConsec = min 255 (s.dev.fld Reg.devReplays F.devReplaysConsec + 1))
    ∧ (s.dev.multi = true → s.dev.runningJob = true → s.dev.hal.aborting = true → exec (.abortFromPeer bl ki inst) s = answer s s.dev)

/-- The restore: while an abort lasts, no request of a descriptor engine is out and the job's images are sound, every tile of the job gets its image back and its replay
entries, and the job waits for the release of the step to replay; without an abort nothing happens (R435). -/
def Parts.ReplayRestores : Prop :=
  ∀ s : State, (s.dev.hal.aborting = false → exec .replayRestore s = answer s s.dev)
    ∧ (s.dev.hal.aborting = true → s.dev.runningJob = true → s.dev.enginesBusy = false → s.dev.imagesBad = none →
      ∃ t, exec .replayRestore s = .next t ∧ t.dev.hal.aborting = false ∧ t.dev.hal.restoreStep = s.dev.replayStep)

/-- Tier 2. Aborts of a step, their notices, and the restore before a replay. -/
def Obligations.Replay : Prop := Parts.AbortsAndReplay ∧ Parts.NoticesTaken ∧ Parts.ReplayRestores

/-! ## The exchange (R155, R224 to R233) -/

/-- xgo queues the phase of its number, two deep; a number the imposition does not hold is cause 0x9; xwait passes once
every phase queued when it issued is over; xstat reads the engine; an idle engine starts its queue's head with up to eight entries active. -/
def Parts.ExchangePhases : Prop :=
  ∀ (s : State) (h : Iss) (a d : R5), s.dev.on h →
    let p := h.slot.val
    let t := s.dev.tile p
    let k := s.dev.at_ h
    let named := (List.range t.phases.length).find? (fun i => phNum (t.xhead i) == (k.sreg a).toNat % 2 ^ 16)
    (Ready s.dev h 0x15 false [a] [] →
      (named = none → exec (.xgo h a) s = answer s (s.dev.progFault p h.core 0x15 0 k.pc 9 0))
      ∧ (∀ i, named = some i → exec (.xgo h a) s = if 2 ≤ t.xq.length then answer s (s.dev.waits h (.xgo h a))
          else answer s ((s.dev.modTile p (fun t => { t with xq := t.xq ++ [i], xposted := t.xposted + 1 })).retired h false)))
    ∧ (Ready s.dev h 0x15 false [] [] →
      let n := k.xwaits.getD t.xposted
      let done := t.xposted - (t.xq.length + b2n t.xcur.isSome)
      exec (.xwait h) s = if n ≤ done then answer s ((s.dev.modCore p h.core (fun k => { k with xwaits := none })).retired h false)
        else answer s ((s.dev.modCore p h.core (fun k => { k with xwaits := some n })).waits h (.xwait h)))
    ∧ (Ready s.dev h 0x15 false [d] [] → exec (.xstat h d) s
        = answer s ((s.dev.putS h d (w64 (b2n t.xcur.isSome + t.xq.length * 2 + t.xlast.toNat * 2 ^ 16))).retired h false))
    ∧ (∀ ph rest, t.xcur = none → t.xq = ph :: rest → 0 < phCount (t.xhead ph) →
      ∃ u, exec (.phaseStart h.slot) s = .next u ∧ (u.dev.tile p).xq = rest ∧ (u.dev.tile p).xlast = BitVec.ofNat 16 (phNum (t.xhead ph))
        ∧ (∀ z, u.dev.byte z = s.dev.byte z)
        ∧ ∃ r, (u.dev.tile p).xcur = some r ∧ r.phase = ph ∧ r.active.length = min 8 (phCount (t.xhead ph)))

/-- Credits reach a sender up to the units of its entry; a SEND with credit sends its next unit from the store, in order; a
RECV commits the unit of its own sender that waits for it to its galley's next slot, and its sender learns of it (R230 to R232). -/
def Parts.ExchangeUnits : Prop :=
  ∀ (s : State) (p : Slot) (e n : Nat) (x : XEnt) (r : Remote), (s.dev.tile p).active e = some x → s.dev.ecc = [] →
    let t := s.dev.tile p
    let en := t.xentry e
    let bytes := 64 * xeF en 2 16 12
    (xeOp en = 1 → xeRemote en = true → exec (.exchCreditArrive p e n) s
      = answer s (s.dev.putEnt p { x with credits := max x.credits (min (x.credits + n) (xeUnits en)) }))
    ∧ (∀ q, xeOp en = 1 → xeSrcMem en = true → xeRemote en = false → s.dev.slotOf (xePeer en) = some q → q / 24 = p.val / 24 →
      x.sent < xeUnits en → x.sent < x.credits →
      ∃ u, exec (.exchUnitSend p e) s = .next u ∧ (u.dev.tile p).active e = some { x with sent := x.sent + 1 }
        ∧ u.dev.units = s.dev.units ++ [⟨q, xeTag en, p, x.idx, s.dev.bytes (tileBase p + (xeLaddr en + x.sent * bytes)) bytes⟩]
        ∧ ∀ z, u.dev.byte z = s.dev.byte z)
    ∧ (xeOp en = 1 → (xeUnits en ≤ x.sent ∨ x.credits ≤ x.sent) → exec (.exchUnitSend p e) s = answer s s.dev)
    ∧ (let g := s.dev.galley p (xeGal en)
      let at_ := g.base + (g.head + g.nres) % g.nslots * (64 * g.units)
      ∀ u rest, xeOp en = 2 → xeRemote en = true → takeUnit p (xeTag en) (s.dev.senderOf en) bytes s.dev.units = some (u, rest) →
        s.dev.frozen p = false → g.init = true → g.prod = 4 → 64 * g.units = u.body.length → 0 < g.nslots - g.nres - g.nfull - g.nacq → s.dev.mayWrite p at_ u.body.length 1 = true →
        ∃ w, exec (.exchUnitCommit p e r) s = .next w ∧ w.dev.units = rest ∧ (w.dev.galley p (xeGal en)).nfull = g.nfull + 1
          ∧ (∀ z, w.dev.byte z = if tileBase p + at_ ≤ z ∧ z < tileBase p + at_ + u.body.length then u.body.getD (z - (tileBase p + at_)) 0
              else s.dev.byte z)
          ∧ Msg.unitAck (BitVec.ofNat 12 (xePeerDev en)) (xePeer en) (xeTag en) ∈ w.dev.out)

/-- Tier 2. The exchange: phases, credits, units sent and units committed. -/
def Obligations.Exchange : Prop := Parts.ExchangePhases ∧ Parts.ExchangeUnits

/-! ## The mesh and reductions (R234 to R245, R261) -/

/-- A packet goes along its route, one router a hop, counted in FLITS: on route set 0 along its row to the destination's column,
then along the column; at its yard it waits for its tile; a failed router passes nothing; a router that goes silent, meets an uncorrectable
error, or is reached only after 16 retries is failed, and at a corner device-fatal. -/
def Parts.MeshRouting : Prop :=
  ∀ (s : State) (y : Yard),
    let fails := fun (x : Instr) (q : Nat) => ∃ u, exec x s = .next u ∧ u.dev.routerFailed q = true
      ∧ (s.dev.jobLoaded = true → u.dev.flag (Reg.yardFurlPending q) F.yardFurlPendingYard = true) ∧ (q ∈ [0, 7, 56, 63] → u.dev.jst = 7)
    s.dev.jst ≠ 7 → s.dev.jst ≠ 8 →
    (s.dev.routerFailed y = false → fails (.routerCreditSilence y) y ∧ ∀ vc k n, fails (.routerHop y vc ⟨k, n, true⟩) y)
    ∧ (s.dev.routerFailed y = true → exec (.routerCreditSilence y) s = answer s s.dev)
    ∧ ∀ (vc : Fin 3) (k : Pkt) (rest : List Pkt) (n : Nat), (s.dev.yard y).pkts.filter (fun q => q.vc == vc) = k :: rest → k.vc = vc →
    let t := destYard k.dest
    let flits := (s.dev.reg64 (Reg.yardRtrFlitsLo y) (Reg.yardRtrFlitsHi y) + (k.body.length + 255) / 256) % 2 ^ 64
    (k.rset = 0 → t < 64 → t ≠ y.val → ∃ dir, s.dev.routeOf k.rset y k.dest = some dir ∧ neighbour y dir =
        some (if y.val % 8 < t % 8 then y.val + 1 else if t % 8 < y.val % 8 then y.val - 1
          else if y.val / 8 < t / 8 then y.val + 8 else y.val - 8))
    ∧ (n < 16 → s.dev.routerFailed y = true → ∃ u, exec (.routerHop y vc ⟨0, n, false⟩) s = .next u ∧ (u.dev.yard y).pkts = (s.dev.yard y).pkts
        ∧ u.dev.units = s.dev.units)
    ∧ (∀ dir next, s.dev.routerFailed y = false → s.dev.routeOf k.rset y k.dest = some dir → neighbour y dir = some next →
      (n < 16 → s.dev.routerFailed next = false → ∃ u, exec (.routerHop y vc ⟨0, n, false⟩) s = .next u
        ∧ (u.dev.yard next).pkts = (s.dev.yard next).pkts ++ [k] ∧ (u.dev.yard y).pkts.filter (fun q => q.vc == vc) = rest
        ∧ u.dev.reg64 (Reg.yardRtrFlitsLo y) (Reg.yardRtrFlitsHi y) = flits
        ∧ u.dev.reg (Reg.yardRtrRetry next) = min (s.dev.reg (Reg.yardRtrRetry next) + n) (2 ^ 32 - 1) ∧ ∀ z, u.dev.byte z = s.dev.byte z)
      ∧ (16 ≤ n → s.dev.routerFailed next = false → fails (.routerHop y vc ⟨0, n, false⟩) next))
    ∧ (s.dev.routerFailed y = false → k.dest = y.val → k.rset = 0 →
      ∃ u, exec (.routerHop y vc ⟨0, n, false⟩) s = .next u ∧ u.dev.units = s.dev.units ++ [⟨k.tile, k.tag, k.src, k.ent, k.body⟩]
        ∧ (u.dev.yard y).pkts.filter (fun q => q.vc == vc) = rest)

/-- A chunk that no node of its router holds goes on along its route. At a node with two inputs the first chunk of a pair waits, the
second completes it: for OR the lanes are or-ed, the marks of both go on, the node's ordinal replaces the leaf's, and the chunk is at the
tile that OUT names; none overtakes another of its flow (R236, R240, R241, R244). -/
def Parts.ReductionNodes : Prop :=
  ∀ (s : State) (k : Nat) (c b : Chunk) (y : Yard) (i j : Nat) (e : BitVec 128), s.dev.chunks[k]? = some c → c.pos = .router y i →
    let mine := fun b : NodeBuf => b.node == y.val && b.ent == 0 && b.c.q == c.q
    (((s.dev.chunks.take k).any c.sameFlow = true ∨ s.dev.routerFailed y = true) → exec (.reductionChunkArrive k) s = answer s s.dev)
    ∧ ((s.dev.chunks.take k).any c.sameFlow = false → s.dev.routerFailed y = false →
      (∀ dir next, s.dev.nodesOf y = [] → s.dev.routeOf c.rset y c.dest = some dir → neighbour y dir = some next →
        s.dev.routerFailed next = false → ∃ u, exec (.reductionChunkArrive k) s = .next u
          ∧ u.dev.chunks = s.dev.chunks.eraseIdx k ++ [{ c with pos := .router next (opposite dir) }]
          ∧ u.dev.reg64 (Reg.yardRtrFlitsLo y) (Reg.yardRtrFlitsHi y) = (s.dev.reg64 (Reg.yardRtrFlitsLo y) (Reg.yardRtrFlitsHi y) + 1) % 2 ^ 64
          ∧ ∀ z, u.dev.byte z = s.dev.byte z)
      ∧ (s.dev.nodesOf y = [e] → neRid e = c.rid → neInputs e = [i, j] → i ≠ j →
        ((∀ b ∈ s.dev.bufs, mine b = false) → (s.dev.bufs.filter (fun b => b.node == y.val && b.ent == 0)).length < neF e 2 20 8 →
          exec (.reductionChunkArrive k) s
            = answer s { s.dev with chunks := s.dev.chunks.eraseIdx k, bufs := s.dev.bufs ++ [⟨y, 0, i, c⟩] })
        ∧ (s.dev.bufs.filter mine = [⟨y, 0, j, b⟩] → c.rop = 2 → neOut e < 24 →
          ∃ u, exec (.reductionChunkArrive k) s = .next u ∧ u.dev.bufs = s.dev.bufs.filter (fun b => !mine b)
            ∧ u.dev.chunks = s.dev.chunks.eraseIdx k ++ [{ c with
                pos := .tile (24 * y.val + neOut e), sat := c.sat || b.sat, nf := c.nf || b.nf, ord := neOrd e,
                lanes := (List.range 128).map (fun l => c.lanes.getD l 0 ||| b.lanes.getD l 0) }]
            ∧ ∀ z, u.dev.byte z = s.dev.byte z)))

/-- Tier 2. Mesh routing hop by hop, failed routers, and reduction nodes. -/
def Obligations.Mesh : Prop := Parts.MeshRouting ∧ Parts.ReductionNodes

/-! ## Protected memories (R167 to R170, R193 to R196) -/

/-- Scrubs and write-backs of tile stores and case memory: one error struck in a sound line is counted as corrected and written back
later, two are recorded as uncorrectable with the scrubber's master ID; no byte changes; the last line of a pass counts it. -/
def Parts.ScrubsAndWritebacks : Prop :=
  ∀ (s : State) (p : Slot) (y : Yard) (sl : Fin 32) (line a : Nat), s.dev.ecc = [] → s.dev.wb = [] →
    let w := tileBase p + a / 8 * 8
    let c := caseBase y + sl.val * 0x200000 + a / 8 * 8
    let same := fun u : State => ∀ z, u.dev.byte z = s.dev.byte z
    (128 * line < 0x60000 → 128 * line ≤ a → a < 128 * line + 128 →
      (∃ u, exec (.storeScrub p line [⟨a, false⟩] false) s = .next u ∧ same u ∧ u.dev.wb = [w] ∧ u.dev.ecc = [(w, 1)]
        ∧ u.dev.fld (Reg.tileEccStatus p) F.tileEccStatusCeCount = min (s.dev.fld (Reg.tileEccStatus p) F.tileEccStatusCeCount + 1) 0xFFFF)
      ∧ (s.dev.flag (Reg.tileEccStatus p) F.tileEccStatusUe = false →
        ∃ u, exec (.storeScrub p line [⟨a, true⟩] false) s = .next u ∧ same u ∧ u.dev.flag (Reg.tileEccStatus p) F.tileEccStatusUe = true
        ∧ u.dev.fld (Reg.tileEccStatus p) F.tileEccStatusUeMaster = 15 ∧ u.dev.reg (Reg.tileEccAddr p) % 2 ^ 19 = a / 8 * 8)
      ∧ exec (.storeScrub p line [] true) s = answer s (s.dev.incFld (Reg.tileEccScrub p) fld32 1))
    ∧ (64 * line < 0x200000 → 64 * line ≤ a → a < 64 * line + 64 →
      (∃ u, exec (.caseScrub y sl line [⟨a, false⟩] false) s = .next u ∧ same u ∧ u.dev.wb = [c] ∧ u.dev.ecc = [(c, 1)]
        ∧ u.dev.fld (Reg.yardCaseEcc y) F.yardCaseEccCeCount = min (s.dev.fld (Reg.yardCaseEcc y) F.yardCaseEccCeCount + 1) 0xFFFF)
      ∧ (s.dev.flag (Reg.yardCaseEcc y) F.yardCaseEccUe = false →
        ∃ u, exec (.caseScrub y sl line [⟨a, true⟩] false) s = .next u ∧ same u ∧ u.dev.flag (Reg.yardCaseEcc y) F.yardCaseEccUe = true
        ∧ u.dev.fld (Reg.yardCaseEcc y) F.yardCaseEccUeMaster = 31))
    ∧ (a < 0x60000 → ∀ d, d = { s.dev with ecc := [(w, 1)], wb := [w] } → exec (.storeEccWriteback p a) { s with dev := d } = answer s s.dev)
    ∧ (a < 0x4000000 → ∀ d, d = { s.dev with ecc := [(caseBase y + a / 8 * 8, 1)], wb := [caseBase y + a / 8 * 8] } →
      exec (.caseEccWriteback y a) { s with dev := d } = answer s s.dev)

/-- A beat of a case slice: a lone reader gets its line, a lone writer that owns the slice writes it, one that does not own it gets
an access error while a job runs; of two masters never granted before the lower number is granted at a cycle's start, and the other loses the cycle, counted
(R193, R197). -/
def Parts.CaseBeats : Prop :=
  ∀ (s : State) (y : Yard) (sl : Fin 32) (m n : Fin 25) (a : Nat) (bs : List Byte), s.dev.ecc = [] → a < 0x200000 → bs.length = 64 →
    s.dev.yardFurled y = false →
    let g := caseBase y + sl.val * 0x200000 + a / 64 * 64
    let owner := bitsAt (s.dev.reg (Reg.yardSliceOwner y (sl.val / 4))) (8 * (sl.val % 4)) 8
    (∃ u, exec (.caseSliceBeat y sl [⟨m, a, none⟩]) s = .next u ∧ u.dev.out = s.dev.out ++ [.caseData y sl m true (s.dev.bytes g 64)]
      ∧ ∀ z, u.dev.byte z = s.dev.byte z)
    ∧ (owner = m.val → ∃ u, exec (.caseSliceBeat y sl [⟨m, a, some bs⟩]) s = .next u
      ∧ ∀ z, u.dev.byte z = if g ≤ z ∧ z < g + 64 then bs.getD (z - g) 0 else s.dev.byte z)
    ∧ (owner ≠ m.val → s.dev.runningJob = true → ∃ u, exec (.caseSliceBeat y sl [⟨m, a, some bs⟩]) s = .next u
      ∧ u.dev.out = s.dev.out ++ [.caseData y sl m false []] ∧ ∀ z, u.dev.byte z = s.dev.byte z)
    ∧ (m < n → (∀ e ∈ (s.dev.yard y).last, e.1 ≠ sl.val) → (s.dev.yard y).cycle = [] → (s.dev.yard y).lost = [] → ∃ u, exec (.caseSliceBeat y sl [⟨n, a, none⟩, ⟨m, a, none⟩]) s = .next u
      ∧ u.dev.out = s.dev.out ++ [.caseData y sl m true (s.dev.bytes g 64)]
      ∧ u.dev.reg (Reg.yardConflict y n) = min (s.dev.reg (Reg.yardConflict y n) + 1) (2 ^ 32 - 1)
      ∧ u.dev.reg (Reg.yardConflict y m) = s.dev.reg (Reg.yardConflict y m))

/-- Tier 2. Scrubs, write-backs and beats of the tile stores and case memory. -/
def Obligations.ProtectedMemories : Prop := Parts.ScrubsAndWritebacks ∧ Parts.CaseBeats

/-! ## The hold (R202 to R214) -/

/-- A request within one granule of its controller that its path may make is scheduled; the completion of the one that waits
delivers or stores its bytes (outside the mirror held for a partner); an access that its region refuses is an access error; a read passes on a retry, counted, and fails after three
tries, recorded with its address. -/
def Parts.HoldAccesses : Prop :=
  ∀ (s : State) (c : Ctl) (path : Fin 8) (a n : Nat) (bs : List Byte) (st : Word), path.val < 7 → a + n ≤ 0x8000000000 → 0 < n → a / 256 % 4 = c.val →
    a / 256 = (a + n - 1) / 256 → s.dev.ecc = [] →
    let rd : HoldReqS := ⟨false, path, .read a n st, none, false⟩
    let wr : HoldReqS := ⟨false, path, .write a bs, none, false⟩
    let open_ := s.dev.flag (Reg.holdStatus 0) F.holdStatusClearing = false
    let none_ : EccTries := ⟨[], 0, 0, false⟩
    let q := (s.dev.ctl c).q
    (open_ → s.dev.retainedClosed a n = false →
      (s.dev.regionOk (.fabric path) a n false = true → exec (.holdRequest c false path (.read a n st)) s
        = answer s (s.dev.setCtl c { s.dev.ctl c with q := q ++ [rd] }))
      ∧ (s.dev.regionOk (.fabric path) a n false = false → ∃ t, exec (.holdRequest c false path (.read a n st)) s = .next t
        ∧ t.dev.out = s.dev.out ++ [.holdData c false [] false] ∧ (t.dev.ctl c).q = q))
    ∧ (q = [rd] → open_ →
      (∃ t stale, exec (.holdReadComplete c 0 none_) s = .next t ∧ (t.dev.ctl c).q = []
        ∧ t.dev.out = s.dev.out ++ [.holdData c true (s.dev.bytes a n) stale] ∧ (s.dev.copyAt a n = none → stale = false))
      ∧ (∃ t stale, exec (.holdReadComplete c 0 ⟨[false, true], 0, 0, false⟩) s = .next t
        ∧ t.dev.out = s.dev.out ++ [.holdData c true (s.dev.bytes a n) stale]
        ∧ t.dev.reg (Reg.holdEccRetry c) = min (s.dev.reg (Reg.holdEccRetry c) + 1) (2 ^ 32 - 1))
      ∧ (s.dev.flag (Reg.holdEccUe c) F.holdEccUeUe = false → a / 64 = (a + n - 1) / 64 → ∃ t, exec (.holdReadComplete c 0 ⟨[false, false, false], 0, 0, false⟩) s = .next t
        ∧ Msg.holdData c false [] false ∈ t.dev.out ∧ t.dev.flag (Reg.holdEccUe c) F.holdEccUeUe = true
        ∧ t.dev.reg64 (Reg.holdUeAddrLo c) (Reg.holdUeAddrHi c) = a / 64 * 64))
    ∧ (q = [wr] → open_ → bs.length = n →
      (∀ r, s.dev.rgnOf 2 = some r → a + n ≤ s.dev.mirrorAt ∨ s.dev.mirrorAt + max 64 (s.dev.rgnBytes r) ≤ a) → ∃ t, exec (.holdWriteComplete c 0 none_) s = .next t ∧ (t.dev.ctl c).q = []
      ∧ t.dev.out = s.dev.out ++ [.holdData c true [] false]
      ∧ ∀ z, t.dev.byte z = if a ≤ z ∧ z < a + n then bs.getD (z - a) 0 else s.dev.byte z)

/-- Maintenance: a patrol reads one burst of its controller while a job is loaded and both sides are idle, and records what it
finds without an access error; refresh, RFM and tracking change no memory (R204, R212, R213). -/
def Parts.HoldMaintenance : Prop :=
  ∀ (s : State) (c : Ctl) (burst : Nat) (ch bank : Fin 16),
    let a := 64 * burst
    (s.dev.jobLoaded = true → a < 0x8000000000 → a / 256 % 4 = c.val → (s.dev.ctl c).q = [] →
      (∃ t, exec (.holdPatrol c burst ⟨[], 0, 0, false⟩) s = .next t ∧ (∀ z, t.dev.byte z = s.dev.byte z)
        ∧ t.dev.reg64 (Reg.holdRdBytesLo c) (Reg.holdRdBytesHi c) = (s.dev.reg64 (Reg.holdRdBytesLo c) (Reg.holdRdBytesHi c) + 64) % 2 ^ 64)
      ∧ (s.dev.flag (Reg.holdEccUe c) F.holdEccUeUe = false → ∃ t, exec (.holdPatrol c burst ⟨[false, false, false], 0, 0, false⟩) s = .next t
        ∧ t.dev.flag (Reg.holdEccUe c) F.holdEccUeUe = true ∧ t.dev.fld (Reg.holdEccUe c) F.holdEccUeLayer = 3 ∧ t.dev.out = s.dev.out
        ∧ ∀ z, t.dev.byte z = s.dev.byte z))
    ∧ (s.dev.jobLoaded = false → exec (.holdPatrol c burst ⟨[], 0, 0, false⟩) s = answer s s.dev)
    ∧ (exec (.rfm c ch) s = answer s (s.dev.satFld (Reg.holdRfmCount c) fld32 1))
    ∧ (exec (.oscillatorTracking c ch) s = answer s (s.dev.setCtl c { s.dev.ctl c with tracked := (s.dev.ctl c).tracked ||| 2 ^ ch.val }))
    ∧ ((s.dev.ctl c).refreshed = [] → exec (.perBankRefresh c ch bank) s
      = answer s (s.dev.setCtl c { s.dev.ctl c with refreshed := [16 * ch.val + bank.val] }))

/-- Tier 2. The hold: requests, reads, writes, retries, patrol, refresh and tracking. -/
def Obligations.Hold : Prop := Parts.HoldAccesses ∧ Parts.HoldMaintenance

/-! ## Control space (R6 to R9, R27, R92, R175 to R177, R198, R287) -/

/-- Writes of control registers by access code: RW takes the value, RWL only while no job is started, RO keeps its own, W1C clears
the bits written 1 (VALID takes MORE with it); an offset with no register (logged) and another device's write are access errors; the bosun
writes the registers that R29 names alone, RWL ones among them. -/
def Parts.RegisterWrites : Prop :=
  ∀ (s : State) (p : Slot) (y : Yard) (v : Word) (r : BitVec 12) (off : Nat),
    let w := fun off => exec (.registerWrite .host off v) s
    (∃ t, w Reg.hstIrqData = .next t ∧ t.dev.reg Reg.hstIrqData = v.toNat ∧ t.dev.out = s.dev.out ++ [.regData true 0]
      ∧ ∀ i, i ≠ Reg.hstIrqData → t.dev.reg i = s.dev.reg i)
    ∧ (s.dev.started = false → ∃ t, w (Reg.yardSqVictim y) = .next t ∧ t.dev.reg (Reg.yardSqVictim y) = v.toNat)
    ∧ (s.dev.started = true → ∃ t, w (Reg.yardSqVictim y) = .next t ∧ t.dev.reg (Reg.yardSqVictim y) = s.dev.reg (Reg.yardSqVictim y)
      ∧ t.dev.bos.seq = s.dev.bos.seq + 1)
    ∧ (∃ t, w Reg.halDec = .next t ∧ t.dev.reg Reg.halDec = s.dev.reg Reg.halDec)
    ∧ (v.getLsbD 31 = true → ∃ t, w (Reg.tileProgFault p) = .next t ∧ t.dev.flag (Reg.tileProgFault p) F.tileProgFaultValid = false
      ∧ t.dev.flag (Reg.tileProgFault p) F.tileProgFaultMore = false
      ∧ t.dev.fld (Reg.tileProgFault p) F.tileProgFaultCause = s.dev.fld (Reg.tileProgFault p) F.tileProgFaultCause)
    ∧ (v.getLsbD 31 = false → ∃ t, w (Reg.tileProgFault p) = .next t ∧ t.dev.reg (Reg.tileProgFault p) = s.dev.reg (Reg.tileProgFault p))
    ∧ (regAt off = none → off % 4 = 0 → off < 0x2000000 → ∃ t, w off = .next t ∧ t.dev.out = s.dev.out ++ [.regData false 0]
      ∧ t.dev.bos.seq = s.dev.bos.seq + 1 ∧ ∀ a, t.dev.byte a = s.dev.byte a)
    ∧ (exec (.registerWrite .bosun Reg.hstIrqData v) s = answer s (s.dev.send (.regData false 0)))
    ∧ (s.dev.started = false → ∃ t, exec (.registerWrite .bosun (Reg.yardSqVictim y) v) s = .next t ∧ t.dev.reg (Reg.yardSqVictim y) = v.toNat)
    ∧ (exec (.registerWrite (.remote r) Reg.hstIrqData v) s = answer s (s.dev.send (.regData false 0)))

/-- Register pairs: a read of the lower half captures the upper for its master, a read of the upper delivers the capture once; a write
of the upper half is held, and the next write of the lower takes both (R7). -/
def Parts.RegisterPairs : Prop :=
  ∀ (s : State) (v h : Word),
    let lo := Reg.clkTbLoadLo
    let hi := Reg.clkTbLoadHi
    let m := Master.host
    (∃ t, exec (.pairLoRead m lo) s = .next t ∧ t.dev.out = s.dev.out ++ [.regData true (w32 (s.dev.reg lo))]
      ∧ (t.dev.capOf m lo).hi = some (w32 (s.dev.reg hi)) ∧ ∀ i, t.dev.reg i = s.dev.reg i)
    ∧ ((s.dev.capOf m lo).hi = some v → ∃ t, exec (.pairHiRead m hi) s = .next t ∧ t.dev.out = s.dev.out ++ [.regData true v]
      ∧ (t.dev.capOf m lo).hi = none)
    ∧ ((s.dev.capOf m lo).hi = none → ∃ t, exec (.pairHiRead m hi) s = .next t
      ∧ t.dev.out = s.dev.out ++ [.regData true (w32 (s.dev.reg hi))])
    ∧ (∃ t, exec (.pairHiWrite m hi v) s = .next t ∧ (t.dev.capOf m lo).held = some v ∧ ∀ i, t.dev.reg i = s.dev.reg i)
    ∧ ((s.dev.capOf m lo).held = some h → ∃ t, exec (.pairLoWrite m lo v) s = .next t ∧ t.dev.reg lo = v.toNat ∧ t.dev.reg hi = h.toNat
      ∧ (t.dev.capOf m lo).held = none)
    ∧ ((s.dev.capOf m lo).held = none → ∃ t, exec (.pairLoWrite m lo v) s = .next t ∧ t.dev.reg lo = v.toNat
      ∧ t.dev.reg hi = s.dev.reg hi)

/-- The registers whose write or read has rules of its own: DBGDATA reads only in debug mode, BANK_NEXT keeps a field written 3,
SLICE_CTL is armed by the yard's CT or the bosun alone, WAVE_OPEN is or-ed by cores of the yard's CT alone (R92, R175, R198, R287). -/
def Parts.GuardedRegisters : Prop :=
  ∀ (s : State) (p : Slot) (y : Yard) (c : Fin 4) (v : Word),
    let ct : Master := .tile ⟨24 * y.val + 23, by omega⟩ c
    (slotIsMt p = true → s.dev.debugOpen 1 = false → ∃ t, exec (.dbgdataRead .bosun p) s = .next t ∧ t.dev.out = s.dev.out ++ [.regData true 0]
      ∧ t.dev.bos.seq = s.dev.bos.seq + 1)
    ∧ (slotIsMt p = true → s.dev.debugOpen 1 = true → exec (.dbgdataRead .bosun p) s
      = answer s (s.dev.send (.regData true (w32 (s.dev.dbgData p)))))
    ∧ ((∀ b, b < 16 → bitsAt v.toNat (2 * b) 2 ≠ 3) → ∃ t, exec (.tileBankNext .host p v) s = .next t
      ∧ t.dev.reg (Reg.tileBankNext p) = v.toNat ∧ t.dev.reg (Reg.tileBankOwner p) = s.dev.reg (Reg.tileBankOwner p))
    ∧ ((∀ b, b < 16 → bitsAt v.toNat (2 * b) 2 = 3) → ∃ t, exec (.tileBankNext .host p v) s = .next t
      ∧ t.dev.reg (Reg.tileBankNext p) = s.dev.reg (Reg.tileBankNext p))
    ∧ (∃ t, exec (.yardSliceArm ct y v) s = .next t ∧ t.dev.fld (Reg.yardSliceCtl y) F.yardSliceCtlBarrier = v.toNat % 16
      ∧ t.dev.flag (Reg.yardSliceCtl y) F.yardSliceCtlArm = (s.dev.flag (Reg.yardSliceCtl y) F.yardSliceCtlArm || v.getLsbD 4))
    ∧ (exec (.yardSliceArm .host y v) s = answer s (s.dev.send (.regData false 0)))
    ∧ (∃ t, exec (.yardSqWaveOpen ct y v) s = .next t
      ∧ t.dev.reg (Reg.yardSqWaveOpen y) = Nat.lor (s.dev.reg (Reg.yardSqWaveOpen y)) (v.toNat % 2 ^ 16))
    ∧ (∃ t, exec (.yardSqWaveOpen .host y v) s = .next t ∧ t.dev.reg (Reg.yardSqWaveOpen y) = s.dev.reg (Reg.yardSqWaveOpen y)
      ∧ t.dev.bos.seq = s.dev.bos.seq + 1
      ∧ t.dev.out = s.dev.out ++ [.regData false 0])

/-- Tier 2. Writes and reads of control registers by access code, 64-bit pairs, and registers with rules of their own. -/
def Obligations.ControlSpace : Prop := Parts.RegisterWrites ∧ Parts.RegisterPairs ∧ Parts.GuardedRegisters

/-! ## The presses (R303 to R320) -/

/-- Tier 2. Ready counts and pass A: the last expected PRESS_READY of a layer queues it, one too many is press fault 0x1; a press takes the
first ready layer it has not ended, ends it with its accumulators kept, and the whole layer's sums give the combination. -/
def Obligations.PressPassA : Prop :=
  ∀ (s : State) (m : Master) (c : Ctl) (l : Nat) (y : Layer) (v : Word), s.dev.press.layer l = some y →
    let n := Sparse.get (fun _ => 0) s.dev.press.ready l + 1
    let pr := s.dev.pr c
    (Dev.maySet m Reg.pressReady = true → v.toNat % 4096 = l → l < s.dev.reg Reg.pressLtCount → y.frozen = false →
      exec (.pressReady m v) s = if y.readyExpect < n then answer s (s.dev.pressFault 0 1 l 1)
        else answer s { s.dev with press := { s.dev.press with
          ready := Sparse.set (fun _ => 0) s.dev.press.ready l n,
          readyQ := if n = y.readyExpect then s.dev.press.readyQ ++ [l] else s.dev.press.readyQ } })
    ∧ (s.dev.press.readyQ.find? (fun l => !pr.aDone.contains l) = some l → s.dev.runningJob = true → s.dev.hal.aborting = false →
      s.dev.press.prep = false → pr.cur = none → s.dev.press.dec = none → s.dev.pst c ≠ 6 →
      ∃ t, exec (.passALayerStart c) s = .next t ∧ (t.dev.pr c).cur = some l ∧ t.dev.pst c = 2
        ∧ t.dev.fld (Reg.pressStatus c) F.pressStatusLayer = l % 2 ^ F.pressStatusLayer.width)
    ∧ (pr.cur = some l → s.dev.pst c = 2 → s.dev.runningJob = true → s.dev.hal.aborting = false → s.dev.ecc = [] →
      ∃ t, exec (.passALayerEnd c) s = .next t ∧ (t.dev.pr c).cur = none ∧ (t.dev.pr c).aDone = l :: pr.aDone
        ∧ (lookup (t.dev.pr c).acc l).isSome = true ∧ t.dev.pst c = 0)
    ∧ (∀ a, s.dev.started = true → y.frozen = false → s.dev.press.prep = false → s.dev.press.dec = none → y.shardsM1 = 0 → y.shardPos = 0 →
      y.chCount ≠ 0 → s.dev.accOf l (s.dev.ruleOf y).progA = some a →
      exec (.combinationReturn l []) s
        = answer s { s.dev with press := { s.dev.press with comb := Sparse.insert s.dev.press.comb l (s.dev.combOf l y [a]) } })

/-- Tier 2. Step sizes: a push joins the queue of four unless the size is negative or not finite; once all presses have ended pass A the size
of the running step is latched and older ones are dropped; without one in time the step is marked. The decision arrival then carries
the press's flag bits (R307 to R309). -/
def Obligations.StepSizesAndArrival : Prop :=
  ∀ (s : State) (m : Master) (c : Ctl) (v x : Word) (rest : List (Word × Word)),
    let size := w32 (s.dev.reg Reg.pressStepSize)
    let n := s.dev.step
    (Dev.maySet m Reg.pressStepTag = true → (4 ≤ s.dev.press.ssq.length ∨ negOrNonfinite size = true) → exec (.stepSizePush m v) s
      = answer s (s.dev.satFld Reg.pressSsq F.pressSsqRejected 1))
    ∧ (Dev.maySet m Reg.pressStepTag = true → s.dev.press.ssq.length < 4 → negOrNonfinite size = false → ∃ t, exec (.stepSizePush m v) s = .next t
      ∧ t.dev.press.ssq = s.dev.press.ssq ++ [(v, size)] ∧ t.dev.fld Reg.pressSsq F.pressSsqCount = s.dev.press.ssq.length + 1)
    ∧ (s.dev.wantsSize = true → s.dev.press.ssq = (n, x) :: rest → ∃ t, exec .stepSizeLatch s = .next t ∧ t.dev.press.ssq = rest
      ∧ t.dev.reg Reg.pressSsLatched = x.toNat ∧ t.dev.reg Reg.pressSsStep = n.toNat)
    ∧ (s.dev.wantsSize = false → exec .stepSizeLatch s = answer s s.dev ∧ exec .stepSizeTimeout s = answer s s.dev)
    ∧ (s.dev.wantsSize = true → ∃ t, exec .stepSizeTimeout s = .next t ∧ t.dev.press.stepTimedOut = true
      ∧ t.dev.fld Reg.pressSsq F.pressSsqTimeouts
          = min (s.dev.fld Reg.pressSsq F.pressSsqTimeouts + 1) (2 ^ F.pressSsqTimeouts.width - 1))
    ∧ (s.dev.runningJob = true → s.dev.hal.aborting = false → s.dev.press.prep = false → s.dev.hal.first = false → s.dev.hal.decGiven = false →
      (s.dev.pr c).decArr = false → s.dev.pst c ≠ 6 → s.dev.endedA c = true →
      (∀ l ∈ s.dev.press.sharded, (lookup s.dev.press.comb l).isSome = true) → (s.dev.latched = true ∨ s.dev.press.stepTimedOut = true) → s.dev.ecc = [] →
      ∃ t, exec (.pressDecisionArrival c) s = .next t ∧ (t.dev.pr c).decArr = true ∧ t.dev.pst c = 3
        ∧ t.dev.reg (Reg.pressAgeDigest c) = (s.dev.ageDigest c).toNat ∧ t.dev.hal.pressFlags = (s.dev.hal.pressFlags ||| s.dev.pressBits)
        ∧ ∀ a, t.dev.byte a = s.dev.byte a)

/-- What a press may write: hold bytes that its region admits, that no waiting request of the hold touches first and that are no part of the
head of a mirror. -/
def pressMayWrite (d : Dev) (a n : Nat) : Prop :=
  a + n ≤ holdTop ∧ d.flag (Reg.holdStatus 0) F.holdStatusClearing = false ∧ d.retainedClosed a n = false ∧ d.regionOk .press a n true = true
    ∧ (∀ c, c < 4 → (d.ctl c).q = []) ∧ d.ecc = [] ∧ (d.rgnOf 2 = none ∨ a + n ≤ d.mirrorAt ∨ d.mirrorAt + 64 ≤ a)

/-- Pass B after a commit: a device without a shard runs no element; more uses than REL_EXPECT are press fault 0x2, fewer wait, and at
the limit are fault 0x3; a press ends a layer by its replica of the record; a channel regenerates once every press runs the layer; a
spoil acknowledged closes the mirror (R310 to R312, R335). -/
def Parts.PressPassB : Prop :=
  ∀ (s : State) (c : Ctl) (l : Nat) (y : Layer) (n : Word) (peers ch : Nat), s.dev.press.layer l = some y → s.dev.press.dec = some (n, true) →
    s.dev.runningJob = true → s.dev.hal.aborting = false → s.dev.pst c ≠ 6 →
    let rel := s.dev.relOf n l + peers
    (s.dev.nextB c = some l → (s.dev.pr c).cur = none → s.dev.reg Reg.pressSsStep = n.toNat → s.dev.press.spoilWait = false →
      (y.chCount = 0 → ∃ t, exec (.passBLayerStart c peers) s = .next t ∧ (t.dev.pr c).cur = some l ∧ t.dev.pst c = 4
        ∧ ∀ a, t.dev.byte a = s.dev.byte a)
      ∧ (y.chCount ≠ 0 → y.relExpect < rel → exec (.passBLayerStart c peers) s = answer s (s.dev.pressFault c 2 l 2))
      ∧ (y.chCount ≠ 0 → rel < y.relExpect → exec (.passBLayerStart c peers) s = answer s s.dev))
    ∧ (y.frozen = false → y.chCount ≠ 0 → rel < y.relExpect → exec (.releaseCountLimit ⟨c, l, peers⟩) s = answer s (s.dev.pressFault c 3 l 2))
    ∧ ((y.frozen = true ∨ y.chCount = 0 ∨ y.relExpect ≤ rel) → exec (.releaseCountLimit ⟨c, l, peers⟩) s = answer s s.dev)
    ∧ (∀ wn, (s.dev.pr c).cur = some l → s.dev.pst c = 4 → lookup s.dev.press.bsum l = some wn →
      (y.hasCopy = true → s.dev.regenDone l y = true) → pressMayWrite s.dev (s.dev.recAt s.dev.altAt l c) 256 →
      ∃ t, exec (.passBLayerEnd c) s = .next t ∧ (t.dev.pr c).cur = none ∧ (t.dev.pr c).bDone = l :: (s.dev.pr c).bDone
        ∧ t.dev.nat (s.dev.recAt s.dev.altAt l c) 4 = (s.dev.ageOf c l + 1) % 2 ^ 32
        ∧ t.dev.nat (s.dev.recAt s.dev.altAt l c + 16) 4 = wn.toNat
        ∧ ∀ a, (a < s.dev.recAt s.dev.altAt l c ∨ s.dev.recAt s.dev.altAt l c + 256 ≤ a) → t.dev.byte a = s.dev.byte a)
    ∧ (y.hasCopy = true → ch < y.chCount → (Sparse.get (fun _ => 0) s.dev.press.regen l).testBit ch = false →
      (∀ k, k < 4 → (s.dev.pr k).cur = some l ∧ s.dev.pst k = 4) →
      ∃ t, exec (.channelRegen l ch) s = .next t
        ∧ Sparse.get (fun _ => 0) t.dev.press.regen l = Sparse.get (fun _ => 0) s.dev.press.regen l + 2 ^ ch)
    ∧ (s.dev.press.spoilWait = true → ∃ t, exec .mirrorSpoilAck s = .next t ∧ t.dev.press.spoilWait = false
      ∧ t.dev.flag Reg.pressMirrorCtl F.pressMirrorCtlOpen = false
      ∧ t.dev.reg Reg.pressMirrorSpoiled = min (s.dev.reg Reg.pressMirrorSpoiled + 1) (2 ^ 32 - 1))

/-- PRESS_COPY_IN counts codes that come in, one too many is press fault 0x4; the commit work of a skip is the arrival alone, that of a
commit comes once every layer and copy is done, and moves each scale entry on by scale_commit in the hold and in the alternate slot (R68,
R314 to R316). -/
def Parts.PressCommitWork : Prop :=
  ∀ (s : State) (m : Master) (c : Ctl) (l : Nat) (y : Layer) (v n : Word), s.dev.press.layer l = some y →
    let k := s.dev.copyIns l + 1
    (Dev.maySet m Reg.pressCopyIn = true → v.toNat % 4096 = l → exec (.pressCopyIn m v) s = if y.hasCopy = false ∨ y.inExpect < k then answer s (s.dev.pressFault 0 4 l 0)
      else answer s (Dev.tryVersion { s.dev with press := { s.dev.press with copyIn := Sparse.set (fun _ => 0) s.dev.press.copyIn l k } } l))
    ∧ (s.dev.runningJob = true → s.dev.hal.aborting = false → (s.dev.pr c).worked = false → (s.dev.pr c).cur = none → s.dev.pst c ≠ 6 →
      (s.dev.press.dec = some (n, false) → ∃ t, exec (.pressCommitWork c) s = .next t ∧ (t.dev.pr c).comArr = true ∧ t.dev.pst c = 5
        ∧ (∀ a, t.dev.byte a = s.dev.byte a))
      ∧ (s.dev.press.dec = some (n, true) → (∃ i ∈ s.dev.press.unfrozen, (s.dev.pr c).bDone.contains i = false) →
        exec (.pressCommitWork c) s = answer s s.dev)
      ∧ (s.dev.press.dec = some (n, true) → (∀ i ∈ s.dev.press.unfrozen, (s.dev.pr c).bDone.contains i = true) → c.val ≠ 0 →
        (∀ i z, s.dev.press.layer i = some z → z.frozen = false ∧ (z.hasCopy = true → s.dev.press.verDone.contains i = true)) →
        s.dev.press.spoilWait = false → s.dev.ecc = [] → s.dev.job.scaleAt + 64 * s.dev.job.scaleCount ≤ s.dev.scaleSlotAt s.dev.altAt 0 →
        (∀ i, i < s.dev.job.scaleCount → ctlOf (s.dev.scaleSlotAt s.dev.altAt i) = c.val →
          pressMayWrite s.dev (s.dev.job.scaleAt + 64 * i) 64 ∧ pressMayWrite s.dev (s.dev.scaleSlotAt s.dev.altAt i) 64) →
        ∃ t, exec (.pressCommitWork c) s = .next t ∧ (t.dev.pr c).comArr = true ∧ t.dev.pst c = 5
          ∧ ∀ i, i < s.dev.job.scaleCount → ctlOf (s.dev.scaleSlotAt s.dev.altAt i) = c.val →
            let e := scaleCommit (s.dev.bytes (s.dev.job.scaleAt + 64 * i) 64)
            t.dev.bytes (s.dev.job.scaleAt + 64 * i) 64 = e ∧ t.dev.bytes (s.dev.scaleSlotAt s.dev.altAt i) 64 = scaleProof e))

/-- Tier 2. Pass B, regeneration, the spoil and the work at the commit. -/
def Obligations.PressAfterDecision : Prop := Parts.PressPassB ∧ Parts.PressCommitWork

/-! ## The proof and its mirror (R326 to R335) -/

/-- Tier 2. The record of a step: acknowledged, it ends the decision and on one device the job has recorded the step, with any held abort
raised then; a write that fails twice is device-fatal; other devices' notices for the decided step are kept once (R210, R327, R329). -/
def Obligations.CommitRecords : Prop :=
  ∀ (s : State) (n : Word) (commit : Bool) (dev : BitVec 12), s.dev.runningJob = true → s.dev.hal.aborting = false →
    let b := s.dev.stepRecord n commit
    let a := s.dev.recCopyAt (recSeq b % 2)
    (s.dev.press.dec = some (n, commit) → s.dev.press.recWait = true →
      (s.dev.regionOk .press a 64 true = true → s.dev.multi = false → s.dev.hal.lastStep = none → n ≠ 0xFFFFFFFE#32 → s.dev.hal.heldStep = none →
        s.dev.hal.holding = true → s.dev.hal.heldAbort = none →
        ∃ t, exec (.recordAck ⟨[], 0, 0, false⟩) s = .next t ∧ t.dev.press.dec = none ∧ t.dev.press.recWait = false ∧ t.dev.hal.holding = false
          ∧ t.dev.fld Reg.devReplays F.devReplaysConsec = 0 ∧ t.dev.reg Reg.pressProofJobstep = t.dev.reg Reg.pressProofStep
          ∧ (s.dev.cplFull = true → ∀ i, i < 64 → t.dev.byte (a + i) = b.getD i 0))
      ∧ (s.dev.regionOk .press a 64 true = true → s.dev.jst ≠ 7 → s.dev.jst ≠ 8 →
        ∃ t, exec (.recordAck ⟨[false, false], 0, 0, false⟩) s = .next t ∧ t.dev.jst = 7 ∧ t.dev.fld Reg.hstJob F.hstJobEndCause = 5))
    ∧ (s.dev.press.recWait = false → exec (.recordAck ⟨[], 0, 0, false⟩) s = answer s s.dev)
    ∧ (n = w32 (s.dev.reg Reg.halDecStep) → n ≠ w32 (s.dev.reg Reg.pressProofJobstep) → s.dev.hal.recorded.contains dev = false →
      s.dev.hal.holding = false →
      exec (.recordedNotice dev n) s = answer s { s.dev with hal := { s.dev.hal with recorded := s.dev.hal.recorded ++ [dev] } })
    ∧ (n ≠ w32 (s.dev.reg Reg.halDecStep) → exec (.recordedNotice dev n) s = answer s s.dev)

/-- Tier 2. The mirror: OPEN latches the live slot and is no longer due, 0 ends it; at the holder an opening head restarts the count of image
bytes with VERIFIED 0, an image write is stored and counted, a spoiled head ends the copy, and a complete head is verified only when
the count and the record agree (R333, R334). -/
def Obligations.Mirrors : Prop :=
  ∀ (s : State) (m : Master) (off : Nat) (bs : List Byte) (g : Nat), s.dev.rgnOf 2 = some g →
    let at_ := s.dev.rgnBase g
    let rx := fun d : Dev => d.reg64 Reg.pressMirrorRxLo Reg.pressMirrorRxHi
    let st := fun d : Dev => d.fld Reg.pressMirrorHeld F.pressMirrorHeldState
    let ver := fun d : Dev => d.flag Reg.pressMirrorHeld F.pressMirrorHeldVerified
    let idle := ∀ c, c < 4 → (s.dev.ctl c).q = []
    let may := idle ∧ s.dev.ecc = [] ∧ 64 ≤ s.dev.rgnBytes g ∧ at_ + s.dev.rgnBytes g ≤ 0x8000000000
      ∧ s.dev.flag (Reg.holdStatus 0) F.holdStatusClearing = false ∧ s.dev.retainedClosed at_ 64 = false
      ∧ s.dev.regionOk .mirror at_ 64 true = true
    (Dev.maySet m Reg.pressMirrorCtl = true → ∃ t, exec (.mirrorCtlOpen m) s = .next t ∧ t.dev.flag Reg.pressMirrorCtl F.pressMirrorCtlOpen = true
      ∧ t.dev.fld Reg.pressMirrorCtl F.pressMirrorCtlSlot = s.dev.live % 2 ^ F.pressMirrorCtlSlot.width
      ∧ t.dev.flag Reg.pressProofStatus F.pressProofStatusMirrorDue = false)
    ∧ (Dev.maySet m Reg.pressMirrorCtl = true →
      exec (.mirrorCtlClose m) s = answer s (s.dev.setFlag Reg.pressMirrorCtl F.pressMirrorCtlOpen false))
    ∧ (may → bs.length = 64 → natAt bs 0 1 = 1 →
      ∃ t, exec (.mirrorHeadOpening bs) s = .next t ∧ st t.dev = 1 ∧ ver t.dev = false ∧ rx t.dev = 0)
    ∧ (may → bs.length = 64 → natAt bs 0 1 = 3 → ∃ t, exec (.mirrorHeadSpoiled bs) s = .next t ∧ st t.dev = 3 ∧ ver t.dev = false)
    ∧ (may → bs.length = 64 → natAt bs 0 1 = 2 → ∃ t, exec (.mirrorHeadComplete bs) s = .next t ∧ st t.dev = 2
      ∧ (st s.dev ≠ 1 → ver t.dev = false) ∧ (rx s.dev ≠ natAt bs 8 8 → ver t.dev = false))
    ∧ (idle → 64 ≤ off → off + bs.length ≤ s.dev.rgnBytes g → bs.length ≤ 256 → 0 < bs.length → s.dev.ecc = [] → at_ + s.dev.rgnBytes g ≤ 0x8000000000 →
      s.dev.flag (Reg.holdStatus 0) F.holdStatusClearing = false → s.dev.retainedClosed (at_ + off) bs.length = false →
      s.dev.regionOk .mirror (at_ + off) bs.length true = true →
      ∃ t, exec (.mirrorImageWrite off bs) s = .next t
        ∧ (∀ a, t.dev.byte a = if at_ + off ≤ a ∧ a < at_ + off + bs.length then bs.getD (a - (at_ + off)) 0 else s.dev.byte a)
        ∧ rx t.dev = if off + bs.length ≤ 0x10000 then rx s.dev else (rx s.dev + (off + bs.length - max off 0x10000)) % 2 ^ 64)

/-! ## Links (R345 to R376) -/

/-- What a port sends: a resend first, else the flit of the pool R358 chooses, which costs a credit and stays in the replay buffer, else
an idle flit, which takes no SEQ; halyard flits go first, never two in a row; a port that carries nothing sends nothing. -/
def Parts.FlitsSent : Prop :=
  ∀ (s : State) (n : Port),
    let l := s.dev.link n
    let go := exec (.flitSend n) s
    (s.dev.carrying n = false → go = answer s s.dev)
    ∧ (l.ready 0 = true → l.lastHal = false → l.choose = some 0)
    ∧ (∀ p, l.choose = some p → l.ready p = true ∧ (p = 0 → l.lastHal = false))
    ∧ (s.dev.carrying n = true →
      (∀ f rest, l.resend = f :: rest → ∃ t, go = .next t
        ∧ t.dev.out = s.dev.out ++ [.flit n (l.flit (flitPool f) (flitSeq f) (flitBody f))]
        ∧ (t.dev.link n).resend = rest ∧ (t.dev.link n).replay = l.replay ∧ (t.dev.link n).seq = l.seq)
      ∧ (∀ p, l.resend = [] → l.replay.length < 256 → l.choose = some p → ∃ t g, go = .next t
        ∧ t.dev.out = s.dev.out ++ [.flit n g] ∧ g.length = 256 ∧ flitPool g = p ∧ flitSeq g = l.seq % 4096
        ∧ (t.dev.link n).replay = l.replay ++ [g] ∧ (t.dev.link n).seq = (l.seq + 1) % 4096
        ∧ (t.dev.link n).credit p = l.credit p - 1 ∧ (t.dev.link n).pool p = (l.pool p).drop 248)
      ∧ (l.resend = [] → 256 ≤ l.replay.length ∨ l.choose = none → ∃ t, go = .next t
        ∧ t.dev.out = s.dev.out ++ [.flit n (l.flit 7 l.seq (l.tx.take 31).flatten)]
        ∧ (t.dev.link n).seq = l.seq ∧ (t.dev.link n).replay = l.replay))

/-- What a port does with a flit: one that fails its CRC or comes out of order is answered with a NAK, the eighth failure starts a fast
retrain, a reserved pool is a protocol error and takes the port down, a good one is accepted and its packets act. -/
def Parts.FlitsReceived : Prop :=
  ∀ (s : State) (n : Port) (f : List Byte) (a : Option (BitVec 12)),
    let l := s.dev.link n
    let go := exec (.flitReceive n f true a) s
    let good := natAt f 252 4 = (crc32 (f.take 252)).toNat
    let p := flitPool f
    (s.dev.carrying n = false → go = answer s s.dev)
    ∧ (s.dev.carrying n = true → f.length = 256 →
      (¬good → l.awaiting = true → flitSeq f ≠ l.expect → go = answer s s.dev)
      ∧ (¬good → (l.awaiting = false ∨ flitSeq f = l.expect) → l.fails = 0 → ∃ t, go = .next t ∧ (t.dev.link n).nak = true ∧ (t.dev.link n).expect = l.expect ∧ t.dev.out = s.dev.out)
      ∧ (¬good → (l.awaiting = false ∨ flitSeq f = l.expect) → l.fails = 7 → p ≠ 0 → ∃ t, go = .next t ∧ t.dev.lnkState n = 3 ∧ t.dev.flag (Reg.lnkFault n) F.lnkFaultValid = true)
      ∧ (good → flitAckt f = 0 → 1 ≤ p → p ≤ 4 → flitSeq f ≠ l.expect → l.awaiting = false → l.fails = 0 → ∃ t, go = .next t
        ∧ (t.dev.link n).nak = true ∧ (t.dev.link n).expect = l.expect)
      ∧ (good → flitAckt f = 0 → p = 5 ∨ p = 6 → ∃ t, go = .next t ∧ t.dev.flag (Reg.lnkStatus n) F.lnkStatusUp = false
        ∧ t.dev.fld (Reg.lnkStatus n) F.lnkStatusDownCause = 5)
      ∧ (good → flitAckt f = 0 → 1 ≤ p → p ≤ 4 → flitSeq f = l.expect → l.freedOf p < poolFlits p →
        let took := fun (l : LinkP) => { l with expect := (l.expect + 1) % 4096, sendAck := true, nak := false, awaiting := false, fails := 0 }
        let d1 := s.dev.modLink n (fun l => { took l with failPool0 := false })
        let d2 := d1.inc64 (Reg.lnkRxFlitsLo n) (Reg.lnkRxFlitsHi n) 1
        go = answer s ((if p = 2 then d2.announced n a else d2).bodyIn n p (flitBody f))))

/-- Freed buffers go back in one CREDIT packet, but for those of pool 3 that chunks still hold (R365); compact writes are acknowledged by count up to the first not done; a CREDIT packet
never raises a credit above the peer's buffer, a WRITE_ACK for a count lowers what is outstanding (R355 to R357). -/
def Parts.CreditsAndAcks : Prop :=
  ∀ (s : State) (n : Port) (pool : Fin 5) (cs : List Nat) (c q : Nat),
    let l := s.dev.link n
    let up := s.dev.flag (Reg.lnkStatus n) F.lnkStatusUp
    let w := Sparse.get (fun _ => []) l.cwIn pool
    let k := min 511 (w.takeWhile id).length
    let kept := min (l.freedOf 3) (s.dev.heldChunks n)
    let back := fun p => l.freedOf p - if p = 3 then kept else 0
    (up = true → (∃ p ∈ List.range 5, back p ≠ 0) → ∃ t, exec (.creditReturn n) s = .next t
      ∧ (t.dev.link n).freedOf 3 = kept ∧ (∀ p, p ≠ 3 → (t.dev.link n).freedOf p = 0)
      ∧ (t.dev.link n).tx = l.tx ++ [creditPkt ((List.range 5).map back)] ∧ (t.dev.link n).pools = l.pools)
    ∧ (up = false ∨ (∀ p ∈ List.range 5, back p = 0) → exec (.creditReturn n) s = answer s s.dev)
    ∧ (up = true → w.head? = some true → 0 < k ∧ exec (.compactAckRelease n pool) s
      = answer s ((s.dev.setLink n { l with cwIn := Sparse.set (fun _ => []) l.cwIn pool (w.drop k) }).linkPush n 2 (writeAckPkt pool k)))
    ∧ (w.head? ≠ some true → exec (.compactAckRelease n pool) s = answer s s.dev)
    ∧ (q < 5 → ((s.dev.packetIn n 7 (.credit cs)).link n).credit q = min (poolFlits q) (l.credit q + cs.getD q 0))
    ∧ (Sparse.get (fun _ => 0) ((s.dev.packetIn n 2 (.wack q c)).link n).cwOut q = Sparse.get (fun _ => 0) l.cwOut q - c)

/-- Tier 2. Flits sent and received, credits and acknowledgements. -/
def Obligations.FlitTransport : Prop := Parts.FlitsSent ∧ Parts.FlitsReceived ∧ Parts.CreditsAndAcks

/-- Training: a port with signal, eight good lanes, a reply and common modes comes up on eight lanes with lane 8 as its spare; each
failure leaves it down with its cause; a fast retrain resends what was not acknowledged; the retries of R366. -/
def Parts.LinkTraining : Prop :=
  ∀ (s : State) (n : Port) (t : Training) (fec level : Nat),
    let d := s.dev.settleStrikes n
    let full := exec (.fullTraining n t) s
    let fast := exec (.fastRetrain n t) s
    let st := s.dev.lnkState n
    let lanes := Reg.lnkLanes n
    (st = 2 ∨ st = 4 → full = answer s s.dev)
    ∧ (st ≠ 2 → st ≠ 4 → s.dev.mayTrain n = true →
      (t.signal = false → ∃ u, full = .next u ∧ u.dev.flag (Reg.lnkStatus n) F.lnkStatusUp = false
        ∧ u.dev.fld (Reg.lnkStatus n) F.lnkStatusDownCause = 1)
      ∧ (t.signal = true → 2 ≤ countLanes (orNat t.eqFailed.toNat (d.manifestLanes n)) → full = answer s (d.trainFails n 2))
      ∧ (t.signal = true → t.eqFailed = 0 → t.berFailed = 0 → d.manifestLanes n = 0 → t.skewOk = true → t.reply = false
        → full = answer s (d.trainFails n 8))
      ∧ (t.signal = true → t.eqFailed = 0 → t.berFailed = 0 → d.manifestLanes n = 0 → t.skewOk = true → t.reply = true →
        (d.meetPeer n t).fecMode n t = some fec → (d.meetPeer n t).linkLevel n t = some level → ∃ u, full = .next u
        ∧ u.dev.flag (Reg.lnkStatus n) F.lnkStatusUp = true ∧ u.dev.lnkState n = 2 ∧ u.dev.flag (Reg.lnkStatus n) F.lnkStatusSpareOk = true
        ∧ u.dev.fld lanes F.lnkLanesSpare = 8 ∧ u.dev.fld lanes F.lnkLanesFailed = 0 ∧ u.dev.fld lanes F.lnkLanesStruck = 0
        ∧ u.dev.link n = { LinkP.idle with strikes := (d.link n).strikes }))
    ∧ (st ≠ 3 → fast = answer s s.dev)
    ∧ (st = 3 → t.signal = true → t.skewOk = true → t.reply = true → (s.dev.fecMode n t).isSome = true → (s.dev.linkLevel n t).isSome = true
      → countLanes (orNat (orNat (s.dev.fld lanes F.lnkLanesFailed) (s.dev.fld lanes F.lnkLanesStruck)) t.berFailed.toNat) < 2 →
      ∃ u, fast = .next u ∧ u.dev.lnkState n = 2 ∧ (u.dev.link n).resend = (s.dev.link n).replay ∧ (u.dev.link n).replay = (s.dev.link n).replay)
    ∧ (st = 3 → t.signal = false → ∃ u, fast = .next u ∧ u.dev.lnkState n = 1 ∧ u.dev.flag (Reg.lnkStatus n) F.lnkStatusUp = false)
    ∧ (s.dev.mayTrain n = true → s.dev.flag (Reg.lnkStatus n) F.lnkStatusUp = false → s.dev.fld (Reg.lnkStatus n) F.lnkStatusDownCause = 1 →
      ∃ u, exec (.signalDetectRetry n) s = .next u ∧ u.dev.lnkState n = 1 ∧ ∀ i, i ≠ Reg.lnkStatus n → u.dev.reg i = s.dev.reg i)
    ∧ (st = 1 ∨ st = 3 → ∃ u, exec (.capabilityTimeout n) s = .next u ∧ u.dev.flag (Reg.lnkStatus n) F.lnkStatusUp = false
      ∧ u.dev.fld (Reg.lnkStatus n) F.lnkStatusDownCause = 8)

/-- The registers of a port: RETRAIN starts a full training, ENABLE 0 takes the port down with cause 7, WIDE is refused while a lane is
struck or failed (R366, R374, R489). -/
def Parts.LinkControls : Prop :=
  ∀ (s : State) (n : Port) (v : Word),
    let r := Reg.lnkStatus n
    let en := s.dev.flag (Reg.lnkCfg n) F.lnkCfgEnable
    let cfg := exec (.lnkCfgEnable .bosun n v) s
    let wide := exec (.lnkWide .bosun n v) s
    let lanes := Reg.lnkLanes n
    (s.dev.mayTrain n = true → ∃ t, exec (.lnkRetrain .bosun n) s = .next t ∧ t.dev.lnkState n = 1 ∧ t.dev.flag r F.lnkStatusUp = false
      ∧ t.dev.flag (Reg.lnkCtl n) F.lnkCtlRetrain = true)
    ∧ (s.dev.mayTrain n = false → exec (.lnkRetrain .bosun n) s = answer s s.dev)
    ∧ (en = true → v.getLsbD 0 = false → ∃ t, cfg = .next t ∧ t.dev.flag r F.lnkStatusUp = false ∧ t.dev.lnkState n = 5
      ∧ t.dev.fld r F.lnkStatusDownCause = 7 ∧ t.dev.flag (Reg.lnkCfg n) F.lnkCfgEnable = false)
    ∧ (en = false → v.getLsbD 0 = true → (s.dev.link n).edgeDead = false → ∃ t, cfg = .next t ∧ t.dev.lnkState n = 1
      ∧ t.dev.flag (Reg.lnkCfg n) F.lnkCfgEnable = true)
    ∧ (s.dev.lnkState n = 2 → v.getLsbD 1 = true → s.dev.fld lanes F.lnkLanesFailed = 0 → s.dev.fld lanes F.lnkLanesStruck = 0
      → s.dev.flag r F.lnkStatusSpareOk = true → ∃ t, wide = .next t ∧ t.dev.lnkState n = 4 ∧ t.dev.flag (Reg.lnkCtl n) F.lnkCtlWide = true)
    ∧ (s.dev.lnkState n = 2 → s.dev.fld lanes F.lnkLanesStruck ≠ 0 → ∃ t, wide = .next t ∧ t.dev.lnkState n = 2
      ∧ t.dev.flag (Reg.lnkCtl n) F.lnkCtlWide = false)

/-- Tier 2. Training and retraining of a port, and its control registers. -/
def Obligations.LinkTraining : Prop := Parts.LinkTraining ∧ Parts.LinkControls

/-- Tier 2. Calibration takes the active lanes in turn, and the idle spare after each pass; a lane below its margin is struck, and the spare
carries it from the swap on; a swap whose codewords do not agree is retried; a
lane that loses lock is failed at once, the spare takes over, and without a spare the port retrains (R369 to R374). -/
def Obligations.LaneHealth : Prop :=
  ∀ (s : State) (n : Port) (k : Lane) (mv ui : Byte) (ce : Half) (j : Nat),
    let d := s.dev
    let lanes := Reg.lnkLanes n
    let below := d.belowMargin n mv ce
    let cal := exec (.calibrationLane n mv ui ce) s
    let window := exec (.laneErrorWindow n k mv ce) s
    let lock := exec (.lossOfLock n k) s
    (d.lnkState n = 2 → d.flag (Reg.lnkCfg n) F.lnkCfgCalEn = true → d.spareOk n = true →
      (d.activeLanes n).find? (fun i => decide ((d.link n).calNext ≤ i)) = some j →
      (below = false → ∃ t, cal = .next t ∧ t.dev.reg (Reg.lnkMargin n j) = mv.toNat + ui.toNat * 2 ^ 8 + ce.toNat * 2 ^ 16
        ∧ t.dev.reg lanes = d.reg lanes ∧ t.dev.reg (Reg.lnkStatus n) = d.reg (Reg.lnkStatus n))
      ∧ (below = true → ∃ t, cal = .next t ∧ (t.dev.fld lanes F.lnkLanesStruck).testBit j = true ∧ t.dev.fld lanes F.lnkLanesCarries = j
        ∧ t.dev.spareOk n = false ∧ (t.dev.reg Reg.devReplace).testBit 4 = true))
    ∧ (d.lnkState n = 2 → d.flag (Reg.lnkCfg n) F.lnkCfgCalEn = true → d.spareOk n = true → (d.link n).calNext = 9 →
      d.fld lanes F.lnkLanesSpare < 9 → below = false → ∃ t, cal = .next t ∧ (t.dev.link n).calNext = 0 ∧ t.dev.reg lanes = d.reg lanes
        ∧ t.dev.reg (Reg.lnkMargin n (d.fld lanes F.lnkLanesSpare)) = mv.toNat + ui.toNat * 2 ^ 8 + ce.toNat * 2 ^ 16)
    ∧ (d.lnkState n = 2 → d.spareOk n = true → d.fld lanes F.lnkLanesSpare ≠ k.val →
      (∃ t, exec (.hitlessSwap n k true) s = .next t ∧ t.dev.fld lanes F.lnkLanesCarries = k.val ∧ t.dev.spareOk n = false
        ∧ (t.dev.link n).retry = none)
      ∧ (∃ t, exec (.hitlessSwap n k false) s = .next t ∧ (t.dev.link n).retry = some k.val ∧ ∀ i, t.dev.reg i = d.reg i))
    ∧ (d.lnkState n = 2 → d.spareOk n = true → (d.link n).retry = some k.val → ∃ t, exec (.swapRetry n true) s = .next t
      ∧ t.dev.fld lanes F.lnkLanesCarries = k.val ∧ (t.dev.link n).retry = none)
    ∧ ((d.link n).retry = none → exec (.swapRetry n true) s = answer s d)
    ∧ (d.carrying n = true → d.laneActive n k = true →
      (below = true → ∃ t, window = .next t ∧ (t.dev.fld lanes F.lnkLanesStruck).testBit k = true)
      ∧ (below = false → ∃ t, window = .next t ∧ t.dev.reg lanes = d.reg lanes ∧ t.dev.fld (Reg.lnkMargin n k) F.lnkMarginEyeMv = mv.toNat)
      ∧ (d.lnkState n = 2 → ∃ t, lock = .next t ∧ (t.dev.fld lanes F.lnkLanesFailed).testBit k = true
        ∧ (t.dev.link n).resend = (d.link n).replay ∧ t.dev.flag (Reg.lnkFault n) F.lnkFaultValid = true
        ∧ (d.spareOk n = true → t.dev.fld lanes F.lnkLanesCarries = k.val ∧ t.dev.lnkState n = 2)
        ∧ (d.spareOk n = false → t.dev.lnkState n = 3))
      ∧ (d.lnkState n = 4 → ∃ t, lock = .next t ∧ t.dev.lnkState n = 2 ∧ t.dev.spareOk n = false))
    ∧ (d.laneActive n k = false → window = answer s d ∧ lock = answer s d)

/-! ## The host port, rings, mailbox, interrupts and heartbeats (R377 to R389) -/

/-- Requests at the host port are answered while the port is up; tile stores and case memory are closed to the host but in debug with
scope bit 0, for reads, writes and atomics (R380, R427). -/
def Parts.HostPortRequests : Prop :=
  ∀ (s : State) (a n p x : Nat) (bs bytes : List Byte) (v : DWord) (q : HostReq) (d' : Dev),
    let d := s.dev
    let go := fun q => exec (.hostPortRequest q) s
    (d.flag Reg.hstStatus F.hstStatusUp = false → go q = answer s d)
    ∧ (d.flag Reg.hstStatus F.hstStatusUp = true →
      (inCtl a = false → d.hostMay a n = true → d.memRead .host a n = (d', some bytes) → go (.read a n) = answer s (d'.send (.hostData true bytes)))
      ∧ (inCtl a = false → d.hostMay a n = true → d.memRead .host a n = (d', none) → go (.read a n) = answer s (d'.send (.hostData false [])))
      ∧ (inCtl a = false → d.hostMay a bs.length = true → d.memWrite .host a bs = (d', true) → go (.write a bs) = answer s (d'.send (.hostData true [])))
      ∧ (inCtl a = false → d.hostMay a 8 = true → a % 8 = 0 → d.memGadd .host a 8 v = (d', some x) →
        go (.gadd a 8 v) = answer s (d'.send (.hostData true (toBytes 8 x))))
      ∧ (inCtl a = false → placeOf a n = .store p → d.debugOpen 0 = false → go (.read a n) = answer s (d.send (.hostData false [])))
      ∧ (inCtl a = false → placeOf a bs.length = .case_ p → d.debugOpen 0 = false → go (.write a bs) = answer s (d.send (.hostData false [])))
      ∧ (n ≠ 4 → inCtl a = true → go (.read a n) = answer s (d.send (.hostData false [])))
      ∧ (inCtl a = true → go (.gadd a n v) = answer s (d.send (.hostData false []))))

/-- A doorbell hands the ring's new entries to the bosun in order and advances HEAD; a tail beyond the ring is counted; GO takes the 16
staged words, or is counted while the mailbox is busy; waiting commands start in order (R382 to R384). -/
def Parts.RingsAndMailbox : Prop :=
  ∀ (s : State) (v : Word) (e : HostEntry) (rest : List HostEntry) (u : Verdict),
    let d := s.dev
    let bell := exec (.doorbell .host v) s
    let go := exec (.bosMbGo .host) s
    let tail := bitsAt v.toNat 0 12
    let bad := d.fld Reg.hstErr F.hstErrBadDoorbell
    let busy := d.fld Reg.hstErr F.hstErrMbBusy
    let ready := d.flag Reg.bosBootStatus F.bosBootStatusBosunReady
    (ready = false → bell = answer s d)
    ∧ (ready = true → d.cmdSize ≤ tail → ∃ t, bell = .next t ∧ t.dev.fld Reg.hstErr F.hstErrBadDoorbell = min 0xFFFF (bad + 1)
      ∧ t.dev.host = d.host)
    ∧ (ready = true → d.cmdSize ≤ 4096 → tail < d.cmdSize → d.clearing = false → d.cmdPending tail = 1 → d.cmdPending d.cmdTail = 0 →
      d.eccFirst (d.cmdBase + 64 * d.cmdHead) 64 = none → ∃ t, bell = .next t
        ∧ t.dev.host.waiting = d.host.waiting ++ [entryOf .ring d.cmdHead (d.bytes (d.cmdBase + 64 * d.cmdHead) 64)]
        ∧ t.dev.cmdTail = tail ∧ t.dev.cmdHead = (d.cmdHead + 1) % d.cmdSize)
    ∧ (d.flag Reg.bosMbStatus F.bosMbStatusBusy = true → ∃ t, go = .next t ∧ t.dev.fld Reg.hstErr F.hstErrMbBusy = min 0xFFFF (busy + 1)
      ∧ t.dev.host = d.host)
    ∧ (d.flag Reg.bosMbStatus F.bosMbStatusBusy = false → ready = true → ∃ t, go = .next t
      ∧ t.dev.host.mbWaiting = some (entryOf .mailbox 0 ((List.range 16).map (fun i => toBytes 4 (d.reg (Reg.bosMbCmd i)))).flatten)
      ∧ t.dev.flag Reg.bosMbStatus F.bosMbStatusBusy = true ∧ t.dev.flag Reg.bosMbStatus F.bosMbStatusDone = false)
    ∧ (ready = true → d.host.mbWaiting = none → d.host.cur = none → d.host.waiting = e :: rest → d.clearing = false →
      exec (.ringCommandDispatch u) s = answer s ({ d with host := { d.host with waiting := rest } }.runCmd e u))
    ∧ (ready = true → d.host.mbWaiting = some e → d.host.mbCur = none →
      exec (.ringCommandDispatch u) s = answer s ({ d with host := { d.host with mbWaiting := none } }.runCmd e u))
    ∧ (d.host.mbWaiting = none → d.host.waiting = [] → exec (.ringCommandDispatch u) s = answer s d)

/-- Completions: a pending LOAD, START, RESUME or HOSTMSG completes when its condition holds; the step CT's entries go to the ring and
end the HOSTMSG they name; merged interrupts go out at the end of the holdoff (R385, R386, R389, R390). -/
def Parts.Completions : Prop :=
  ∀ (s : State) (m : Master) (e : HostEntry) (u : Verdict) (v : Fin 4),
    let d := s.dev
    let done := exec (.commandComplete u) s
    let staged := (List.range 8).map (fun i => w32 (d.reg (Reg.hstCplStage i)))
    let push := exec (.cplPush m) s
    (d.host.mbCur = none → d.host.cur = none → done = answer s d)
    ∧ (d.host.mbCur = some e → e.opcode = 0x10 → d.jst = JobSt.loading → done = answer s (d.loaded.finish e 0 0 []))
    ∧ (d.host.mbCur = some e → e.opcode = 0x11 → d.jst = JobSt.running → d.hal.first = false → done = answer s (d.finish e 0 0 [] d.step))
    ∧ (d.host.mbCur = some e → e.opcode = 0x11 → d.jst = JobSt.failed → done = answer s (d.finish e 6 0 [] d.step))
    ∧ (d.host.mbCur = none → d.host.cur = some e → e.opcode = 0x15 → d.jst = JobSt.failed → done = answer s (d.finish e 6 0 []))
    ∧ (d.host.mbCur = none → d.host.cur = some e → e.opcode = 0x15 → d.jst ≠ JobSt.failed → done = answer s d)
    ∧ (∀ q op st res, q.src = CmdSrc.mailbox → ∀ i, i < 8 → (d.complete q op st 0 res).reg (Reg.bosMbRsp i)
      = ((cplWords op st q.tag noStep 0 res).getD i 0).toNat)
    ∧ (Dev.maySet m Reg.hstCplPush = true → d.host.cur = none → d.host.mbCur = none → push = answer s (d.pushCpl staged false))
    ∧ (Dev.maySet m Reg.hstCplPush = true → d.host.cur = some e → endsMsg staged e = true → d.host.mbCur = none → ∃ t, push = .next t
      ∧ t.dev.host.cur = none)
    ∧ (Dev.maySet m Reg.hstCplPush = false → push = answer s d)
    ∧ (d.host.holdoff.any (fun e => e.1 == v.val && e.2) = true → exec (.irqHoldoffEnd v) s
      = answer s ({ d with host := { d.host with holdoff := Sparse.erase d.host.holdoff v } }.irq v))
    ∧ (d.host.holdoff.any (fun e => e.1 == v.val && e.2) = false → ∃ t, exec (.irqHoldoffEnd v) s = .next t ∧ t.dev.out = d.out
      ∧ t.dev.host.holdoff = Sparse.erase d.host.holdoff v)

/-- Tier 2. The command ring, the mailbox, the order of commands and their completions. -/
def Obligations.HostQueues : Prop := Parts.RingsAndMailbox ∧ Parts.Completions

/-- Heartbeats: a host's clears the misses; the third missed window, or a full ring for 30 ms, is the loss of the host, which holds a
running job at its step; the device's carries its count and the job state (R385, R387, R402). -/
def Parts.Heartbeats : Prop :=
  ∀ (s : State) (v : Word),
    let d := s.dev
    let r := Reg.hstStatus
    let win := exec .heartbeatWindow s
    let full := exec .cplRingFullTimeout s
    let a := d.reg64 Reg.hstHbAddrLo Reg.hstHbAddrHi
    (∃ t, exec (.hstHb .host v) s = .next t ∧ t.dev.flag r F.hstStatusHbActive = true ∧ t.dev.fld r F.hstStatusMisses = 0
      ∧ t.dev.fld Reg.hstHbCount F.hstHbCountReceived = (d.fld Reg.hstHbCount F.hstHbCountReceived + 1) % 2 ^ 16)
    ∧ (d.flag r F.hstStatusHbActive = false → win = answer s d)
    ∧ (d.flag r F.hstStatusHbActive = true → d.fld r F.hstStatusMisses < 2 → ∃ t, win = .next t
      ∧ t.dev.fld r F.hstStatusMisses = d.fld r F.hstStatusMisses + 1 ∧ t.dev.host = d.host ∧ t.dev.jst = d.jst)
    ∧ (d.flag r F.hstStatusHbActive = true → d.fld r F.hstStatusMisses = 2 → ∃ t, win = .next t ∧ t.dev.flag r F.hstStatusHostLost = true
      ∧ (d.flag r F.hstStatusHostLost = false → d.jst = JobSt.running → d.step ≠ noStep → t.dev.hal.heldStep = some d.step))
    ∧ (d.cplFull = true → d.host.cplWait ≠ [] → ∃ t, full = .next t ∧ t.dev.flag r F.hstStatusHostLost = true)
    ∧ (d.cplFull = false → full = answer s d)
    ∧ (d.flag r F.hstStatusUp = true → a ≠ 0 → ∃ t, exec .deviceHeartbeat s = .next t ∧ t.dev.out = d.out ++ [.hostWrite a
      (toBytes 8 ((d.fld Reg.hstHbCount F.hstHbCountSent + 1) % 2 ^ 16 + d.jst * 2 ^ 32))])
    ∧ (a = 0 → exec .deviceHeartbeat s = answer s d)

/-- Tier 2. Requests at the host port, and heartbeats. -/
def Obligations.HostPortAndHeartbeats : Prop := Parts.HostPortRequests ∧ Parts.Heartbeats

/-! ## Host commands (R390 to R403) -/

/-- NOP and the queries complete with DONE and their results; they never wait. Verification of nothing found shows no step. -/
def Parts.QueryCommands : Prop :=
  ∀ (s : State) (q : CmdHdr),
    let d := s.dev
    let fin := fun op res => answer s (d.finish (hostCmd q op []) 0 0 res)
    (d.flag Reg.bosBootStatus F.bosBootStatusBosunReady = true →
      exec (.nop q) s = fin 0x01 []
      ∧ exec (.status q) s = fin 0x02 [w32 (d.reg Reg.hstJob), d.step, w32 (d.reg Reg.pressProofJobstep), w32 (d.reg Reg.hstStatus)]
      ∧ (d.hasSlots = false → d.mirrorHeld = none →
        exec (.proofQuery q) s = fin 0x20 [noStep, noStep, noStep, noStep])
      ∧ exec (.selftestStatus q) s = fin 0x31 [w32 (d.reg Reg.bosBistStatus), w32 (d.reg Reg.bosBistFails), w32 (d.reg Reg.bosBistFirst)]
      ∧ (∃ r, exec (.logInfo q) s = fin 0x34 r ∧ r.getD 2 0 = w32 d.bos.pinned.length)
      ∧ exec (.replaceStatus q) s = fin 0x36 [w32 (d.reg Reg.devReplace), w32 d.health]
      ∧ (d.jst ≠ JobSt.boot → ∃ r, exec (.fwInfo q) s = fin 0x40 r ∧ r.getD 0 0 = d.bos.fwA.version ∧ r.getD 1 0 = d.bos.fwB.version)
      ∧ (d.jst = JobSt.boot → exec (.fwInfo q) s = answer s (d.wrongState (hostCmd q 0x40 []))))
    ∧ (d.flag Reg.bosBootStatus F.bosBootStatusBosunReady = false → exec (.nop q) s = answer s d)
    ∧ (q.src = .mailbox → ∃ t, exec (.nop q) s = .next t ∧ (d.flag Reg.bosBootStatus F.bosBootStatusBosunReady = true →
      t.dev.reg (Reg.bosMbRsp 0) = 1 ∧ t.dev.reg (Reg.bosMbRsp 1) = q.tag.toNat ∧ t.dev.flag Reg.bosMbStatus F.bosMbStatusDone = true
      ∧ t.dev.flag Reg.bosMbStatus F.bosMbStatusBusy = false))

/-- LOAD and START: in IDLE a LOAD goes through its checks and waits for LOADED, or is refused with its detail; in another state it is
refused with 0x02, and in CLEARING one from the mailbox waits; START is taken in LOADED alone. -/
def Parts.LoadAndStart : Prop :=
  ∀ (s : State) (q : CmdHdr) (addr bytes : DWord) (token : BitVec 256) (retain : Bool) (v : Verdict) (step : Word) (source : Byte) (w : HostEntry),
    let d := s.dev
    let a := toBytes 8 addr.toNat ++ toBytes 8 bytes.toNat ++ toBytes 32 token.toNat ++ toBytes 1 (b2n retain)
    let e := hostCmd q 0x10 a
    let f := hostCmd q 0x11 (toBytes 4 step.toNat ++ [source])
    let load := exec (.load q addr bytes token retain v) s
    let start := exec (.start q step source v) s
    let pending := exec (.pendingLoadStart v) s
    (d.takes q → d.jst = JobSt.idle → load = answer s (match d.load addr.toNat bytes.toNat (toBytes 32 token.toNat) retain v with
      | (d1, some c) => d1.finish e 1 c []
      | (d1, none) => d1.pend e))
    ∧ (d.takes q → d.jst = JobSt.running → load = answer s (d.finish e 2 0 []))
    ∧ (d.takes q → d.jst = JobSt.clearing → q.src = .mailbox → ∃ t, load = .next t ∧ t.dev.host.loadWait = some e ∧ t.dev.host.mbCur = some e
      ∧ t.dev.jst = JobSt.clearing)
    ∧ (d.takes q → d.jst = JobSt.loaded → d.mayStart = true → start = answer s (match formeTables d (sectionsOf d d.job.formeAddr) with
      | none => d.finish f 1 6 []
      | some t => match d.startRefusal t source.toNat step with
        | some c => d.finish f 1 c (d.refusalResult c)
        | none => (d.pend f).startJob t f source.toNat step))
    ∧ (d.takes q → d.jst ≠ JobSt.loaded → start = answer s (d.finish f 2 0 []))
    ∧ (d.host.loadWait = none → pending = answer s d)
    ∧ (d.host.loadWait = some w → d.jst = JobSt.idle → pending = answer s ({ d with host := { d.host with loadWait := none } }.loadCmd w v))

/-- The ends of a job: END of a job that does not run clears at once, END of one that runs drains to its last step; KILL supersedes
every unfinished command and clears; a kill notice fails the job with cause 3. -/
def Parts.EndAndKill : Prop :=
  ∀ (s : State) (q : CmdHdr) (last : Word) (dev : BitVec 12),
    let d := s.dev
    let e := hostCmd q 0x12 (toBytes 4 last.toNat)
    let k := hostCmd q 0x13 []
    let end_ := exec (.endJob q last) s
    let kill := exec (.kill q) s
    let st := d.jst
    let ready := d.flag Reg.bosBootStatus F.bosBootStatusBosunReady
    (d.takes q → d.pwr.stopped = false → st = JobSt.loaded ∨ st = JobSt.held ∨ st = JobSt.failed → ∃ t, end_ = .next t
      ∧ t.dev.jst = JobSt.clearing ∧ t.dev.bos.endReq = some e ∧ t.dev.chunks = [])
    ∧ (d.takes q → d.pwr.stopped = false → st = JobSt.running → d.press.recWait = true → d.hal.lastStep = none → ∃ t, end_ = .next t
      ∧ t.dev.jst = JobSt.draining ∧ t.dev.hal.lastStep = some (d.lastFor last) ∧ t.dev.bos.endReq = some e)
    ∧ (d.takes q → st = JobSt.idle → end_ = answer s (d.finish e 2 0 []))
    ∧ (st = JobSt.loaded ∨ st = JobSt.held ∨ st = JobSt.failed → ∃ t, exec (.endEvent last) s = .next t ∧ t.dev.jst = JobSt.clearing
      ∧ t.dev.bos.endReq = d.bos.endReq)
    ∧ (st = JobSt.idle → exec (.endEvent last) s = answer s d)
    ∧ (ready = true → d.pwr.stopped = false → st = JobSt.loaded ∨ st = JobSt.running ∨ st = JobSt.held ∨ st = JobSt.draining ∨ st = JobSt.failed →
      ∃ t, kill = .next t ∧ t.dev.jst = JobSt.clearing ∧ t.dev.bos.endReq = some k ∧ t.dev.host.waiting = [] ∧ t.dev.host.cur = none
      ∧ t.dev.host.mbCur = none)
    ∧ (ready = true → d.pwr.stopped = false → st = JobSt.clearing → ∃ t, kill = .next t ∧ t.dev.jst = JobSt.clearing
      ∧ t.dev.bos.endReq = some k ∧ t.dev.host.waiting = [])
    ∧ (ready = true → st = JobSt.idle → kill = answer s (d.finish k 2 0 []))
    ∧ (st = JobSt.running → ∃ t, exec (.killNotice dev) s = .next t ∧ t.dev.jst = JobSt.failed ∧ t.dev.fld Reg.hstJob F.hstJobEndCause = 3)
    ∧ (st = JobSt.idle → exec (.killNotice dev) s = answer s d)

/-- Tier 2. LOAD, START, END and KILL. -/
def Obligations.JobCommands : Prop := Parts.LoadAndStart ∧ Parts.EndAndKill

/-- The hold of a job whose host is lost, and its return: RESUME on the device that lost it, RESUME_EVENT on the others; a word that
comes too late holds at the highest step released here; HOSTMSG goes to the step CT. -/
def Parts.HoldAndResume : Prop :=
  ∀ (s : State) (q : CmdHdr) (dev : BitVec 12) (h : Word) (body : List Byte),
    let d := s.dev
    let e := hostCmd q 0x14 []
    let m := hostCmd q 0x15 body
    let resume := exec (.resume q) s
    let held := exec (.heldEvent dev h) s
    let again := exec .resumeEvent s
    let msg := exec (.hostmsg q body) s
    let lost := d.flag Reg.hstStatus F.hstStatusHostLost
    (d.takes q → d.jst = JobSt.held → lost = true → d.hal.heldDev.toNat = d.ownDev → d.host.beatSinceLost = true → ∃ t, resume = .next t
      ∧ t.dev.jst = JobSt.running ∧ t.dev.flag Reg.hstStatus F.hstStatusHostLost = false ∧ t.dev.hal.heldStep = none)
    ∧ (d.takes q → d.jst ≠ JobSt.held ∨ lost = false ∨ d.hal.heldDev.toNat ≠ d.ownDev ∨ d.host.beatSinceLost = false →
      resume = answer s (d.finish e 2 0 []))
    ∧ (d.jst = JobSt.running → ∃ t, held = .next t ∧ t.dev.hal.heldDev = dev
      ∧ t.dev.hal.heldStep = some (if d.step ≠ noStep ∧ h.toNat < d.step.toNat then d.step else h))
    ∧ (d.jst ≠ JobSt.running → held = answer s d)
    ∧ (d.jst = JobSt.held → ∃ t, again = .next t ∧ t.dev.jst = JobSt.running ∧ t.dev.hal.heldStep = none)
    ∧ (d.jst = JobSt.running → ∃ t, again = .next t ∧ t.dev.jst = JobSt.running ∧ t.dev.hal.heldStep = none)
    ∧ (d.takes q → body.length ≤ 56 → d.jst = JobSt.running ∨ d.jst = JobSt.held →
      msg = answer s ((d.pend m).hostEvent (eventWord 1 q.idx 0)))
    ∧ (d.takes q → body.length ≤ 56 → d.jst = JobSt.idle → msg = answer s (d.finish m 2 0 []))
    ∧ (d.takes q → 56 < body.length → msg = answer s (d.finish m 3 0 []))

/-- Tier 2. Query commands, the hold of a job whose host is lost, and its return. -/
def Obligations.QueriesAndHolds : Prop := Parts.QueryCommands ∧ Parts.HoldAndResume

/-- The clear of a job boundary: the memories but for the retained range, the job and its tiles go; the state after it is IDLE, or DEBUG;
repairs come one page at a time behind it. -/
def Parts.JobClears : Prop :=
  ∀ (s : State) (o : ClearOut) (c : Ctl) (page : Nat) (rest : List Nat),
    let d := s.dev
    let clears := exec (.clearsComplete o) s
    let repair := exec (.holdRepairComplete c) s
    (d.jst = JobSt.clearing → d.flag (Reg.holdStatus 0) F.holdStatusClearing = true → clears = answer s (d.clearsDone o))
    ∧ (d.jst ≠ JobSt.clearing → clears = answer s d)
    ∧ (∀ a, d.clearAll.byte a = if inHold a && d.inRetained a then d.byte a else 0)
    ∧ d.clearAll.job = Job.none ∧ d.clearAll.tiles = [] ∧ d.clearAll.host.waiting = [] ∧ d.clearAll.chunks = []
    ∧ d.clearAll.flag (Reg.holdStatus 0) F.holdStatusClearing = false
    ∧ (d.endClear.jst = if d.flag Reg.bosSec F.bosSecDebug || d.bos.debugClear then JobSt.debug else JobSt.idle)
    ∧ (d.jst = JobSt.clearing → d.flag (Reg.holdStatus 0) F.holdStatusClearing = false → (d.ctl c).retire = page :: rest → ∃ t, repair = .next t
      ∧ (t.dev.ctl c).retire = rest)
    ∧ ((d.ctl c).retire = [] → repair = answer s d)

/-- PROOF_EXPORT in IDLE with the recorded token sends the newest record, its slot and the mirror's head, with another token it is refused
with 0x05; a mirror's image that fits goes on with the START, another leaves the job LOADED (R337, R341). -/
def Parts.ProofMovement : Prop :=
  ∀ (s : State) (q : CmdHdr) (addr : DWord) (token : BitVec 256) (e : HostEntry) (rec_ hdr : List Byte),
    let d := s.dev
    let x := hostCmd q 0x21 (toBytes 8 addr.toNat ++ List.replicate 8 0 ++ toBytes 32 token.toNat)
    let go := exec (.proofExport q addr token) s
    let mine := d.bos.retained.any (fun r => r.digest == Config.sha512 (toBytes 32 token.toNat))
    let back := exec (.mirrorRestoreComplete rec_ hdr) s
    (d.takes q → d.jst ≠ JobSt.idle → go = answer s (d.finish x 2 0 []))
    ∧ (d.takes q → d.jst = JobSt.idle → mine = false → go = answer s (d.finish x 5 0 []))
    ∧ (d.takes q → d.jst = JobSt.idle → mine = true → ∃ d' : Dev, go = answer s (match d.offerL with
      | none => d.finish x 1 0xA []
      | some _ => d'.finish x 0 0 [])
      ∧ (∀ b, d.offerL = some b → d'.out.take (d.out.length + 1) = d.out ++ [.exportData addr.toNat b] ∧ ∀ i, d'.byte i = d.byte i))
    ∧ (d.host.stStart = none → back = answer s d)
    ∧ (d.host.stStart = some e → d.jst = JobSt.running → back = answer s (if d.mirrorFits e rec_ hdr then d.mirrorIn e rec_ hdr
      else d.unstart.finish e 1 0xA []))
    ∧ (d.host.stStart = some e → d.jst = JobSt.running → d.mirrorFits e rec_ hdr = false → ∃ t, back = .next t ∧ t.dev.jst = JobSt.loaded
      ∧ t.dev.host.stStart = none)

/-- Tier 2. The clear of a job boundary, repairs, and the movement of a proof. -/
def Obligations.JobBoundary : Prop := Parts.JobClears ∧ Parts.ProofMovement

/-! ## Firmware, owner, debug, tests, reads (R404 to R454) -/

/-- Firmware: an image that does not verify leaves slot B invalid; activation makes slot A invalid until the copy is verified; a warm
reset keeps the hold and the logbook; in ROM recovery an update boots again. -/
def Parts.FirmwareCommands : Prop :=
  ∀ (s : State) (q : CmdHdr) (buf : DWord) (off n : Word) (v : Verdict) (raise : Bool) (img : FwImage) (b : BootIn),
    let d := s.dev
    let w := hostCmd q 0x41 (toBytes 8 buf.toNat ++ toBytes 4 off.toNat ++ toBytes 4 n.toNat)
    let f := hostCmd q 0x42 []
    let a := hostCmd q 0x43 (toBytes 1 (b2n raise))
    let r := hostCmd q 0x44 []
    let m := hostCmd q 0x48 (toBytes 8 buf.toNat ++ toBytes 4 n.toNat)
    (d.takes q → d.jst ≠ JobSt.boot →
      (off.toNat % 4096 ≠ 0 ∨ 2 ^ 20 < n.toNat ∨ slotBytes < off.toNat + n.toNat → exec (.fwWrite q buf off n) s = answer s (d.finish w 3 0 []))
      ∧ (∀ d1 bs, off.toNat % 4096 = 0 → n.toNat ≤ 2 ^ 20 → off.toNat + n.toNat ≤ slotBytes → d.bufRead buf.toNat n.toNat = (d1, some bs) → ∃ t,
        exec (.fwWrite q buf off n) s = .next t ∧ t.dev.bos.fwB.sound = false
        ∧ ∀ i, i < bs.length → Sparse.get (fun _ => 0xFF#8) t.dev.bos.slotB (off.toNat + i) = bs.getD i 0)
      ∧ exec (.fwVerify q v) s = answer s (if (d.verifyB v).bValid then (d.verifyB v).finish f 0 0 [] else (d.verifyB v).finish f 1 8 [])
      ∧ ((d.verifyB v).bValid = true → ∃ t, exec (.fwActivate q raise v) s = .next t ∧ t.dev.bos.fwA.sound = false
        ∧ (t.dev.host.cur = some a ∨ t.dev.host.mbCur = some a))
      ∧ ((d.verifyB v).bValid = false → exec (.fwActivate q raise v) s = answer s ((d.verifyB v).finish a 1 8 []))
      ∧ exec (.manifestRead q buf n) s = answer s (d.writeOut m buf.toNat ((Config.manifestBytes d.bos.man.appends).take n.toNat) [])
      ∧ ∀ d1, d.bufWrite buf.toNat ((Config.manifestBytes d.bos.man.appends).take n.toNat) = (d1, true) →
        exec (.manifestRead q buf n) s = answer s (d1.finish m 0 0 []))
    ∧ (v.sigOk = false ∨ v.digestOk = false → (d.verifyB v).bValid = false)
    ∧ (d.takes q → d.jst = JobSt.idle ∨ d.jst = JobSt.failed → ∃ t, exec (.warmReset q) s = .next t ∧ t.dev.bos.log = d.bos.log
      ∧ t.dev.flag Reg.bosBootStatus F.bosBootStatusBosunReady = false ∧ (∀ i, t.dev.byte i = if inHold i then d.byte i else 0)
      ∧ t.dev.jst = JobSt.boot ∧ t.dev.host.waiting = [])
    ∧ (d.takes q → d.jst = JobSt.running → exec (.warmReset q) s = answer s (d.finish r 2 0 []))
    ∧ (d.bos.recovery = false → exec (.pldmFirmwareUpdate img b) s = answer s d)
    ∧ (d.bos.recovery = true → fwValid d.bos.fwA d.bos.man.minSvn = false → fwValid img d.bos.man.minSvn = true → b.manifestOk = true →
      b.steppingOk = true → d.bos.man.stepping.toNat = d.fld Reg.devIdent F.devIdentStepping → b.railsOk = true → b.boundsOk = true → ∃ t, exec (.pldmFirmwareUpdate img b) s = .next t ∧ t.dev.jst = JobSt.idle
      ∧ t.dev.fld Reg.bosBootStatus F.bosBootStatusStage = 0xF)

/-- Owner and debug: enrolment in IDLE with a sound object, and over an owner only with its signature over the nonce; release likewise; a
nonce is fresh and expires; debug opens only with an authorisation that verifies, and its end clears. -/
def Parts.OwnerAndDebug : Prop :=
  ∀ (s : State) (q : CmdHdr) (buf : DWord) (v : Verdict) (d1 : Dev) (b : List Byte),
    let d := s.dev
    let e := fun op => hostCmd q op (toBytes 8 buf.toNat)
    let enrol := exec (.ownerEnrol q buf v) s
    let release := exec (.ownerRelease q buf v) s
    let nonce := exec (.debugNonce q buf) s
    let open_ := exec (.debugOpen q buf v) s
    let close := exec (.debugClose q) s
    let dbg := d.flag Reg.bosSec F.bosSecDebug
    (d.takes q →
      (d.jst ≠ JobSt.idle → enrol = answer s (d.finish (e 0x52) 2 0 []) ∧ release = answer s (d.finish (e 0x53) 2 0 []))
      ∧ (d.jst = JobSt.idle → d.bufRead buf.toNat requestBytes = (d1, some b) →
        (v.digestOk = true → d1.bos.man.owner = none ∨ (d1.bos.nonce.isSome = true ∧ v.sigOk = true) → ∃ t, enrol = .next t
          ∧ t.dev.bos.man.owner = some (Config.enrolKey b) ∧ t.dev.flag Reg.bosSec F.bosSecOwner = true)
        ∧ (v.digestOk = false → enrol = answer s (d1.finish (e 0x52) 1 8 []))
        ∧ (v.sigOk = true → d1.bos.nonce.isSome = true → ∃ t, release = .next t ∧ t.dev.bos.man.owner = none
          ∧ t.dev.flag Reg.bosSec F.bosSecOwner = false)
        ∧ (v.sigOk = false → release = answer s (d1.finish (e 0x53) 1 8 [])))
      ∧ (d.jst = JobSt.idle ∨ d.jst = JobSt.running → ∃ t, nonce = .next t ∧ t.dev.bos.nonce = some (Config.free (d.freeCtr + 1) ++ Config.free d.freeCtr)
        ∧ (d.ecc = [] → t.dev.freeCtr = d.freeCtr + 2))
      ∧ (d.jst = JobSt.idle → dbg = false → d.pwr.stopped = false → d.bufRead buf.toNat 576 = (d1, some b) →
        (d1.authOk b v.sigOk = true → d1.jst = JobSt.idle → ∃ t, open_ = .next t ∧ t.dev.jst = JobSt.clearing ∧ t.dev.bos.debugClear = true
          ∧ t.dev.bos.debugScope = natAt b 28 1 ∧ t.dev.bos.nonce = none)
        ∧ (d1.authOk b v.sigOk = false → open_ = answer s ((d1.useNonce (natAt b 12 16)).finish (e 0x59) 1 8 [])))
      ∧ (dbg = true → open_ = answer s (d.finish (e 0x59) 2 0 []))
      ∧ (d.jst = JobSt.debug → ∃ t, close = .next t ∧ t.dev.jst = JobSt.clearing ∧ t.dev.flag Reg.bosSec F.bosSecDebug = false)
      ∧ (d.jst ≠ JobSt.debug → close = answer s (d.finish (hostCmd q 0x5A []) 2 0 [])))
    ∧ (d.authOk b false = false)
    ∧ (∃ t, exec .nonceExpiry s = .next t ∧ t.dev.bos.nonce = none ∧ t.dev.flag Reg.bosSec F.bosSecNonceValid = false)

/-- Tier 2. Firmware, owner and debug commands. -/
def Obligations.FirmwareAndOwner : Prop := Parts.FirmwareCommands ∧ Parts.OwnerAndDebug

/-- SPDM, over the host's buffers and over the SMBus, answers from the measurements that depend on the state; the health state of the
PLDM sensor lies from 1 to 4; the reads of the logbook and the ages write to the host's buffer (R419, R420, R449, R454). -/
def Parts.AttestationAndReads : Prop :=
  ∀ (s : State) (q : CmdHdr) (req : List Byte) (buf resp first : DWord) (n : Word) (d1 d2 : Dev),
    let d := s.dev
    let pins := fun x : LogEntry => d.bos.pinned.any (fun p => p.seq == x.seq)
    let ents := ((d.bos.log.filter (fun x => decide (first.toNat ≤ x.seq))).map (fun x => x.bytes (pins x))
      ++ (d.bos.pinned.filter (fun x => decide (first.toNat ≤ x.seq))).map (fun x => x.bytes true)).take n.toNat
    let ages := (islandsAged.flatMap (fun i => toBytes 4 (d.setReg Reg.devAgeSel i).ageData ++ toBytes 4 (d.reg Reg.devAgeWorst)))
    let c := hostCmd q 0x50 (toBytes 8 buf.toNat ++ toBytes 4 n.toNat ++ toBytes 8 resp.toNat)
    let l := hostCmd q 0x35 (toBytes 8 buf.toNat ++ toBytes 8 first.toNat ++ toBytes 4 n.toNat)
    let up := d.flag Reg.bosBootStatus F.bosBootStatusBosunReady
    let ans := answer s (d.send (.spdm (Config.spdmResponse req d.measures)))
    (up = true → exec (.getVersion req) s = ans ∧ exec (.getCapabilities req) s = ans ∧ exec (.negotiateAlgorithms req) s = ans
      ∧ exec (.getDigests req) s = ans ∧ exec (.getCertificate req) s = ans ∧ exec (.challenge req) s = ans
      ∧ exec (.getMeasurements req) s = ans)
    ∧ (up = false → exec (.getVersion req) s = answer s d ∧ exec (.getCapabilities req) s = answer s d
      ∧ exec (.negotiateAlgorithms req) s = answer s d ∧ exec (.getDigests req) s = answer s d
      ∧ exec (.getCertificate req) s = answer s d ∧ exec (.challenge req) s = answer s d
      ∧ exec (.getMeasurements req) s = answer s d)
    ∧ (up = true ∨ d.bos.halted = true → exec .pldmStateSensorRead s = answer s (d.send (.pldmState d.health)))
    ∧ (1 ≤ d.health ∧ d.health ≤ 4 ∧ (d.bos.halted = true → d.health = 4) ∧ (d.bos.halted = false → d.jst = JobSt.failed → d.health = 3))
    ∧ (d.takes q →
      (d.jst ≠ JobSt.boot → d.bufRead buf.toNat n.toNat = (d1, some req) → exec (.spdm q buf n resp) s
        = answer s (d1.writeOut c resp.toNat (Config.spdmResponse req d1.measures) []))
      ∧ (d.jst ≠ JobSt.boot → d.bufRead buf.toNat n.toNat = (d1, some req) →
        d1.bufWrite resp.toNat (Config.spdmResponse req d1.measures) = (d2, true) → exec (.spdm q buf n resp) s = answer s (d2.finish c 0 0 []))
      ∧ (65536 < n.toNat → exec (.logRead q buf first n) s = answer s (d.finish l 3 0 []))
      ∧ (n.toNat ≤ 65536 → d.bufWrite buf.toNat ents.flatten = (d1, true) → exec (.logRead q buf first n) s
        = answer s (d1.finish l 0 0 [w32 ents.length]))
      ∧ (d.bufWrite buf.toNat ages = (d1, true) → exec (.ageRead q buf) s = answer s (d1.finish (hostCmd q 0x37 (toBytes 8 buf.toNat)) 0 0 []))
      ∧ (d.bufWrite buf.toNat ages = (d1, false) → exec (.ageRead q buf) s = answer s (d1.finish (hostCmd q 0x37 (toBytes 8 buf.toNat)) 3 0 []))
      ∧ ages.length = 75 * 8)

/-- Self-test: it runs, waits in the queue of eight, or is refused; its end shows the result; the spare's rounds take eight yards, or are
deferred; a slot is an idle spare again after its test; the ages keep the smallest slack (R444, R450, R451). -/
def Parts.SelfTests : Prop :=
  ∀ (s : State) (q : CmdHdr) (scope index : Byte) (i p : Nat) (y : Yard) (pass : Bool) (slack : List (BitVec 8)) (pages : List Nat),
    let d := s.dev
    let e := hostCmd q 0x30 [scope, index]
    let t0 := (scope.toNat, index.toNat)
    let go := exec (.selftest q scope index) s
    let round := exec .spareTestRound s
    let under := d.bos.spare.find? (fun x => x / 24 == y.val)
    (d.takes q →
      (d.jst = JobSt.boot ∨ d.jst = JobSt.clearing → go = answer s (d.finish e 2 0 []))
      ∧ (d.jst = JobSt.idle → testExists scope.toNat index.toNat = false → go = answer s (d.finish e 3 0 []))
      ∧ (d.jst = JobSt.idle → testExists scope.toNat index.toNat = true → d.bos.btCur = none → ∃ t, go = .next t
        ∧ t.dev.bos.btCur = some (scope.toNat, index.toNat, some e) ∧ t.dev.fld Reg.bosBistStatus F.bosBistStatusState = 1)
      ∧ (d.jst = JobSt.running → testExists scope.toNat index.toNat = true → scope.toNat = 3 → d.bos.btq.length < 8 → ∃ t, go = .next t
        ∧ t.dev.bos.btq = d.bos.btq ++ [t0] ∧ t.dev.bos.btCur = d.bos.btCur)
      ∧ (d.jst = JobSt.running → testExists scope.toNat index.toNat = true → scope.toNat = 3 → 8 ≤ d.bos.btq.length → go = answer s (d.finish e 1 0 [])))
    ∧ (d.bos.btCur = none → exec (.selftestComplete [] pages) s = answer s d)
    ∧ (∀ sc fails, d.bos.btCur = some (sc, i, none) → d.jobLoaded = true → exec (.selftestComplete fails pages) s
      = answer s (({ d with bos := { d.bos with btCur := none } }.testDone (sc, i) fails pages).showTests))
    ∧ (d.bos.btCur = some (2, i, none) → ∃ t, exec (.selftestComplete [] pages) s = .next t ∧ t.dev.bos.btCur = none
      ∧ t.dev.flag Reg.bosBistStatus F.bosBistStatusLastPass = true ∧ t.dev.fld Reg.bosBistFails F.bosBistFailsFailed = 0)
    ∧ (d.jst = JobSt.idle → d.bos.spare = [] →
      (d.testDeferred = true → ∃ t, round = .next t ∧ t.dev.flag Reg.bosSpareTest F.bosSpareTestDeferred = true ∧ t.dev.bos.spare = [])
      ∧ (d.testDeferred = false → ∃ t, round = .next t ∧ t.dev.flag Reg.bosSpareTest F.bosSpareTestDeferred = false
        ∧ t.dev.bos.spare = (((List.range 8).map (d.bos.spareNext + ·)).filter (fun y => decide (y < 64) && d.hasSpare y)).map d.spareSlot))
    ∧ (under = some p → ∃ t, exec (.spareTestEnd y true) s = .next t ∧ t.dev.fld (Reg.tileIdent p) F.tileIdentState = 1
      ∧ (∀ a, tileBase p ≤ a → a < tileBase p + 0x80000 → t.dev.byte a = 0) ∧ t.dev.fld Reg.bosSpareTest F.bosSpareTestLastYard = y.val)
    ∧ (under = none → exec (.spareTestEnd y pass) s = answer s d)
    ∧ (slack.length = 75 → d.bos.tb = true → d.pwr.stopped = false → d.jobLoaded = false → ∃ t, exec (.ageingSample slack) s = .next t
      ∧ ∀ i, i < 75 → t.dev.slackOf i = some (match d.slackOf i with
        | some o => min o (slack.getD i 0).toInt
        | none => (slack.getD i 0).toInt))
    ∧ (slack.length ≠ 75 → exec (.ageingSample slack) s = answer s d)

/-- Tier 2. Attestation, logbook and ageing reads, and self-tests. -/
def Obligations.ReadsAndTests : Prop := Parts.AttestationAndReads ∧ Parts.SelfTests

/-! ## Resets, boot, power, clock, temperature, test access (R455 to R497) -/

/-- Boot and reset: an image in either slot boots to IDLE at stage 0xF, none stops at stage 4 in ROM recovery; RST_N low keeps the hold
and the logbook; without VAUX the flash alone stays. -/
def Parts.BootAndReset : Prop :=
  ∀ (s : State) (b : BootIn),
    let d := s.dev
    let up := exec (.rstNDeassert b) s
    let part := b.steppingOk = true ∧ d.bos.man.stepping.toNat = d.fld Reg.devIdent F.devIdentStepping
    let good := b.manifestOk = true ∧ part ∧ b.railsOk = true ∧ b.boundsOk = true
    let boots := fwValid d.bos.fwA d.bos.man.minSvn = true ∨ fwValid d.bos.fwB d.bos.man.minSvn = true
    (d.mayBoot = true → good → boots → ∃ t, up = .next t ∧ t.dev.jst = JobSt.idle ∧ t.dev.fld Reg.bosBootStatus F.bosBootStatusStage = 0xF
      ∧ t.dev.pins.rstN = true ∧ t.dev.flag Reg.hstStatus F.hstStatusUp = b.hostUp)
    ∧ (d.mayBoot = true → ¬boots → ∃ t, up = .next t ∧ t.dev.bos.recovery = true ∧ t.dev.bos.halted = true
      ∧ t.dev.fld Reg.bosBootStatus F.bosBootStatusStage = 4 ∧ t.dev.fld Reg.bosBootStatus F.bosBootStatusCause = 1)
    ∧ (d.mayBoot = true → boots → b.manifestOk = false → ∃ t, up = .next t ∧ t.dev.bos.halted = true
      ∧ t.dev.fld Reg.bosBootStatus F.bosBootStatusStage = 5 ∧ t.dev.fld Reg.bosBootStatus F.bosBootStatusCause = 2)
    ∧ (d.mayBoot = true → boots → b.manifestOk = true → ¬part → ∃ t, up = .next t ∧ t.dev.bos.halted = true
      ∧ t.dev.fld Reg.bosBootStatus F.bosBootStatusStage = 5 ∧ t.dev.fld Reg.bosBootStatus F.bosBootStatusCause = 3)
    ∧ (d.mayBoot = false → up = answer s { d with pins := { d.pins with rstN := true } })
    ∧ (d.pins.vaux = true → ∃ t, exec .rstNAssert s = .next t ∧ t.dev.pins.rstN = false ∧ t.dev.bos.log = d.bos.log ∧ t.dev.jst = JobSt.boot
      ∧ t.dev.tiles = [] ∧ ∀ i, t.dev.byte i = if inHold i then d.byte i else 0)
    ∧ (∃ t, exec .vauxFall s = .next t ∧ t.dev.pins = ⟨false, false, false, false⟩ ∧ t.dev.bos.log = [] ∧ t.dev.bos.man = d.bos.man
      ∧ t.dev.bos.fwA = d.bos.fwA ∧ ∀ i, t.dev.byte i = 0)
    ∧ (d.pins.vaux = false → ∃ t, exec .vauxRise s = .next t ∧ t.dev.pins = ⟨false, false, true, false⟩ ∧ t.dev.bos.log = []
      ∧ t.dev.bos.man = d.bos.man)
    ∧ (d.pins.vaux = true → exec .vauxRise s = answer s d)

/-- Brown-outs: packages in self refresh keep the hold; a repair that was under way loses it; the recovery boots again; a junction at
115 °C switches off, and nothing boots before VIN_CORE has been removed. -/
def Parts.BrownoutsAndTrips : Prop :=
  ∀ (s : State) (b : BootIn) (refreshed : Bool) (sensor : Fin 96) (temp : BitVec 8),
    let d := s.dev
    let trip := exec (.vinCoreResetTrip refreshed) s
    let good := exec (.pwrGoodDeassert refreshed) s
    let back := exec (.brownoutRecovery b) s
    let hot := exec (.thermalTrip sensor temp) s
    let may := d.pins.vaux = true ∧ d.bos.romDigest = true ∧ d.pwr.brownout = false ∧ d.pwr.thermtrip = false
    (may → ∃ t, trip = .next t ∧ t.dev.pwr.brownout = true ∧ t.dev.tiles = []
      ∧ (refreshed = true → ∀ i, inHold i = true → t.dev.byte i = d.byte i)
      ∧ (refreshed = false → d.refreshAtRisk = true → t.dev.bos.retained = none ∧ ∀ i, t.dev.byte i = 0))
    ∧ (¬may → trip = answer s d)
    ∧ (d.pins.rstN = false → good = answer s { d with pins := { d.pins with pwrGood := false } })
    ∧ (d.pins.rstN = true → may → ∃ t, good = .next t ∧ t.dev.pwr.brownout = true ∧ t.dev.pins.pwrGood = false)
    ∧ (d.pwr.brownout = false → back = answer s d)
    ∧ (d.pwr.brownout = true → d.pins.rstN = true → fwValid d.bos.fwA d.bos.man.minSvn = true → b.manifestOk = true → b.steppingOk = true →
      d.bos.man.stepping = 0xB0#8 → b.railsOk = true → b.boundsOk = true → ∃ t, back = .next t ∧ t.dev.jst = JobSt.idle ∧ t.dev.pwr.brownout = false)
    ∧ (115 ≤ temp.toInt → d.pins.vaux = true → d.pwr.thermtrip = false → ∃ t, hot = .next t ∧ t.dev.pwr.thermtrip = true
      ∧ t.dev.pwr.tripped = true ∧ t.dev.mayBoot = false ∧ ∀ i, t.dev.byte i = 0)
    ∧ (temp.toInt < 115 → hot = answer s d)
    ∧ (∃ t, exec .vinCoreRemoved s = .next t ∧ t.dev.pwr.thermtrip = false ∧ t.dev.pins.vinCore = false)

/-- Tier 2. Boot and reset, brown-outs and the thermal trip. -/
def Obligations.BootAndTrips : Prop := Parts.BootAndReset ∧ Parts.BrownoutsAndTrips

/-- Dips of the rail: below the warning for the debounce time the supply request is level 2; the recovery ends and counts the dip and the
hold drops the request; a droop stretches its island only. -/
def Parts.SupplyDips : Prop :=
  ∀ (s : State) (mv : BitVec 12) (i : Fin 76),
    let d := s.dev
    let warn := exec (.vinCoreWarning mv) s
    let deb := exec .dipDebounce s
    let rec_ := exec (.vinCoreRecovery mv) s
    let hold := exec .supplyHoldEnd s
    let r := Reg.pwrStatus
    (mv.toNat < mvWarning → ∃ t, warn = .next t ∧ t.dev.pwr.warn = true ∧ t.dev.pwr.dip = d.pwr.dip ∧ ∀ i, t.dev.reg i = d.reg i)
    ∧ (mvWarning ≤ mv.toNat → warn = answer s d)
    ∧ (d.pwr.warn = true → d.pwr.dip = false → d.pwr.brownout = false → ∃ t, deb = .next t ∧ t.dev.pwr.dip = true ∧ t.dev.pwr.supply = true
      ∧ t.dev.flag r F.pwrStatusWarn = true ∧ (d.pwr.lvl ≤ 2 → d.pwr.therm ≤ 2 → t.dev.fld r F.pwrStatusReef = 2))
    ∧ (d.pwr.warn = false → deb = answer s d)
    ∧ (mvRecovery ≤ mv.toNat → d.pwr.warn = true → d.pwr.dip = true → ∃ t, rec_ = .next t ∧ t.dev.pwr.warn = false ∧ t.dev.pwr.dip = false
      ∧ t.dev.fld Reg.pwrDip F.pwrDipTotal = min 0xFFFF (d.fld Reg.pwrDip F.pwrDipTotal + 1) ∧ t.dev.flag r F.pwrStatusHold = true)
    ∧ (mvRecovery ≤ mv.toNat → d.pwr.warn = true → d.pwr.dip = false → ∃ t, rec_ = .next t ∧ t.dev.pwr.warn = false
      ∧ t.dev.reg Reg.pwrDip = d.reg Reg.pwrDip)
    ∧ (mv.toNat < mvRecovery → rec_ = answer s d)
    ∧ (d.flag r F.pwrStatusHold = true → d.pwr.dip = false → ∃ t, hold = .next t ∧ t.dev.pwr.supply = false ∧ t.dev.flag r F.pwrStatusHold = false
      ∧ (d.pwr.lvl = 0 → d.pwr.therm = 0 → t.dev.fld r F.pwrStatusReef = 0))
    ∧ (hasDroop i = true → ∃ t, exec (.droopDetect i) s = .next t ∧ t.dev.pwr.stretch.contains i.val = true ∧ ∀ a, t.dev.reg a = d.reg a)
    ∧ (hasDroop i = false → exec (.droopDetect i) s = answer s d)
    ∧ (∃ t, exec (.droopClear i) s = .next t ∧ t.dev.pwr.stretch.contains i.val = false ∧ ∀ a, t.dev.reg a = d.reg a)

/-- Clock: REFCLK's loss is device-fatal, the end of the holdover stops everything, a return in time clears it; a TPULSE edge latches the
timebase and, armed, loads it; ALIGN is ignored while a job is loaded. -/
def Parts.ClockAndTimebase : Prop :=
  ∀ (s : State) (v : Word),
    let d := s.dev
    let edge := exec .tpulseEdge s
    let stop := exec .refclkHoldoverEnd s
    (d.pwr.refLost = false → d.jst = JobSt.running → ∃ t, exec .refclkLoss s = .next t ∧ t.dev.pwr.refLost = true ∧ t.dev.jst = JobSt.failed
      ∧ t.dev.flag Reg.clkRef F.clkRefRefOk = false ∧ (t.dev.reg Reg.pwrAlert).testBit 3 = true ∧ .killNotice ∈ t.dev.out)
    ∧ (d.pwr.refLost = true → exec .refclkLoss s = answer s d)
    ∧ (d.pwr.refLost = true → d.pwr.stopped = false → ∃ t, stop = .next t ∧ t.dev.pwr.stopped = true ∧ t.dev.reg (Reg.clkLock 0) = 0
      ∧ t.dev.reg (Reg.clkLock 1) = 0 ∧ t.dev.chunks = [])
    ∧ (d.pwr.refLost = false → stop = answer s d)
    ∧ (∃ t, exec .refclkReturn s = .next t ∧ t.dev.pwr.refLost = false ∧ t.dev.flag Reg.clkRef F.clkRefRefOk = true)
    ∧ (d.bos.tb = true → d.pwr.stopped = false → ∃ t, edge = .next t ∧ t.dev.reg64 Reg.clkTbLatchLo Reg.clkTbLatchHi = d.timebase
      ∧ t.dev.fld Reg.clkTbCfg F.clkTbCfgEdges = (d.fld Reg.clkTbCfg F.clkTbCfgEdges + 1) % 2 ^ 16
      ∧ (d.alignArmed = true → t.dev.timebase = d.reg64 Reg.clkTbLoadLo Reg.clkTbLoadHi ∧ t.dev.flag Reg.clkTbCfg F.clkTbCfgAlign = false)
      ∧ (d.alignArmed = false → t.dev.timebase = d.timebase))
    ∧ (d.bos.tb = false → edge = answer s d)
    ∧ (v.getLsbD 0 = true → d.jobLoaded = false → ∃ t, exec (.alignTb .bosun v) s = .next t ∧ t.dev.flag Reg.clkTbCfg F.clkTbCfgAlign = true)
    ∧ (d.jobLoaded = true → exec (.alignTb .bosun v) s = answer s d)

/-- Power: a sample shows the rail and joins the window of 10 ms; a mean above its limit raises the level by one, to 3 at most; ten quiet
evaluations lower it by one; writes of the limits are clamped. -/
def Parts.PowerLoop : Prop :=
  ∀ (s : State) (w amps : BitVec 10) (mv : BitVec 12) (v : Word),
    let d := s.dev
    let p := d.pwr
    let one := p.samples.take 1000
    let peak := d.fld Reg.pwrLimit F.pwrLimitPeakW
    let sus := d.fld Reg.pwrLimit F.pwrLimitSustainedW
    let high := peak * one.length < sumOf one ∨ sus * p.samples.length < sumOf p.samples
    let calm := sumOf one + 40 * one.length ≤ min peak sus * one.length ∧ sumOf p.samples + 40 * p.samples.length ≤ sus * p.samples.length
    let eval := exec .powerEvaluate s
    let lim := exec (.pwrLimit .bosun v) s
    (d.bos.tb = true → p.stopped = false → ∃ t, exec (.powerSample w mv amps) s = .next t ∧ t.dev.pwr.samples = (w.toNat :: p.samples).take 10000
      ∧ t.dev.fld Reg.pwrVin F.pwrVinMv = mv.toNat ∧ t.dev.fld Reg.pwrVin F.pwrVinAmps = amps.toNat)
    ∧ (d.bos.tb = false → exec (.powerSample w mv amps) s = answer s d)
    ∧ (p.samples = [] → eval = answer s d)
    ∧ (p.samples ≠ [] → high → ∃ t, eval = .next t ∧ t.dev.pwr.lvl = min (p.lvl + 1) 3 ∧ t.dev.pwr.quiet = 0)
    ∧ (p.samples ≠ [] → ¬high → calm → p.quiet = 9 → 0 < p.lvl → ∃ t, eval = .next t ∧ t.dev.pwr.lvl = p.lvl - 1 ∧ t.dev.pwr.quiet = 0)
    ∧ (p.samples ≠ [] → ¬high → calm → p.quiet < 9 → ∃ t, eval = .next t ∧ t.dev.pwr.lvl = p.lvl ∧ t.dev.pwr.quiet = p.quiet + 1)
    ∧ (p.samples ≠ [] → ¬high → ¬calm → ∃ t, eval = .next t ∧ t.dev.pwr.lvl = p.lvl ∧ t.dev.pwr.quiet = 0)
    ∧ (∃ t, lim = .next t ∧ t.dev.fld Reg.pwrLimit F.pwrLimitSustainedW = max 400 (min 700 (bitsAt v.toNat 0 10))
      ∧ t.dev.fld Reg.pwrLimit F.pwrLimitPeakW = max 400 (min 820 (bitsAt v.toNat 16 10)) ∧ ∀ i, i ≠ Reg.pwrLimit → t.dev.reg i = d.reg i)

/-- Temperature: the threshold is stored up to 0x5F; a reading of the 96 sensors raises the request to the highest level reached, never
lowers it; it drops only below a level's threshold by 3 °C. -/
def Parts.Temperatures : Prop :=
  ∀ (s : State) (v : Word) (ts : List (BitVec 8)),
    let d := s.dev
    let sample := exec (.thermalSample ts) s
    let h := (hottest (ts.map (fun b => b.toInt))).2
    (∃ t, exec (.pwrThermCfg .bosun v) s = .next t ∧ t.dev.fld Reg.pwrThermCfg F.pwrThermCfgStart = min 0x5F (v.toNat % 256)
      ∧ ∀ i, i ≠ Reg.pwrThermCfg → t.dev.reg i = d.reg i)
    ∧ (ts.length = 96 → ∃ t, sample = .next t ∧ d.pwr.therm ≤ t.dev.pwr.therm ∧ t.dev.pwr.thermPeakNow = h
      ∧ (∀ l ∈ [1, 2, 3], d.thermAt l ≤ h → l ≤ t.dev.pwr.therm) ∧ (h < d.thermAt 1 → t.dev.pwr.therm = d.pwr.therm)
      ∧ (105 ≤ h → (t.dev.reg Reg.pwrAlert).testBit 1 = true))
    ∧ (ts.length = 96 → (∀ b ∈ ts, b.toInt ≤ h) ∧ ∃ b ∈ ts, b.toInt = h)
    ∧ (ts.length ≠ 96 → sample = answer s d)
    ∧ (∃ t, exec .thermalRequestDrop s = .next t ∧ t.dev.pwr.therm ≤ d.pwr.therm
      ∧ (d.pwr.thermPeakNow ≤ d.thermAt 1 - 3 → t.dev.pwr.therm = 0)
      ∧ (d.pwr.therm ≤ 3 → d.thermAt d.pwr.therm - 3 < d.pwr.thermPeakNow → t.dev.pwr.therm = d.pwr.therm))

/-- Tier 2. Supply dips, the clock and timebase, the power loop and the temperatures. -/
def Obligations.PowerAndClock : Prop := Parts.SupplyDips ∧ Parts.ClockAndTimebase ∧ Parts.PowerLoop ∧ Parts.Temperatures

/-- The TAP with its rails up: each instruction selects its register and drives or releases the balls; a private one is BYPASS outside
DEBUG with scope bit 3; without a rail nothing changes. -/
def Parts.TestAccess : Prop :=
  ∀ (s : State) (n : Nat),
    let d := s.dev
    let up := d.pins.vaux = true ∧ d.pins.vinCore = true
    let tap := fun t => answer s { d with tap := t }
    (up → exec .tapReset s = tap ⟨.bypass, d.tap.boundary, none⟩ ∧ exec .bypass s = tap ⟨.bypass, d.tap.boundary, none⟩
      ∧ exec (.extest n) s = tap ⟨.extest, n, some n⟩ ∧ exec (.samplePreload n) s = tap ⟨.samplePreload, n, none⟩
      ∧ exec (.extestPulse n) s = tap ⟨.extestPulse, n, some n⟩ ∧ exec (.extestTrain n) s = tap ⟨.extestTrain, n, some n⟩
      ∧ exec (.tapPrivateInstruction n) s = tap ⟨if d.debugOpen 3 then .priv n else .bypass, d.tap.boundary, none⟩)
    ∧ (¬up → ∀ i ∈ [Instr.tapReset, .bypass, .extest n, .samplePreload n, .extestPulse n, .extestTrain n, .tapPrivateInstruction n],
      exec i s = answer s d)

/-- The ball map: lane k of slot j of an edge lies at u0 + 2k and u0 + 2k + 1, its TX pair at depth 2 and its RX pair at depth 5; the balls
of the square of rows and columns 20 to 75 are VIN_CORE where row + column is even, else GND (R479, R481). -/
def Parts.BallMap : Prop :=
  (∀ (j k : Nat) (tx p : Bool), j < 4 → k < 9 →
    let u := 8 + 20 * j + 2 * k + if p then 0 else 1
    let d := if tx then 2 else 5
    ballNet u (95 - d) = .lane (some (4 + j)) k tx p ∧ ballNet (95 - d) (95 - u) = .lane (some (8 + j)) k tx p
      ∧ ballNet (95 - u) d = .lane (some (12 + j)) k tx p)
  ∧ (∀ (j k : Nat) (tx p : Bool), j < 5 → k < (if j = 2 then 4 else 9) →
    ballNet (if tx then 2 else 5) (3 + 18 * j + 2 * k + if p then 0 else 1)
      = .lane ([some 0, some 1, none, some 2, some 3].getD j none) k tx p)
  ∧ ∀ row col, 20 ≤ row → row ≤ 75 → 20 ≤ col → col ≤ 75 → ballNet row col = if (row + col) % 2 = 0 then .rail .vinCore else .gnd

/-- Tier 2. The test access port and the ball map. -/
def Obligations.TestAccess : Prop := Parts.TestAccess ∧ Parts.BallMap

/-! ## Rules stated whole -/

/-- Tier 2. R154: at the release of a step the flag contribution takes the forme's default; an arrival carries the contribution with the sticky
bits that the flag map of the tile names, but for bit 7, which is reserved (R248), and does not clear the contribution. -/
def Obligations.FlagContributions : Prop :=
  (∀ (s : State) (peers : PeerArr) (n : Word), s.dev.multi = false → s.dev.barScope s.dev.relBar = 3 → s.dev.runningJob = true →
    s.dev.hal.aborting = false → s.dev.press.prep = false → s.dev.host.stStart = none → s.dev.hal.hrel = some n → s.dev.hal.first = true →
    (∀ p ∈ s.dev.membersOf s.dev.relBar (s.dev.tiles.map (·.1)), (s.dev.tile p).arrived.getLsbD s.dev.relBar = true) → s.dev.stepAllowed n = true →
    (reducedValue s.dev.flagMode (s.dev.tileFlags s.dev.relBar (s.dev.membersOf s.dev.relBar (s.dev.tiles.map (·.1))))).getLsbD 6 = false →
    ∃ t, exec (.releaseBarrierRelease peers) s = .next t ∧ ∀ p, p < 1536 → s.dev.inService p = true →
      (t.dev.tile p).flags = w32 (s.dev.reg (Reg.tileHalFlagdef p)))
  ∧ ∀ (d : Dev) (h : Iss) (b : Bar), (d.tile h.slot).arrived.getLsbD b = false →
    (∀ c, c < 4 → c ≠ h.core.val → (d.core h.slot c).run = .halted ∨ (d.core h.slot c).hasArrived b = true) → d.arrivalReady h.slot b = true →
    let m := fun k => bitsAt (d.reg (Reg.tileHalFlagmap h.slot (k / 4))) (8 * (k % 4)) 8
    ((d.arrive h b).tile h.slot).flags = (d.tile h.slot).flags
    ∧ ∀ i, i < 32 → (BitVec.ofNat 32 (Sparse.get (fun _ => (0 : Word)) ((d.arrive h b).tile h.slot).arrFlags b).toNat).getLsbD i
      = (i != 7 && ((d.tile h.slot).flags.getLsbD i || (List.range 11).any (fun k => m k / 128 == 1 && m k % 32 == i && d.stickySource h.slot k)))

/-- Tier 2. R269: a queue holds up to 64 untaken records and is open or closed: open accepts posts, closed refuses them; takes are served in
either state until no record remains; drain closes, discards every untaken record and counts it done in its wave, and leaves the tasks taken. -/
def Obligations.QueueStates : Prop :=
  ∀ (s : State) (h : Iss) (a d : R5) (v : Nat) (r : QRec) (ch : Nat), s.dev.on h →
    let y := h.slot.val / 24
    let q := s.dev.yard y
    let k := s.dev.at_ h
    let ad := (k.sreg a).toNat
    let rec_ : QRec := ⟨q.freeEntry, s.dev.bytes (tileBase h.slot + ad) 256⟩
    let at_ := s.dev.fld (Reg.tileSqLand h.slot) F.tileSqLandAddr + 64 * b2n (s.dev.freeArea h.slot)
    (Ready s.dev h 0x12 false [] [] →
      (∃ t, exec (.sctlOpen h) s = .next t ∧ t.dev.sqClosed y = false ∧ (t.dev.yard y).recs = q.recs)
      ∧ (∃ t, exec (.sctlClose h) s = .next t ∧ t.dev.sqClosed y = true ∧ (t.dev.yard y).recs = q.recs)
      ∧ (∃ t, exec (.sctlDrain h) s = .next t ∧ t.dev.sqClosed y = true ∧ (t.dev.yard y).recs = [] ∧ (t.dev.yard y).chans = q.chans
        ∧ ∀ w, w < 16 → t.dev.fld (Reg.yardSqWave y w) F.yardSqWaveDone
          = (s.dev.fld (Reg.yardSqWave y w) F.yardSqWaveDone + (q.recs.filter (fun e => e.wave == w)).length) % 2 ^ 16))
    ∧ (Ready s.dev h 0x12 false [a] [] → ad + 256 ≤ 0x60000 → ad % 64 = 0 → s.dev.readStore h.slot ad 256 (1 + h.core.val) = (s.dev, true) →
      (s.dev.sqClosed y = true → exec (.spost h a) s
        = answer s ((s.dev.sqFault y 3 (h.slot.val % 24) rec_.entry rec_.task).progFault h.slot h.core 0x12 0 k.pc 6 0))
      ∧ (s.dev.sqClosed y = false → 64 ≤ q.recs.length → exec (.spost h a) s = answer s (s.dev.waits h (.spost h a)))
      ∧ (s.dev.sqClosed y = false → q.recs.length < 64 → rec_.slot < s.dev.fld (Reg.yardSqSlotCount y) F.yardSqSlotCountCount →
        q.slotsUsed.contains rec_.slot = false → s.dev.recordOk y rec_ = true → ∃ t, exec (.spost h a) s = .next t
        ∧ (t.dev.yard y).recs = q.recs ++ [rec_] ∧ (t.dev.yard y).recs.length ≤ 64))
    ∧ (Ready s.dev h 0x11 false [d] [] → s.dev.heldCount h.slot < 2 →
      (s.dev.findTask y (s.dev.logical h.slot) = some (v, r) → s.dev.freeChan y = some ch →
        at_ + 64 ≤ 0x60000 → (s.dev.tile h.slot).image.codeEnd ≤ at_ → s.dev.mayWrite h.slot at_ 64 0 = true →
        ∃ t, exec (.stake h d) s = .next t ∧ (t.dev.yard v).recs = (s.dev.yard v).recs.filter (fun e => e.entry != r.entry))
      ∧ (s.dev.findTask y (s.dev.logical h.slot) = none → s.dev.allClosed y = true →
        exec (.stake h d) s = answer s ((s.dev.putS h d 0x8000000000000002#64).retired h false)))

/-- Tier 2. R287: a write of YARD_SQ_WAVE_OPEN by any master but a core of the yard's own CT is an access error without effect, recorded in the
logbook with the writing master; a core of that CT opens the waves it names. -/
def Obligations.WaveOpening : Prop :=
  ∀ (s : State) (y : Yard) (m : Master) (v : Word) (c : Fin 4),
    ((∀ c, m ≠ .tile ⟨24 * y.val + 23, by omega⟩ c) → ∃ t, exec (.yardSqWaveOpen m y v) s = .next t
      ∧ t.dev.out = s.dev.out ++ [.regData false 0] ∧ t.dev.reg (Reg.yardSqWaveOpen y) = s.dev.reg (Reg.yardSqWaveOpen y)
      ∧ t.dev.bos.seq = s.dev.bos.seq + 1
      ∧ ∃ e, t.dev.bos.log.getLast? = some e ∧ e.block = 2 ∧ e.inst = y.val ∧ e.data = [v, w32 (masterCode m)])
    ∧ (∃ t, exec (.yardSqWaveOpen (.tile ⟨24 * y.val + 23, by omega⟩ c) y v) s = .next t ∧ t.dev.out = s.dev.out ++ [.regData true 0]
      ∧ t.dev.reg (Reg.yardSqWaveOpen y) = Nat.lor (s.dev.reg (Reg.yardSqWaveOpen y)) (v.toNat % 2 ^ 16))

/-- Tier 2. R350: a codeword that cannot be corrected counts in LNK_FEC_UE, and the flit it overlaps is treated as having failed its CRC. -/
def Obligations.UncorrectableCodewords : Prop :=
  ∀ (s : State) (n : Port) (f : List Byte) (a : Option (BitVec 12)), s.dev.carrying n = true → f.length = 256 →
    let fails := fun d : Dev => if (s.dev.link n).awaiting = true ∧ flitSeq f ≠ (s.dev.link n).expect then d else d.flitFails n f
    exec (.flitReceive n f false a) s = answer s (fails (s.dev.satFld (Reg.lnkFecUe n) fld32 1))
    ∧ (natAt f 252 4 ≠ (crc32 (f.take 252)).toNat → exec (.flitReceive n f true a) s = answer s (fails s.dev))
    ∧ (∃ t, exec (.flitReceive n f false a) s = .next t ∧ t.dev.reg (Reg.lnkFecUe n) = min (2 ^ 32 - 1) (s.dev.reg (Reg.lnkFecUe n) + 1))

/-- Tier 2. R368: a port whose peer's BOARD_POS is not its own xor (n + 1), for n from 0 to 6, sets WIRING and logs it; it still comes up. -/
def Obligations.WiringMismatch : Prop :=
  ∀ (s : State) (n : Port) (t : Training) (fec level : Nat),
    let d := s.dev.settleStrikes n
    let wrong := decide (n.val ≤ 6) && t.peerPos.toNat != Nat.xor (d.fld Reg.devBoard F.devBoardBoardPos) (n.val + 1)
    s.dev.lnkState n ≠ 2 → s.dev.lnkState n ≠ 4 → s.dev.mayTrain n = true → t.signal = true → t.eqFailed = 0 → t.berFailed = 0 →
    d.manifestLanes n = 0 → t.skewOk = true → t.reply = true → (d.meetPeer n t).fecMode n t = some fec →
    (d.meetPeer n t).linkLevel n t = some level →
    ∃ u, exec (.fullTraining n t) s = .next u ∧ u.dev.flag (Reg.lnkStatus n) F.lnkStatusUp = true
      ∧ u.dev.flag (Reg.lnkStatus n) F.lnkStatusWiring = wrong
      ∧ (wrong = true → ∃ e, u.dev.bos.log.getLast? = some e ∧ e.block = 6 ∧ e.inst = n.val ∧ e.seq = d.bos.seq + 1)
      ∧ (wrong = false → u.dev.bos.log = d.bos.log)

/-- Tier 2. R403: RESUME is accepted by the device whose host was lost, after a heartbeat has come again; it clears HOST_LOST, broadcasts event
0x03, and every device returns to RUNNING; on another HELD device it completes with 0x02 and changes nothing else; END and KILL are taken. -/
def Obligations.Resumption : Prop :=
  ∀ (s : State) (q : CmdHdr) (last : Word),
    let d := s.dev
    let e := hostCmd q 0x14 []
    let go := exec (.resume q) s
    let mine := d.flag Reg.hstStatus F.hstStatusHostLost = true ∧ d.hal.heldDev.toNat = d.ownDev
    d.takes q → d.jst = JobSt.held → d.pwr.stopped = false →
    (mine → d.host.beatSinceLost = true → ∃ t, go = .next t ∧ t.dev.jst = JobSt.running
      ∧ t.dev.flag Reg.hstStatus F.hstStatusHostLost = false ∧ t.dev.hal.bcq = d.hal.bcq ++ [⟨none, eventWord 3 0 0⟩]
      ∧ (d.multi = true → .resumeNotice ∈ t.dev.out))
    ∧ (¬mine ∨ d.host.beatSinceLost = false → go = answer s (d.finish e 2 0 []))
    ∧ (∃ t, exec .resumeEvent s = .next t ∧ t.dev.jst = JobSt.running ∧ t.dev.hal.bcq = d.hal.bcq ++ [⟨none, eventWord 3 0 0⟩])
    ∧ (∃ t, exec (.endJob q last) s = .next t ∧ t.dev.jst = JobSt.clearing)
    ∧ (∃ t, exec (.kill q) s = .next t ∧ t.dev.jst = JobSt.clearing)
end

