-- ==== Sys2Proof/Laws/Sparse.lean ====
section
/-! SUPPORT. Sys2Proof/Laws/Sparse.lean: what reading, writing, dropping and canonising sparse data do; a write keeps the
canonical form. -/

namespace Sys2Proof
namespace Sparse
variable {α : Type}

theorem get_erase_same (d : Nat → α) (m : Sparse α) (k : Nat) : get d (erase m k) k = d k := by
  induction m with
  | nil => rfl
  | cons e m ih =>
    obtain ⟨a, v⟩ := e
    by_cases h : a = k
    · subst h; simpa [erase] using ih
    · simpa [erase, h, get] using ih

theorem get_erase_other (d : Nat → α) (m : Sparse α) {k j : Nat} (h : j ≠ k) : get d (erase m k) j = get d m j := by
  induction m with
  | nil => rfl
  | cons e m ih =>
    obtain ⟨a, v⟩ := e
    by_cases ha : a = k
    · subst ha
      have : ¬ a = j := fun e => h e.symm
      simpa [erase, get, this] using ih
    · by_cases hj : a = j
      · subst hj; simp [erase, ha, get]
      · simpa [erase, ha, get, hj] using ih

theorem get_insert_same (d : Nat → α) (m : Sparse α) (k : Nat) (v : α) : get d (insert m k v) k = v := by
  induction m with
  | nil => simp [insert, get]
  | cons e m ih =>
    obtain ⟨a, w⟩ := e
    by_cases h1 : a < k
    · have : ¬ a = k := Nat.ne_of_lt h1
      simpa [insert, h1, get, this] using ih
    · by_cases h2 : a = k <;> simp [insert, h1, h2, get]

theorem get_insert_other (d : Nat → α) (m : Sparse α) {k j : Nat} (v : α) (h : j ≠ k) : get d (insert m k v) j = get d m j := by
  have hk : ¬ k = j := fun e => h e.symm
  induction m with
  | nil => simp [insert, get, hk]
  | cons e m ih =>
    obtain ⟨a, w⟩ := e
    by_cases h1 : a < k
    · by_cases hj : a = j
      · subst hj; simp [insert, h1, get]
      · simpa [insert, h1, get, hj] using ih
    · by_cases h2 : a = k
      · subst h2; simp [insert, get, hk]
      · simp [insert, h1, h2, get, hk]

variable [DecidableEq α]

/-- A read after a write to the same key. -/
theorem get_set_same (d : Nat → α) (m : Sparse α) (k : Nat) (v : α) : get d (set d m k v) k = v := by
  unfold set
  split
  · next h => rw [get_erase_same, h]
  · exact get_insert_same d m k v

/-- A write leaves every other key alone. -/
theorem get_set_other (d : Nat → α) (m : Sparse α) {k j : Nat} (v : α) (h : j ≠ k) : get d (set d m k v) j = get d m j := by
  unfold set
  split
  · exact get_erase_other d m h
  · exact get_insert_other d m v h

theorem get_set (d : Nat → α) (m : Sparse α) (k j : Nat) (v : α) : get d (set d m k v) j = if j = k then v else get d m j := by
  split
  · next h => subst h; exact get_set_same d m _ v
  · next h => exact get_set_other d m v h

omit [DecidableEq α] in
theorem get_drop (d : Nat → α) (p : Nat → Bool) (m : Sparse α) (k : Nat) :
    get d (drop p m) k = if p k then d k else get d m k := by
  induction m with
  | nil => simp [drop, get]
  | cons e m ih =>
    obtain ⟨a, v⟩ := e
    by_cases hp : p a
    · have h1 : drop p ((a, v) :: m) = drop p m := by simp [drop, hp]
      rw [h1, ih]
      by_cases hk : a = k
      · subst hk; simp [hp]
      · simp [get, hk]
    · have h1 : drop p ((a, v) :: m) = (a, v) :: drop p m := by simp [drop, hp]
      rw [h1]
      by_cases hk : a = k
      · subst hk; simp [get, hp]
      · simp [get, hk, ih]

/-! ## The canonical form -/

/-- Is `l` below every listed key (none: nothing asked)? -/
def above (lo : Option Nat) (a : Nat) : Prop := ∀ l, lo = some l → l < a

theorem wfFrom_cons (d : Nat → α) (lo : Option Nat) (a : Nat) (v : α) (m : Sparse α) :
    wfFrom d lo ((a, v) :: m) = true ↔ above lo a ∧ v ≠ d a ∧ wfFrom d (some a) m = true := by
  cases lo <;> simp [wfFrom, above, and_assoc]

theorem wfFrom_weaken (d : Nat → α) {lo lo' : Option Nat} (h : ∀ a, above lo a → above lo' a) {m : Sparse α}
    (hm : wfFrom d lo m = true) : wfFrom d lo' m = true := by
  cases m with
  | nil => rfl
  | cons e m =>
    obtain ⟨a, v⟩ := e
    rw [wfFrom_cons] at hm ⊢
    exact ⟨h a hm.1, hm.2⟩

theorem wfFrom_filter (d : Nat → α) (p : Nat × α → Bool) {lo : Option Nat} {m : Sparse α} (hm : wfFrom d lo m = true) :
    wfFrom d lo (m.filter p) = true := by
  induction m generalizing lo with
  | nil => rfl
  | cons e m ih =>
    obtain ⟨a, v⟩ := e
    rw [wfFrom_cons] at hm
    by_cases hp : p (a, v)
    · simp only [List.filter_cons, hp, if_true]
      rw [wfFrom_cons]
      exact ⟨hm.1, hm.2.1, ih hm.2.2⟩
    · simp only [List.filter_cons, hp]
      exact ih (wfFrom_weaken d (fun b hb l hl => Nat.lt_trans (hm.1 l hl) (hb a rfl)) hm.2.2)

theorem wfFrom_insert (d : Nat → α) {lo : Option Nat} {m : Sparse α} {k : Nat} {v : α} (hv : v ≠ d k) (hk : above lo k)
    (hm : wfFrom d lo m = true) : wfFrom d lo (insert m k v) = true := by
  induction m generalizing lo with
  | nil => rw [insert, wfFrom_cons]; exact ⟨hk, hv, rfl⟩
  | cons e m ih =>
    obtain ⟨a, w⟩ := e
    have h := hm
    rw [wfFrom_cons] at h
    by_cases h1 : a < k
    · simp only [insert, h1, if_true]
      rw [wfFrom_cons]
      exact ⟨h.1, h.2.1, ih (fun l hl => by cases hl; exact h1) h.2.2⟩
    · by_cases h2 : a = k
      · subst h2
        simp only [insert, h1, if_false, if_true]
        rw [wfFrom_cons]
        exact ⟨h.1, hv, h.2.2⟩
      · simp only [insert, h1, h2, if_false]
        rw [wfFrom_cons, wfFrom_cons]
        exact ⟨hk, hv, fun l hl => by cases hl; omega, h.2.1, h.2.2⟩

/-- A write keeps the canonical form. -/
theorem wf_set (d : Nat → α) {m : Sparse α} (k : Nat) (v : α) (hm : wf d m = true) : wf d (set d m k v) = true := by
  unfold set
  split
  · exact wfFrom_filter d _ hm
  · next h => exact wfFrom_insert d h (fun l hl => by cases hl) hm

theorem wf_drop (d : Nat → α) (p : Nat → Bool) {m : Sparse α} (hm : wf d m = true) : wf d (drop p m) = true :=
  wfFrom_filter d _ hm

theorem wf_nil (d : Nat → α) : wf d ([] : Sparse α) = true := rfl

theorem wf_foldr_set (d : Nat → α) (m : Sparse α) : wf d (m.foldr (fun e acc => set d acc e.1 e.2) []) = true := by
  induction m with
  | nil => rfl
  | cons e m ih => exact wf_set d _ _ ih

/-- Canonising gives the canonical form … -/
theorem wf_canon (d : Nat → α) (m : Sparse α) : wf d (canon d m) = true := by
  unfold canon
  split
  · assumption
  · exact wf_foldr_set d m

theorem get_foldr_set (d : Nat → α) (m : Sparse α) (k : Nat) :
    get d (m.foldr (fun e acc => set d acc e.1 e.2) []) k = get d m k := by
  induction m with
  | nil => rfl
  | cons e m ih =>
    obtain ⟨a, v⟩ := e
    simp only [List.foldr_cons]
    rw [get_set]
    by_cases h : k = a
    · subst h; simp [get]
    · have : ¬ a = k := fun e => h e.symm
      simp [h, get, this, ih]

/-- … and every key reads as before. -/
theorem get_canon (d : Nat → α) (m : Sparse α) (k : Nat) : get d (canon d m) k = get d m k := by
  unfold canon
  split
  · rfl
  · exact get_foldr_set d m k

theorem canon_of_wf (d : Nat → α) {m : Sparse α} (hm : wf d m = true) : canon d m = m := by simp [canon, hm]

end Sparse
end Sys2Proof
end

