-- ==== Sys2Proof/Laws/Memory.lean ====
section
/-! SUPPORT. Sys2Proof/Laws/Memory.lean: reading memory after a write, and every memory operation keeps the canonical form. -/

namespace Sys2Proof.Machine

/-! ## Lists of bytes -/

theorem storeBytesAt_get (m : List Host.Cell) (a : Nat) (bs : List Byte) (i : Nat) :
    Sparse.get memReset (storeBytesAt m a bs) i
      = if a ≤ i ∧ i < a + bs.length then bs.getD (i - a) 0 else Sparse.get memReset m i := by
  induction bs generalizing m a with
  | nil =>
    have : ¬ (a ≤ i ∧ i < a + ([] : List Byte).length) := by simp only [List.length_nil]; omega
    rw [if_neg this]; rfl
  | cons b bs ih =>
    rw [storeBytesAt, ih, Sparse.get_set]
    by_cases h1 : a + 1 ≤ i ∧ i < a + 1 + bs.length
    · have h2 : a ≤ i ∧ i < a + (b :: bs).length := by simp only [List.length_cons]; omega
      rw [if_pos h1, if_pos h2]
      have : i - a = (i - (a + 1)) + 1 := by omega
      rw [this]; rfl
    · rw [if_neg h1]
      by_cases h3 : i = a
      · subst h3
        have h2 : i ≤ i ∧ i < i + (b :: bs).length := by simp
        rw [if_pos rfl, if_pos h2, Nat.sub_self]; rfl
      · have h2 : ¬ (a ≤ i ∧ i < a + (b :: bs).length) := by simp only [List.length_cons]; omega
        rw [if_neg h3, if_neg h2]

theorem storeBytesAt_wf {m : List Host.Cell} (a : Nat) (bs : List Byte) (h : Memory.wf m = true) :
    Memory.wf (storeBytesAt m a bs) = true := by
  induction bs generalizing m a with
  | nil => exact h
  | cons b bs ih => exact ih (a + 1) (Sparse.wf_set memReset a b h)

/-! ## The device's memory -/

/-- A byte after a store: the stored byte inside the range, the old byte outside. -/
theorem Dev.byte_store (d : Dev) (a : Nat) (bs : List Byte) (i : Nat) :
    (d.store a bs).byte i = if a ≤ i ∧ i < a + bs.length then bs.getD (i - a) 0 else d.byte i :=
  storeBytesAt_get d.mem a bs i

theorem Dev.byte_store_outside (d : Dev) (a : Nat) (bs : List Byte) {i : Nat} (h : i < a ∨ a + bs.length ≤ i) :
    (d.store a bs).byte i = d.byte i := by
  rw [Dev.byte_store, if_neg]; omega

theorem toBytes_length (n v : Nat) : (toBytes n v).length = n := by
  unfold toBytes; rw [List.length_map, List.length_range]

theorem Dev.byte_storeNat_outside (d : Dev) (a n v : Nat) {i : Nat} (h : i < a ∨ a + n ≤ i) :
    (d.storeNat a n v).byte i = d.byte i :=
  Dev.byte_store_outside d a (toBytes n v) (by rwa [toBytes_length])

theorem Dev.byte_dropMem (d : Dev) (p : Nat → Bool) (i : Nat) : (d.dropMem p).byte i = if p i then 0 else d.byte i :=
  Sparse.get_drop memReset p d.mem i

@[simp] theorem Dev.byte_canon (d : Dev) (i : Nat) : d.canon.byte i = d.byte i := Sparse.get_canon memReset d.mem i

/-! ## The canonical form -/

theorem Dev.store_wf {d : Dev} (a : Nat) (bs : List Byte) (h : Memory.wf d.mem = true) : Memory.wf (d.store a bs).mem = true :=
  storeBytesAt_wf a bs h

theorem Dev.storeNat_wf {d : Dev} (a n v : Nat) (h : Memory.wf d.mem = true) : Memory.wf (d.storeNat a n v).mem = true :=
  storeBytesAt_wf a (toBytes n v) h

theorem Dev.dropMem_wf {d : Dev} (p : Nat → Bool) (h : Memory.wf d.mem = true) : Memory.wf (d.dropMem p).mem = true :=
  Sparse.wf_drop memReset p h

/-- The end of every command: memory and registers in canonical form, whatever they were. -/
theorem Dev.canon_mem_wf (d : Dev) : Memory.wf d.canon.mem = true := Sparse.wf_canon memReset d.mem

theorem Dev.canon_regs_wf (d : Dev) : Sparse.wf regReset d.canon.regs = true := Sparse.wf_canon regReset d.regs

end Sys2Proof.Machine
end

