-- ==== Sys2Proof/Laws/State.lean ====
section
/-! SUPPORT. Sys2Proof/Laws/State.lean: what each update of the state leaves alone, field by field. -/

namespace Sys2Proof.Machine

variable (d : Dev)

/-! ### setReg -/

@[simp] theorem Dev.setReg_caps (off v : Nat) : (d.setReg off v).caps = d.caps := rfl
@[simp] theorem Dev.setReg_mem (off v : Nat) : (d.setReg off v).mem = d.mem := rfl
@[simp] theorem Dev.setReg_ecc (off v : Nat) : (d.setReg off v).ecc = d.ecc := rfl
@[simp] theorem Dev.setReg_wb (off v : Nat) : (d.setReg off v).wb = d.wb := rfl
@[simp] theorem Dev.setReg_tiles (off v : Nat) : (d.setReg off v).tiles = d.tiles := rfl
@[simp] theorem Dev.setReg_yards (off v : Nat) : (d.setReg off v).yards = d.yards := rfl
@[simp] theorem Dev.setReg_routes (off v : Nat) : (d.setReg off v).routes = d.routes := rfl
@[simp] theorem Dev.setReg_nodes (off v : Nat) : (d.setReg off v).nodes = d.nodes := rfl
@[simp] theorem Dev.setReg_bufs (off v : Nat) : (d.setReg off v).bufs = d.bufs := rfl
@[simp] theorem Dev.setReg_chunks (off v : Nat) : (d.setReg off v).chunks = d.chunks := rfl
@[simp] theorem Dev.setReg_units (off v : Nat) : (d.setReg off v).units = d.units := rfl
@[simp] theorem Dev.setReg_hal (off v : Nat) : (d.setReg off v).hal = d.hal := rfl
@[simp] theorem Dev.setReg_press (off v : Nat) : (d.setReg off v).press = d.press := rfl
@[simp] theorem Dev.setReg_hold (off v : Nat) : (d.setReg off v).hold = d.hold := rfl
@[simp] theorem Dev.setReg_links (off v : Nat) : (d.setReg off v).links = d.links := rfl
@[simp] theorem Dev.setReg_job (off v : Nat) : (d.setReg off v).job = d.job := rfl
@[simp] theorem Dev.setReg_host (off v : Nat) : (d.setReg off v).host = d.host := rfl
@[simp] theorem Dev.setReg_bos (off v : Nat) : (d.setReg off v).bos = d.bos := rfl
@[simp] theorem Dev.setReg_pwr (off v : Nat) : (d.setReg off v).pwr = d.pwr := rfl
@[simp] theorem Dev.setReg_pins (off v : Nat) : (d.setReg off v).pins = d.pins := rfl
@[simp] theorem Dev.setReg_tap (off v : Nat) : (d.setReg off v).tap = d.tap := rfl
@[simp] theorem Dev.setReg_out (off v : Nat) : (d.setReg off v).out = d.out := rfl
@[simp] theorem Dev.setReg_freeCtr (off v : Nat) : (d.setReg off v).freeCtr = d.freeCtr := rfl

/-! ### setFld -/

@[simp] theorem Dev.setFld_caps (off : Nat) (f : Fld) (x : Nat) : (d.setFld off f x).caps = d.caps := by simp only [Dev.setFld, Dev.setReg_caps]
@[simp] theorem Dev.setFld_mem (off : Nat) (f : Fld) (x : Nat) : (d.setFld off f x).mem = d.mem := by simp only [Dev.setFld, Dev.setReg_mem]
@[simp] theorem Dev.setFld_ecc (off : Nat) (f : Fld) (x : Nat) : (d.setFld off f x).ecc = d.ecc := by simp only [Dev.setFld, Dev.setReg_ecc]
@[simp] theorem Dev.setFld_wb (off : Nat) (f : Fld) (x : Nat) : (d.setFld off f x).wb = d.wb := by simp only [Dev.setFld, Dev.setReg_wb]
@[simp] theorem Dev.setFld_tiles (off : Nat) (f : Fld) (x : Nat) : (d.setFld off f x).tiles = d.tiles := by simp only [Dev.setFld, Dev.setReg_tiles]
@[simp] theorem Dev.setFld_yards (off : Nat) (f : Fld) (x : Nat) : (d.setFld off f x).yards = d.yards := by simp only [Dev.setFld, Dev.setReg_yards]
@[simp] theorem Dev.setFld_routes (off : Nat) (f : Fld) (x : Nat) : (d.setFld off f x).routes = d.routes := by simp only [Dev.setFld, Dev.setReg_routes]
@[simp] theorem Dev.setFld_nodes (off : Nat) (f : Fld) (x : Nat) : (d.setFld off f x).nodes = d.nodes := by simp only [Dev.setFld, Dev.setReg_nodes]
@[simp] theorem Dev.setFld_bufs (off : Nat) (f : Fld) (x : Nat) : (d.setFld off f x).bufs = d.bufs := by simp only [Dev.setFld, Dev.setReg_bufs]
@[simp] theorem Dev.setFld_chunks (off : Nat) (f : Fld) (x : Nat) : (d.setFld off f x).chunks = d.chunks := by simp only [Dev.setFld, Dev.setReg_chunks]
@[simp] theorem Dev.setFld_units (off : Nat) (f : Fld) (x : Nat) : (d.setFld off f x).units = d.units := by simp only [Dev.setFld, Dev.setReg_units]
@[simp] theorem Dev.setFld_hal (off : Nat) (f : Fld) (x : Nat) : (d.setFld off f x).hal = d.hal := by simp only [Dev.setFld, Dev.setReg_hal]
@[simp] theorem Dev.setFld_press (off : Nat) (f : Fld) (x : Nat) : (d.setFld off f x).press = d.press := by simp only [Dev.setFld, Dev.setReg_press]
@[simp] theorem Dev.setFld_hold (off : Nat) (f : Fld) (x : Nat) : (d.setFld off f x).hold = d.hold := by simp only [Dev.setFld, Dev.setReg_hold]
@[simp] theorem Dev.setFld_links (off : Nat) (f : Fld) (x : Nat) : (d.setFld off f x).links = d.links := by simp only [Dev.setFld, Dev.setReg_links]
@[simp] theorem Dev.setFld_job (off : Nat) (f : Fld) (x : Nat) : (d.setFld off f x).job = d.job := by simp only [Dev.setFld, Dev.setReg_job]
@[simp] theorem Dev.setFld_host (off : Nat) (f : Fld) (x : Nat) : (d.setFld off f x).host = d.host := by simp only [Dev.setFld, Dev.setReg_host]
@[simp] theorem Dev.setFld_bos (off : Nat) (f : Fld) (x : Nat) : (d.setFld off f x).bos = d.bos := by simp only [Dev.setFld, Dev.setReg_bos]
@[simp] theorem Dev.setFld_pwr (off : Nat) (f : Fld) (x : Nat) : (d.setFld off f x).pwr = d.pwr := by simp only [Dev.setFld, Dev.setReg_pwr]
@[simp] theorem Dev.setFld_pins (off : Nat) (f : Fld) (x : Nat) : (d.setFld off f x).pins = d.pins := by simp only [Dev.setFld, Dev.setReg_pins]
@[simp] theorem Dev.setFld_tap (off : Nat) (f : Fld) (x : Nat) : (d.setFld off f x).tap = d.tap := by simp only [Dev.setFld, Dev.setReg_tap]
@[simp] theorem Dev.setFld_out (off : Nat) (f : Fld) (x : Nat) : (d.setFld off f x).out = d.out := by simp only [Dev.setFld, Dev.setReg_out]
@[simp] theorem Dev.setFld_freeCtr (off : Nat) (f : Fld) (x : Nat) : (d.setFld off f x).freeCtr = d.freeCtr := by simp only [Dev.setFld, Dev.setReg_freeCtr]

/-! ### setFlag -/

@[simp] theorem Dev.setFlag_caps (off : Nat) (f : Fld) (b : Bool) : (d.setFlag off f b).caps = d.caps := by simp only [Dev.setFlag, Dev.setFld_caps]
@[simp] theorem Dev.setFlag_mem (off : Nat) (f : Fld) (b : Bool) : (d.setFlag off f b).mem = d.mem := by simp only [Dev.setFlag, Dev.setFld_mem]
@[simp] theorem Dev.setFlag_ecc (off : Nat) (f : Fld) (b : Bool) : (d.setFlag off f b).ecc = d.ecc := by simp only [Dev.setFlag, Dev.setFld_ecc]
@[simp] theorem Dev.setFlag_wb (off : Nat) (f : Fld) (b : Bool) : (d.setFlag off f b).wb = d.wb := by simp only [Dev.setFlag, Dev.setFld_wb]
@[simp] theorem Dev.setFlag_tiles (off : Nat) (f : Fld) (b : Bool) : (d.setFlag off f b).tiles = d.tiles := by simp only [Dev.setFlag, Dev.setFld_tiles]
@[simp] theorem Dev.setFlag_yards (off : Nat) (f : Fld) (b : Bool) : (d.setFlag off f b).yards = d.yards := by simp only [Dev.setFlag, Dev.setFld_yards]
@[simp] theorem Dev.setFlag_routes (off : Nat) (f : Fld) (b : Bool) : (d.setFlag off f b).routes = d.routes := by simp only [Dev.setFlag, Dev.setFld_routes]
@[simp] theorem Dev.setFlag_nodes (off : Nat) (f : Fld) (b : Bool) : (d.setFlag off f b).nodes = d.nodes := by simp only [Dev.setFlag, Dev.setFld_nodes]
@[simp] theorem Dev.setFlag_bufs (off : Nat) (f : Fld) (b : Bool) : (d.setFlag off f b).bufs = d.bufs := by simp only [Dev.setFlag, Dev.setFld_bufs]
@[simp] theorem Dev.setFlag_chunks (off : Nat) (f : Fld) (b : Bool) : (d.setFlag off f b).chunks = d.chunks := by simp only [Dev.setFlag, Dev.setFld_chunks]
@[simp] theorem Dev.setFlag_units (off : Nat) (f : Fld) (b : Bool) : (d.setFlag off f b).units = d.units := by simp only [Dev.setFlag, Dev.setFld_units]
@[simp] theorem Dev.setFlag_hal (off : Nat) (f : Fld) (b : Bool) : (d.setFlag off f b).hal = d.hal := by simp only [Dev.setFlag, Dev.setFld_hal]
@[simp] theorem Dev.setFlag_press (off : Nat) (f : Fld) (b : Bool) : (d.setFlag off f b).press = d.press := by simp only [Dev.setFlag, Dev.setFld_press]
@[simp] theorem Dev.setFlag_hold (off : Nat) (f : Fld) (b : Bool) : (d.setFlag off f b).hold = d.hold := by simp only [Dev.setFlag, Dev.setFld_hold]
@[simp] theorem Dev.setFlag_links (off : Nat) (f : Fld) (b : Bool) : (d.setFlag off f b).links = d.links := by simp only [Dev.setFlag, Dev.setFld_links]
@[simp] theorem Dev.setFlag_job (off : Nat) (f : Fld) (b : Bool) : (d.setFlag off f b).job = d.job := by simp only [Dev.setFlag, Dev.setFld_job]
@[simp] theorem Dev.setFlag_host (off : Nat) (f : Fld) (b : Bool) : (d.setFlag off f b).host = d.host := by simp only [Dev.setFlag, Dev.setFld_host]
@[simp] theorem Dev.setFlag_bos (off : Nat) (f : Fld) (b : Bool) : (d.setFlag off f b).bos = d.bos := by simp only [Dev.setFlag, Dev.setFld_bos]
@[simp] theorem Dev.setFlag_pwr (off : Nat) (f : Fld) (b : Bool) : (d.setFlag off f b).pwr = d.pwr := by simp only [Dev.setFlag, Dev.setFld_pwr]
@[simp] theorem Dev.setFlag_pins (off : Nat) (f : Fld) (b : Bool) : (d.setFlag off f b).pins = d.pins := by simp only [Dev.setFlag, Dev.setFld_pins]
@[simp] theorem Dev.setFlag_tap (off : Nat) (f : Fld) (b : Bool) : (d.setFlag off f b).tap = d.tap := by simp only [Dev.setFlag, Dev.setFld_tap]
@[simp] theorem Dev.setFlag_out (off : Nat) (f : Fld) (b : Bool) : (d.setFlag off f b).out = d.out := by simp only [Dev.setFlag, Dev.setFld_out]
@[simp] theorem Dev.setFlag_freeCtr (off : Nat) (f : Fld) (b : Bool) : (d.setFlag off f b).freeCtr = d.freeCtr := by simp only [Dev.setFlag, Dev.setFld_freeCtr]

/-! ### satFld -/

@[simp] theorem Dev.satFld_caps (off : Nat) (f : Fld) (n : Nat) : (d.satFld off f n).caps = d.caps := by simp only [Dev.satFld, Dev.setFld_caps]
@[simp] theorem Dev.satFld_mem (off : Nat) (f : Fld) (n : Nat) : (d.satFld off f n).mem = d.mem := by simp only [Dev.satFld, Dev.setFld_mem]
@[simp] theorem Dev.satFld_ecc (off : Nat) (f : Fld) (n : Nat) : (d.satFld off f n).ecc = d.ecc := by simp only [Dev.satFld, Dev.setFld_ecc]
@[simp] theorem Dev.satFld_wb (off : Nat) (f : Fld) (n : Nat) : (d.satFld off f n).wb = d.wb := by simp only [Dev.satFld, Dev.setFld_wb]
@[simp] theorem Dev.satFld_tiles (off : Nat) (f : Fld) (n : Nat) : (d.satFld off f n).tiles = d.tiles := by simp only [Dev.satFld, Dev.setFld_tiles]
@[simp] theorem Dev.satFld_yards (off : Nat) (f : Fld) (n : Nat) : (d.satFld off f n).yards = d.yards := by simp only [Dev.satFld, Dev.setFld_yards]
@[simp] theorem Dev.satFld_routes (off : Nat) (f : Fld) (n : Nat) : (d.satFld off f n).routes = d.routes := by simp only [Dev.satFld, Dev.setFld_routes]
@[simp] theorem Dev.satFld_nodes (off : Nat) (f : Fld) (n : Nat) : (d.satFld off f n).nodes = d.nodes := by simp only [Dev.satFld, Dev.setFld_nodes]
@[simp] theorem Dev.satFld_bufs (off : Nat) (f : Fld) (n : Nat) : (d.satFld off f n).bufs = d.bufs := by simp only [Dev.satFld, Dev.setFld_bufs]
@[simp] theorem Dev.satFld_chunks (off : Nat) (f : Fld) (n : Nat) : (d.satFld off f n).chunks = d.chunks := by simp only [Dev.satFld, Dev.setFld_chunks]
@[simp] theorem Dev.satFld_units (off : Nat) (f : Fld) (n : Nat) : (d.satFld off f n).units = d.units := by simp only [Dev.satFld, Dev.setFld_units]
@[simp] theorem Dev.satFld_hal (off : Nat) (f : Fld) (n : Nat) : (d.satFld off f n).hal = d.hal := by simp only [Dev.satFld, Dev.setFld_hal]
@[simp] theorem Dev.satFld_press (off : Nat) (f : Fld) (n : Nat) : (d.satFld off f n).press = d.press := by simp only [Dev.satFld, Dev.setFld_press]
@[simp] theorem Dev.satFld_hold (off : Nat) (f : Fld) (n : Nat) : (d.satFld off f n).hold = d.hold := by simp only [Dev.satFld, Dev.setFld_hold]
@[simp] theorem Dev.satFld_links (off : Nat) (f : Fld) (n : Nat) : (d.satFld off f n).links = d.links := by simp only [Dev.satFld, Dev.setFld_links]
@[simp] theorem Dev.satFld_job (off : Nat) (f : Fld) (n : Nat) : (d.satFld off f n).job = d.job := by simp only [Dev.satFld, Dev.setFld_job]
@[simp] theorem Dev.satFld_host (off : Nat) (f : Fld) (n : Nat) : (d.satFld off f n).host = d.host := by simp only [Dev.satFld, Dev.setFld_host]
@[simp] theorem Dev.satFld_bos (off : Nat) (f : Fld) (n : Nat) : (d.satFld off f n).bos = d.bos := by simp only [Dev.satFld, Dev.setFld_bos]
@[simp] theorem Dev.satFld_pwr (off : Nat) (f : Fld) (n : Nat) : (d.satFld off f n).pwr = d.pwr := by simp only [Dev.satFld, Dev.setFld_pwr]
@[simp] theorem Dev.satFld_pins (off : Nat) (f : Fld) (n : Nat) : (d.satFld off f n).pins = d.pins := by simp only [Dev.satFld, Dev.setFld_pins]
@[simp] theorem Dev.satFld_tap (off : Nat) (f : Fld) (n : Nat) : (d.satFld off f n).tap = d.tap := by simp only [Dev.satFld, Dev.setFld_tap]
@[simp] theorem Dev.satFld_out (off : Nat) (f : Fld) (n : Nat) : (d.satFld off f n).out = d.out := by simp only [Dev.satFld, Dev.setFld_out]
@[simp] theorem Dev.satFld_freeCtr (off : Nat) (f : Fld) (n : Nat) : (d.satFld off f n).freeCtr = d.freeCtr := by simp only [Dev.satFld, Dev.setFld_freeCtr]

/-! ### incFld -/

@[simp] theorem Dev.incFld_caps (off : Nat) (f : Fld) (n : Nat) : (d.incFld off f n).caps = d.caps := by simp only [Dev.incFld, Dev.setFld_caps]
@[simp] theorem Dev.incFld_mem (off : Nat) (f : Fld) (n : Nat) : (d.incFld off f n).mem = d.mem := by simp only [Dev.incFld, Dev.setFld_mem]
@[simp] theorem Dev.incFld_ecc (off : Nat) (f : Fld) (n : Nat) : (d.incFld off f n).ecc = d.ecc := by simp only [Dev.incFld, Dev.setFld_ecc]
@[simp] theorem Dev.incFld_wb (off : Nat) (f : Fld) (n : Nat) : (d.incFld off f n).wb = d.wb := by simp only [Dev.incFld, Dev.setFld_wb]
@[simp] theorem Dev.incFld_tiles (off : Nat) (f : Fld) (n : Nat) : (d.incFld off f n).tiles = d.tiles := by simp only [Dev.incFld, Dev.setFld_tiles]
@[simp] theorem Dev.incFld_yards (off : Nat) (f : Fld) (n : Nat) : (d.incFld off f n).yards = d.yards := by simp only [Dev.incFld, Dev.setFld_yards]
@[simp] theorem Dev.incFld_routes (off : Nat) (f : Fld) (n : Nat) : (d.incFld off f n).routes = d.routes := by simp only [Dev.incFld, Dev.setFld_routes]
@[simp] theorem Dev.incFld_nodes (off : Nat) (f : Fld) (n : Nat) : (d.incFld off f n).nodes = d.nodes := by simp only [Dev.incFld, Dev.setFld_nodes]
@[simp] theorem Dev.incFld_bufs (off : Nat) (f : Fld) (n : Nat) : (d.incFld off f n).bufs = d.bufs := by simp only [Dev.incFld, Dev.setFld_bufs]
@[simp] theorem Dev.incFld_chunks (off : Nat) (f : Fld) (n : Nat) : (d.incFld off f n).chunks = d.chunks := by simp only [Dev.incFld, Dev.setFld_chunks]
@[simp] theorem Dev.incFld_units (off : Nat) (f : Fld) (n : Nat) : (d.incFld off f n).units = d.units := by simp only [Dev.incFld, Dev.setFld_units]
@[simp] theorem Dev.incFld_hal (off : Nat) (f : Fld) (n : Nat) : (d.incFld off f n).hal = d.hal := by simp only [Dev.incFld, Dev.setFld_hal]
@[simp] theorem Dev.incFld_press (off : Nat) (f : Fld) (n : Nat) : (d.incFld off f n).press = d.press := by simp only [Dev.incFld, Dev.setFld_press]
@[simp] theorem Dev.incFld_hold (off : Nat) (f : Fld) (n : Nat) : (d.incFld off f n).hold = d.hold := by simp only [Dev.incFld, Dev.setFld_hold]
@[simp] theorem Dev.incFld_links (off : Nat) (f : Fld) (n : Nat) : (d.incFld off f n).links = d.links := by simp only [Dev.incFld, Dev.setFld_links]
@[simp] theorem Dev.incFld_job (off : Nat) (f : Fld) (n : Nat) : (d.incFld off f n).job = d.job := by simp only [Dev.incFld, Dev.setFld_job]
@[simp] theorem Dev.incFld_host (off : Nat) (f : Fld) (n : Nat) : (d.incFld off f n).host = d.host := by simp only [Dev.incFld, Dev.setFld_host]
@[simp] theorem Dev.incFld_bos (off : Nat) (f : Fld) (n : Nat) : (d.incFld off f n).bos = d.bos := by simp only [Dev.incFld, Dev.setFld_bos]
@[simp] theorem Dev.incFld_pwr (off : Nat) (f : Fld) (n : Nat) : (d.incFld off f n).pwr = d.pwr := by simp only [Dev.incFld, Dev.setFld_pwr]
@[simp] theorem Dev.incFld_pins (off : Nat) (f : Fld) (n : Nat) : (d.incFld off f n).pins = d.pins := by simp only [Dev.incFld, Dev.setFld_pins]
@[simp] theorem Dev.incFld_tap (off : Nat) (f : Fld) (n : Nat) : (d.incFld off f n).tap = d.tap := by simp only [Dev.incFld, Dev.setFld_tap]
@[simp] theorem Dev.incFld_out (off : Nat) (f : Fld) (n : Nat) : (d.incFld off f n).out = d.out := by simp only [Dev.incFld, Dev.setFld_out]
@[simp] theorem Dev.incFld_freeCtr (off : Nat) (f : Fld) (n : Nat) : (d.incFld off f n).freeCtr = d.freeCtr := by simp only [Dev.incFld, Dev.setFld_freeCtr]

/-! ### setReg64 -/

@[simp] theorem Dev.setReg64_caps (lo hi v : Nat) : (d.setReg64 lo hi v).caps = d.caps := by simp only [Dev.setReg64, Dev.setReg_caps]
@[simp] theorem Dev.setReg64_mem (lo hi v : Nat) : (d.setReg64 lo hi v).mem = d.mem := by simp only [Dev.setReg64, Dev.setReg_mem]
@[simp] theorem Dev.setReg64_ecc (lo hi v : Nat) : (d.setReg64 lo hi v).ecc = d.ecc := by simp only [Dev.setReg64, Dev.setReg_ecc]
@[simp] theorem Dev.setReg64_wb (lo hi v : Nat) : (d.setReg64 lo hi v).wb = d.wb := by simp only [Dev.setReg64, Dev.setReg_wb]
@[simp] theorem Dev.setReg64_tiles (lo hi v : Nat) : (d.setReg64 lo hi v).tiles = d.tiles := by simp only [Dev.setReg64, Dev.setReg_tiles]
@[simp] theorem Dev.setReg64_yards (lo hi v : Nat) : (d.setReg64 lo hi v).yards = d.yards := by simp only [Dev.setReg64, Dev.setReg_yards]
@[simp] theorem Dev.setReg64_routes (lo hi v : Nat) : (d.setReg64 lo hi v).routes = d.routes := by simp only [Dev.setReg64, Dev.setReg_routes]
@[simp] theorem Dev.setReg64_nodes (lo hi v : Nat) : (d.setReg64 lo hi v).nodes = d.nodes := by simp only [Dev.setReg64, Dev.setReg_nodes]
@[simp] theorem Dev.setReg64_bufs (lo hi v : Nat) : (d.setReg64 lo hi v).bufs = d.bufs := by simp only [Dev.setReg64, Dev.setReg_bufs]
@[simp] theorem Dev.setReg64_chunks (lo hi v : Nat) : (d.setReg64 lo hi v).chunks = d.chunks := by simp only [Dev.setReg64, Dev.setReg_chunks]
@[simp] theorem Dev.setReg64_units (lo hi v : Nat) : (d.setReg64 lo hi v).units = d.units := by simp only [Dev.setReg64, Dev.setReg_units]
@[simp] theorem Dev.setReg64_hal (lo hi v : Nat) : (d.setReg64 lo hi v).hal = d.hal := by simp only [Dev.setReg64, Dev.setReg_hal]
@[simp] theorem Dev.setReg64_press (lo hi v : Nat) : (d.setReg64 lo hi v).press = d.press := by simp only [Dev.setReg64, Dev.setReg_press]
@[simp] theorem Dev.setReg64_hold (lo hi v : Nat) : (d.setReg64 lo hi v).hold = d.hold := by simp only [Dev.setReg64, Dev.setReg_hold]
@[simp] theorem Dev.setReg64_links (lo hi v : Nat) : (d.setReg64 lo hi v).links = d.links := by simp only [Dev.setReg64, Dev.setReg_links]
@[simp] theorem Dev.setReg64_job (lo hi v : Nat) : (d.setReg64 lo hi v).job = d.job := by simp only [Dev.setReg64, Dev.setReg_job]
@[simp] theorem Dev.setReg64_host (lo hi v : Nat) : (d.setReg64 lo hi v).host = d.host := by simp only [Dev.setReg64, Dev.setReg_host]
@[simp] theorem Dev.setReg64_bos (lo hi v : Nat) : (d.setReg64 lo hi v).bos = d.bos := by simp only [Dev.setReg64, Dev.setReg_bos]
@[simp] theorem Dev.setReg64_pwr (lo hi v : Nat) : (d.setReg64 lo hi v).pwr = d.pwr := by simp only [Dev.setReg64, Dev.setReg_pwr]
@[simp] theorem Dev.setReg64_pins (lo hi v : Nat) : (d.setReg64 lo hi v).pins = d.pins := by simp only [Dev.setReg64, Dev.setReg_pins]
@[simp] theorem Dev.setReg64_tap (lo hi v : Nat) : (d.setReg64 lo hi v).tap = d.tap := by simp only [Dev.setReg64, Dev.setReg_tap]
@[simp] theorem Dev.setReg64_out (lo hi v : Nat) : (d.setReg64 lo hi v).out = d.out := by simp only [Dev.setReg64, Dev.setReg_out]
@[simp] theorem Dev.setReg64_freeCtr (lo hi v : Nat) : (d.setReg64 lo hi v).freeCtr = d.freeCtr := by simp only [Dev.setReg64, Dev.setReg_freeCtr]

/-! ### inc64 -/

@[simp] theorem Dev.inc64_caps (lo hi n : Nat) : (d.inc64 lo hi n).caps = d.caps := by simp only [Dev.inc64, Dev.setReg64_caps]
@[simp] theorem Dev.inc64_mem (lo hi n : Nat) : (d.inc64 lo hi n).mem = d.mem := by simp only [Dev.inc64, Dev.setReg64_mem]
@[simp] theorem Dev.inc64_ecc (lo hi n : Nat) : (d.inc64 lo hi n).ecc = d.ecc := by simp only [Dev.inc64, Dev.setReg64_ecc]
@[simp] theorem Dev.inc64_wb (lo hi n : Nat) : (d.inc64 lo hi n).wb = d.wb := by simp only [Dev.inc64, Dev.setReg64_wb]
@[simp] theorem Dev.inc64_tiles (lo hi n : Nat) : (d.inc64 lo hi n).tiles = d.tiles := by simp only [Dev.inc64, Dev.setReg64_tiles]
@[simp] theorem Dev.inc64_yards (lo hi n : Nat) : (d.inc64 lo hi n).yards = d.yards := by simp only [Dev.inc64, Dev.setReg64_yards]
@[simp] theorem Dev.inc64_routes (lo hi n : Nat) : (d.inc64 lo hi n).routes = d.routes := by simp only [Dev.inc64, Dev.setReg64_routes]
@[simp] theorem Dev.inc64_nodes (lo hi n : Nat) : (d.inc64 lo hi n).nodes = d.nodes := by simp only [Dev.inc64, Dev.setReg64_nodes]
@[simp] theorem Dev.inc64_bufs (lo hi n : Nat) : (d.inc64 lo hi n).bufs = d.bufs := by simp only [Dev.inc64, Dev.setReg64_bufs]
@[simp] theorem Dev.inc64_chunks (lo hi n : Nat) : (d.inc64 lo hi n).chunks = d.chunks := by simp only [Dev.inc64, Dev.setReg64_chunks]
@[simp] theorem Dev.inc64_units (lo hi n : Nat) : (d.inc64 lo hi n).units = d.units := by simp only [Dev.inc64, Dev.setReg64_units]
@[simp] theorem Dev.inc64_hal (lo hi n : Nat) : (d.inc64 lo hi n).hal = d.hal := by simp only [Dev.inc64, Dev.setReg64_hal]
@[simp] theorem Dev.inc64_press (lo hi n : Nat) : (d.inc64 lo hi n).press = d.press := by simp only [Dev.inc64, Dev.setReg64_press]
@[simp] theorem Dev.inc64_hold (lo hi n : Nat) : (d.inc64 lo hi n).hold = d.hold := by simp only [Dev.inc64, Dev.setReg64_hold]
@[simp] theorem Dev.inc64_links (lo hi n : Nat) : (d.inc64 lo hi n).links = d.links := by simp only [Dev.inc64, Dev.setReg64_links]
@[simp] theorem Dev.inc64_job (lo hi n : Nat) : (d.inc64 lo hi n).job = d.job := by simp only [Dev.inc64, Dev.setReg64_job]
@[simp] theorem Dev.inc64_host (lo hi n : Nat) : (d.inc64 lo hi n).host = d.host := by simp only [Dev.inc64, Dev.setReg64_host]
@[simp] theorem Dev.inc64_bos (lo hi n : Nat) : (d.inc64 lo hi n).bos = d.bos := by simp only [Dev.inc64, Dev.setReg64_bos]
@[simp] theorem Dev.inc64_pwr (lo hi n : Nat) : (d.inc64 lo hi n).pwr = d.pwr := by simp only [Dev.inc64, Dev.setReg64_pwr]
@[simp] theorem Dev.inc64_pins (lo hi n : Nat) : (d.inc64 lo hi n).pins = d.pins := by simp only [Dev.inc64, Dev.setReg64_pins]
@[simp] theorem Dev.inc64_tap (lo hi n : Nat) : (d.inc64 lo hi n).tap = d.tap := by simp only [Dev.inc64, Dev.setReg64_tap]
@[simp] theorem Dev.inc64_out (lo hi n : Nat) : (d.inc64 lo hi n).out = d.out := by simp only [Dev.inc64, Dev.setReg64_out]
@[simp] theorem Dev.inc64_freeCtr (lo hi n : Nat) : (d.inc64 lo hi n).freeCtr = d.freeCtr := by simp only [Dev.inc64, Dev.setReg64_freeCtr]

/-! ### counted -/

@[simp] theorem Dev.counted_caps (p : Nat) : (d.counted p).caps = d.caps := by simp only [Dev.counted, Dev.inc64_caps]
@[simp] theorem Dev.counted_mem (p : Nat) : (d.counted p).mem = d.mem := by simp only [Dev.counted, Dev.inc64_mem]
@[simp] theorem Dev.counted_ecc (p : Nat) : (d.counted p).ecc = d.ecc := by simp only [Dev.counted, Dev.inc64_ecc]
@[simp] theorem Dev.counted_wb (p : Nat) : (d.counted p).wb = d.wb := by simp only [Dev.counted, Dev.inc64_wb]
@[simp] theorem Dev.counted_tiles (p : Nat) : (d.counted p).tiles = d.tiles := by simp only [Dev.counted, Dev.inc64_tiles]
@[simp] theorem Dev.counted_yards (p : Nat) : (d.counted p).yards = d.yards := by simp only [Dev.counted, Dev.inc64_yards]
@[simp] theorem Dev.counted_routes (p : Nat) : (d.counted p).routes = d.routes := by simp only [Dev.counted, Dev.inc64_routes]
@[simp] theorem Dev.counted_nodes (p : Nat) : (d.counted p).nodes = d.nodes := by simp only [Dev.counted, Dev.inc64_nodes]
@[simp] theorem Dev.counted_bufs (p : Nat) : (d.counted p).bufs = d.bufs := by simp only [Dev.counted, Dev.inc64_bufs]
@[simp] theorem Dev.counted_chunks (p : Nat) : (d.counted p).chunks = d.chunks := by simp only [Dev.counted, Dev.inc64_chunks]
@[simp] theorem Dev.counted_units (p : Nat) : (d.counted p).units = d.units := by simp only [Dev.counted, Dev.inc64_units]
@[simp] theorem Dev.counted_hal (p : Nat) : (d.counted p).hal = d.hal := by simp only [Dev.counted, Dev.inc64_hal]
@[simp] theorem Dev.counted_press (p : Nat) : (d.counted p).press = d.press := by simp only [Dev.counted, Dev.inc64_press]
@[simp] theorem Dev.counted_hold (p : Nat) : (d.counted p).hold = d.hold := by simp only [Dev.counted, Dev.inc64_hold]
@[simp] theorem Dev.counted_links (p : Nat) : (d.counted p).links = d.links := by simp only [Dev.counted, Dev.inc64_links]
@[simp] theorem Dev.counted_job (p : Nat) : (d.counted p).job = d.job := by simp only [Dev.counted, Dev.inc64_job]
@[simp] theorem Dev.counted_host (p : Nat) : (d.counted p).host = d.host := by simp only [Dev.counted, Dev.inc64_host]
@[simp] theorem Dev.counted_bos (p : Nat) : (d.counted p).bos = d.bos := by simp only [Dev.counted, Dev.inc64_bos]
@[simp] theorem Dev.counted_pwr (p : Nat) : (d.counted p).pwr = d.pwr := by simp only [Dev.counted, Dev.inc64_pwr]
@[simp] theorem Dev.counted_pins (p : Nat) : (d.counted p).pins = d.pins := by simp only [Dev.counted, Dev.inc64_pins]
@[simp] theorem Dev.counted_tap (p : Nat) : (d.counted p).tap = d.tap := by simp only [Dev.counted, Dev.inc64_tap]
@[simp] theorem Dev.counted_out (p : Nat) : (d.counted p).out = d.out := by simp only [Dev.counted, Dev.inc64_out]
@[simp] theorem Dev.counted_freeCtr (p : Nat) : (d.counted p).freeCtr = d.freeCtr := by simp only [Dev.counted, Dev.inc64_freeCtr]

/-! ### dropRegs -/

@[simp] theorem Dev.dropRegs_caps (p : RegName → Bool) : (d.dropRegs p).caps = d.caps := rfl
@[simp] theorem Dev.dropRegs_mem (p : RegName → Bool) : (d.dropRegs p).mem = d.mem := rfl
@[simp] theorem Dev.dropRegs_ecc (p : RegName → Bool) : (d.dropRegs p).ecc = d.ecc := rfl
@[simp] theorem Dev.dropRegs_wb (p : RegName → Bool) : (d.dropRegs p).wb = d.wb := rfl
@[simp] theorem Dev.dropRegs_tiles (p : RegName → Bool) : (d.dropRegs p).tiles = d.tiles := rfl
@[simp] theorem Dev.dropRegs_yards (p : RegName → Bool) : (d.dropRegs p).yards = d.yards := rfl
@[simp] theorem Dev.dropRegs_routes (p : RegName → Bool) : (d.dropRegs p).routes = d.routes := rfl
@[simp] theorem Dev.dropRegs_nodes (p : RegName → Bool) : (d.dropRegs p).nodes = d.nodes := rfl
@[simp] theorem Dev.dropRegs_bufs (p : RegName → Bool) : (d.dropRegs p).bufs = d.bufs := rfl
@[simp] theorem Dev.dropRegs_chunks (p : RegName → Bool) : (d.dropRegs p).chunks = d.chunks := rfl
@[simp] theorem Dev.dropRegs_units (p : RegName → Bool) : (d.dropRegs p).units = d.units := rfl
@[simp] theorem Dev.dropRegs_hal (p : RegName → Bool) : (d.dropRegs p).hal = d.hal := rfl
@[simp] theorem Dev.dropRegs_press (p : RegName → Bool) : (d.dropRegs p).press = d.press := rfl
@[simp] theorem Dev.dropRegs_hold (p : RegName → Bool) : (d.dropRegs p).hold = d.hold := rfl
@[simp] theorem Dev.dropRegs_links (p : RegName → Bool) : (d.dropRegs p).links = d.links := rfl
@[simp] theorem Dev.dropRegs_job (p : RegName → Bool) : (d.dropRegs p).job = d.job := rfl
@[simp] theorem Dev.dropRegs_host (p : RegName → Bool) : (d.dropRegs p).host = d.host := rfl
@[simp] theorem Dev.dropRegs_bos (p : RegName → Bool) : (d.dropRegs p).bos = d.bos := rfl
@[simp] theorem Dev.dropRegs_pwr (p : RegName → Bool) : (d.dropRegs p).pwr = d.pwr := rfl
@[simp] theorem Dev.dropRegs_pins (p : RegName → Bool) : (d.dropRegs p).pins = d.pins := rfl
@[simp] theorem Dev.dropRegs_tap (p : RegName → Bool) : (d.dropRegs p).tap = d.tap := rfl
@[simp] theorem Dev.dropRegs_out (p : RegName → Bool) : (d.dropRegs p).out = d.out := rfl
@[simp] theorem Dev.dropRegs_freeCtr (p : RegName → Bool) : (d.dropRegs p).freeCtr = d.freeCtr := rfl

/-! ### store -/

@[simp] theorem Dev.store_regs (a : Nat) (bs : List Byte) : (d.store a bs).regs = d.regs := rfl
@[simp] theorem Dev.store_caps (a : Nat) (bs : List Byte) : (d.store a bs).caps = d.caps := rfl
@[simp] theorem Dev.store_wb (a : Nat) (bs : List Byte) : (d.store a bs).wb = d.wb := rfl
@[simp] theorem Dev.store_tiles (a : Nat) (bs : List Byte) : (d.store a bs).tiles = d.tiles := rfl
@[simp] theorem Dev.store_yards (a : Nat) (bs : List Byte) : (d.store a bs).yards = d.yards := rfl
@[simp] theorem Dev.store_routes (a : Nat) (bs : List Byte) : (d.store a bs).routes = d.routes := rfl
@[simp] theorem Dev.store_nodes (a : Nat) (bs : List Byte) : (d.store a bs).nodes = d.nodes := rfl
@[simp] theorem Dev.store_bufs (a : Nat) (bs : List Byte) : (d.store a bs).bufs = d.bufs := rfl
@[simp] theorem Dev.store_chunks (a : Nat) (bs : List Byte) : (d.store a bs).chunks = d.chunks := rfl
@[simp] theorem Dev.store_units (a : Nat) (bs : List Byte) : (d.store a bs).units = d.units := rfl
@[simp] theorem Dev.store_hal (a : Nat) (bs : List Byte) : (d.store a bs).hal = d.hal := rfl
@[simp] theorem Dev.store_press (a : Nat) (bs : List Byte) : (d.store a bs).press = d.press := rfl
@[simp] theorem Dev.store_hold (a : Nat) (bs : List Byte) : (d.store a bs).hold = d.hold := rfl
@[simp] theorem Dev.store_links (a : Nat) (bs : List Byte) : (d.store a bs).links = d.links := rfl
@[simp] theorem Dev.store_job (a : Nat) (bs : List Byte) : (d.store a bs).job = d.job := rfl
@[simp] theorem Dev.store_host (a : Nat) (bs : List Byte) : (d.store a bs).host = d.host := rfl
@[simp] theorem Dev.store_bos (a : Nat) (bs : List Byte) : (d.store a bs).bos = d.bos := rfl
@[simp] theorem Dev.store_pwr (a : Nat) (bs : List Byte) : (d.store a bs).pwr = d.pwr := rfl
@[simp] theorem Dev.store_pins (a : Nat) (bs : List Byte) : (d.store a bs).pins = d.pins := rfl
@[simp] theorem Dev.store_tap (a : Nat) (bs : List Byte) : (d.store a bs).tap = d.tap := rfl
@[simp] theorem Dev.store_out (a : Nat) (bs : List Byte) : (d.store a bs).out = d.out := rfl
@[simp] theorem Dev.store_freeCtr (a : Nat) (bs : List Byte) : (d.store a bs).freeCtr = d.freeCtr := rfl

/-! ### storeNat -/

@[simp] theorem Dev.storeNat_regs (a n v : Nat) : (d.storeNat a n v).regs = d.regs := by simp only [Dev.storeNat, Dev.store_regs]
@[simp] theorem Dev.storeNat_caps (a n v : Nat) : (d.storeNat a n v).caps = d.caps := by simp only [Dev.storeNat, Dev.store_caps]
@[simp] theorem Dev.storeNat_wb (a n v : Nat) : (d.storeNat a n v).wb = d.wb := by simp only [Dev.storeNat, Dev.store_wb]
@[simp] theorem Dev.storeNat_tiles (a n v : Nat) : (d.storeNat a n v).tiles = d.tiles := by simp only [Dev.storeNat, Dev.store_tiles]
@[simp] theorem Dev.storeNat_yards (a n v : Nat) : (d.storeNat a n v).yards = d.yards := by simp only [Dev.storeNat, Dev.store_yards]
@[simp] theorem Dev.storeNat_routes (a n v : Nat) : (d.storeNat a n v).routes = d.routes := by simp only [Dev.storeNat, Dev.store_routes]
@[simp] theorem Dev.storeNat_nodes (a n v : Nat) : (d.storeNat a n v).nodes = d.nodes := by simp only [Dev.storeNat, Dev.store_nodes]
@[simp] theorem Dev.storeNat_bufs (a n v : Nat) : (d.storeNat a n v).bufs = d.bufs := by simp only [Dev.storeNat, Dev.store_bufs]
@[simp] theorem Dev.storeNat_chunks (a n v : Nat) : (d.storeNat a n v).chunks = d.chunks := by simp only [Dev.storeNat, Dev.store_chunks]
@[simp] theorem Dev.storeNat_units (a n v : Nat) : (d.storeNat a n v).units = d.units := by simp only [Dev.storeNat, Dev.store_units]
@[simp] theorem Dev.storeNat_hal (a n v : Nat) : (d.storeNat a n v).hal = d.hal := by simp only [Dev.storeNat, Dev.store_hal]
@[simp] theorem Dev.storeNat_press (a n v : Nat) : (d.storeNat a n v).press = d.press := by simp only [Dev.storeNat, Dev.store_press]
@[simp] theorem Dev.storeNat_hold (a n v : Nat) : (d.storeNat a n v).hold = d.hold := by simp only [Dev.storeNat, Dev.store_hold]
@[simp] theorem Dev.storeNat_links (a n v : Nat) : (d.storeNat a n v).links = d.links := by simp only [Dev.storeNat, Dev.store_links]
@[simp] theorem Dev.storeNat_job (a n v : Nat) : (d.storeNat a n v).job = d.job := by simp only [Dev.storeNat, Dev.store_job]
@[simp] theorem Dev.storeNat_host (a n v : Nat) : (d.storeNat a n v).host = d.host := by simp only [Dev.storeNat, Dev.store_host]
@[simp] theorem Dev.storeNat_bos (a n v : Nat) : (d.storeNat a n v).bos = d.bos := by simp only [Dev.storeNat, Dev.store_bos]
@[simp] theorem Dev.storeNat_pwr (a n v : Nat) : (d.storeNat a n v).pwr = d.pwr := by simp only [Dev.storeNat, Dev.store_pwr]
@[simp] theorem Dev.storeNat_pins (a n v : Nat) : (d.storeNat a n v).pins = d.pins := by simp only [Dev.storeNat, Dev.store_pins]
@[simp] theorem Dev.storeNat_tap (a n v : Nat) : (d.storeNat a n v).tap = d.tap := by simp only [Dev.storeNat, Dev.store_tap]
@[simp] theorem Dev.storeNat_out (a n v : Nat) : (d.storeNat a n v).out = d.out := by simp only [Dev.storeNat, Dev.store_out]
@[simp] theorem Dev.storeNat_freeCtr (a n v : Nat) : (d.storeNat a n v).freeCtr = d.freeCtr := by simp only [Dev.storeNat, Dev.store_freeCtr]

/-! ### dropMem -/

@[simp] theorem Dev.dropMem_regs (p : Nat → Bool) : (d.dropMem p).regs = d.regs := rfl
@[simp] theorem Dev.dropMem_caps (p : Nat → Bool) : (d.dropMem p).caps = d.caps := rfl
@[simp] theorem Dev.dropMem_tiles (p : Nat → Bool) : (d.dropMem p).tiles = d.tiles := rfl
@[simp] theorem Dev.dropMem_yards (p : Nat → Bool) : (d.dropMem p).yards = d.yards := rfl
@[simp] theorem Dev.dropMem_routes (p : Nat → Bool) : (d.dropMem p).routes = d.routes := rfl
@[simp] theorem Dev.dropMem_nodes (p : Nat → Bool) : (d.dropMem p).nodes = d.nodes := rfl
@[simp] theorem Dev.dropMem_bufs (p : Nat → Bool) : (d.dropMem p).bufs = d.bufs := rfl
@[simp] theorem Dev.dropMem_chunks (p : Nat → Bool) : (d.dropMem p).chunks = d.chunks := rfl
@[simp] theorem Dev.dropMem_units (p : Nat → Bool) : (d.dropMem p).units = d.units := rfl
@[simp] theorem Dev.dropMem_hal (p : Nat → Bool) : (d.dropMem p).hal = d.hal := rfl
@[simp] theorem Dev.dropMem_press (p : Nat → Bool) : (d.dropMem p).press = d.press := rfl
@[simp] theorem Dev.dropMem_hold (p : Nat → Bool) : (d.dropMem p).hold = d.hold := rfl
@[simp] theorem Dev.dropMem_links (p : Nat → Bool) : (d.dropMem p).links = d.links := rfl
@[simp] theorem Dev.dropMem_job (p : Nat → Bool) : (d.dropMem p).job = d.job := rfl
@[simp] theorem Dev.dropMem_host (p : Nat → Bool) : (d.dropMem p).host = d.host := rfl
@[simp] theorem Dev.dropMem_bos (p : Nat → Bool) : (d.dropMem p).bos = d.bos := rfl
@[simp] theorem Dev.dropMem_pwr (p : Nat → Bool) : (d.dropMem p).pwr = d.pwr := rfl
@[simp] theorem Dev.dropMem_pins (p : Nat → Bool) : (d.dropMem p).pins = d.pins := rfl
@[simp] theorem Dev.dropMem_tap (p : Nat → Bool) : (d.dropMem p).tap = d.tap := rfl
@[simp] theorem Dev.dropMem_out (p : Nat → Bool) : (d.dropMem p).out = d.out := rfl
@[simp] theorem Dev.dropMem_freeCtr (p : Nat → Bool) : (d.dropMem p).freeCtr = d.freeCtr := rfl

/-! ### canon -/

@[simp] theorem Dev.canon_caps : (d.canon).caps = d.caps := rfl
@[simp] theorem Dev.canon_ecc : (d.canon).ecc = d.ecc := rfl
@[simp] theorem Dev.canon_wb : (d.canon).wb = d.wb := rfl
@[simp] theorem Dev.canon_tiles : (d.canon).tiles = d.tiles := rfl
@[simp] theorem Dev.canon_yards : (d.canon).yards = d.yards := rfl
@[simp] theorem Dev.canon_routes : (d.canon).routes = d.routes := rfl
@[simp] theorem Dev.canon_nodes : (d.canon).nodes = d.nodes := rfl
@[simp] theorem Dev.canon_bufs : (d.canon).bufs = d.bufs := rfl
@[simp] theorem Dev.canon_chunks : (d.canon).chunks = d.chunks := rfl
@[simp] theorem Dev.canon_units : (d.canon).units = d.units := rfl
@[simp] theorem Dev.canon_hal : (d.canon).hal = d.hal := rfl
@[simp] theorem Dev.canon_press : (d.canon).press = d.press := rfl
@[simp] theorem Dev.canon_hold : (d.canon).hold = d.hold := rfl
@[simp] theorem Dev.canon_links : (d.canon).links = d.links := rfl
@[simp] theorem Dev.canon_job : (d.canon).job = d.job := rfl
@[simp] theorem Dev.canon_host : (d.canon).host = d.host := rfl
@[simp] theorem Dev.canon_bos : (d.canon).bos = d.bos := rfl
@[simp] theorem Dev.canon_pwr : (d.canon).pwr = d.pwr := rfl
@[simp] theorem Dev.canon_pins : (d.canon).pins = d.pins := rfl
@[simp] theorem Dev.canon_tap : (d.canon).tap = d.tap := rfl
@[simp] theorem Dev.canon_out : (d.canon).out = d.out := rfl
@[simp] theorem Dev.canon_freeCtr : (d.canon).freeCtr = d.freeCtr := rfl

/-! ### setTile -/

@[simp] theorem Dev.setTile_regs (p : Nat) (t : Tile) : (d.setTile p t).regs = d.regs := rfl
@[simp] theorem Dev.setTile_caps (p : Nat) (t : Tile) : (d.setTile p t).caps = d.caps := rfl
@[simp] theorem Dev.setTile_mem (p : Nat) (t : Tile) : (d.setTile p t).mem = d.mem := rfl
@[simp] theorem Dev.setTile_ecc (p : Nat) (t : Tile) : (d.setTile p t).ecc = d.ecc := rfl
@[simp] theorem Dev.setTile_wb (p : Nat) (t : Tile) : (d.setTile p t).wb = d.wb := rfl
@[simp] theorem Dev.setTile_yards (p : Nat) (t : Tile) : (d.setTile p t).yards = d.yards := rfl
@[simp] theorem Dev.setTile_routes (p : Nat) (t : Tile) : (d.setTile p t).routes = d.routes := rfl
@[simp] theorem Dev.setTile_nodes (p : Nat) (t : Tile) : (d.setTile p t).nodes = d.nodes := rfl
@[simp] theorem Dev.setTile_bufs (p : Nat) (t : Tile) : (d.setTile p t).bufs = d.bufs := rfl
@[simp] theorem Dev.setTile_chunks (p : Nat) (t : Tile) : (d.setTile p t).chunks = d.chunks := rfl
@[simp] theorem Dev.setTile_units (p : Nat) (t : Tile) : (d.setTile p t).units = d.units := rfl
@[simp] theorem Dev.setTile_hal (p : Nat) (t : Tile) : (d.setTile p t).hal = d.hal := rfl
@[simp] theorem Dev.setTile_press (p : Nat) (t : Tile) : (d.setTile p t).press = d.press := rfl
@[simp] theorem Dev.setTile_hold (p : Nat) (t : Tile) : (d.setTile p t).hold = d.hold := rfl
@[simp] theorem Dev.setTile_links (p : Nat) (t : Tile) : (d.setTile p t).links = d.links := rfl
@[simp] theorem Dev.setTile_job (p : Nat) (t : Tile) : (d.setTile p t).job = d.job := rfl
@[simp] theorem Dev.setTile_host (p : Nat) (t : Tile) : (d.setTile p t).host = d.host := rfl
@[simp] theorem Dev.setTile_bos (p : Nat) (t : Tile) : (d.setTile p t).bos = d.bos := rfl
@[simp] theorem Dev.setTile_pwr (p : Nat) (t : Tile) : (d.setTile p t).pwr = d.pwr := rfl
@[simp] theorem Dev.setTile_pins (p : Nat) (t : Tile) : (d.setTile p t).pins = d.pins := rfl
@[simp] theorem Dev.setTile_tap (p : Nat) (t : Tile) : (d.setTile p t).tap = d.tap := rfl
@[simp] theorem Dev.setTile_out (p : Nat) (t : Tile) : (d.setTile p t).out = d.out := rfl
@[simp] theorem Dev.setTile_freeCtr (p : Nat) (t : Tile) : (d.setTile p t).freeCtr = d.freeCtr := rfl

/-! ### modTile -/

@[simp] theorem Dev.modTile_regs (p : Nat) (f : Tile → Tile) : (d.modTile p f).regs = d.regs := by simp only [Dev.modTile, Dev.setTile_regs]
@[simp] theorem Dev.modTile_caps (p : Nat) (f : Tile → Tile) : (d.modTile p f).caps = d.caps := by simp only [Dev.modTile, Dev.setTile_caps]
@[simp] theorem Dev.modTile_mem (p : Nat) (f : Tile → Tile) : (d.modTile p f).mem = d.mem := by simp only [Dev.modTile, Dev.setTile_mem]
@[simp] theorem Dev.modTile_ecc (p : Nat) (f : Tile → Tile) : (d.modTile p f).ecc = d.ecc := by simp only [Dev.modTile, Dev.setTile_ecc]
@[simp] theorem Dev.modTile_wb (p : Nat) (f : Tile → Tile) : (d.modTile p f).wb = d.wb := by simp only [Dev.modTile, Dev.setTile_wb]
@[simp] theorem Dev.modTile_yards (p : Nat) (f : Tile → Tile) : (d.modTile p f).yards = d.yards := by simp only [Dev.modTile, Dev.setTile_yards]
@[simp] theorem Dev.modTile_routes (p : Nat) (f : Tile → Tile) : (d.modTile p f).routes = d.routes := by simp only [Dev.modTile, Dev.setTile_routes]
@[simp] theorem Dev.modTile_nodes (p : Nat) (f : Tile → Tile) : (d.modTile p f).nodes = d.nodes := by simp only [Dev.modTile, Dev.setTile_nodes]
@[simp] theorem Dev.modTile_bufs (p : Nat) (f : Tile → Tile) : (d.modTile p f).bufs = d.bufs := by simp only [Dev.modTile, Dev.setTile_bufs]
@[simp] theorem Dev.modTile_chunks (p : Nat) (f : Tile → Tile) : (d.modTile p f).chunks = d.chunks := by simp only [Dev.modTile, Dev.setTile_chunks]
@[simp] theorem Dev.modTile_units (p : Nat) (f : Tile → Tile) : (d.modTile p f).units = d.units := by simp only [Dev.modTile, Dev.setTile_units]
@[simp] theorem Dev.modTile_hal (p : Nat) (f : Tile → Tile) : (d.modTile p f).hal = d.hal := by simp only [Dev.modTile, Dev.setTile_hal]
@[simp] theorem Dev.modTile_press (p : Nat) (f : Tile → Tile) : (d.modTile p f).press = d.press := by simp only [Dev.modTile, Dev.setTile_press]
@[simp] theorem Dev.modTile_hold (p : Nat) (f : Tile → Tile) : (d.modTile p f).hold = d.hold := by simp only [Dev.modTile, Dev.setTile_hold]
@[simp] theorem Dev.modTile_links (p : Nat) (f : Tile → Tile) : (d.modTile p f).links = d.links := by simp only [Dev.modTile, Dev.setTile_links]
@[simp] theorem Dev.modTile_job (p : Nat) (f : Tile → Tile) : (d.modTile p f).job = d.job := by simp only [Dev.modTile, Dev.setTile_job]
@[simp] theorem Dev.modTile_host (p : Nat) (f : Tile → Tile) : (d.modTile p f).host = d.host := by simp only [Dev.modTile, Dev.setTile_host]
@[simp] theorem Dev.modTile_bos (p : Nat) (f : Tile → Tile) : (d.modTile p f).bos = d.bos := by simp only [Dev.modTile, Dev.setTile_bos]
@[simp] theorem Dev.modTile_pwr (p : Nat) (f : Tile → Tile) : (d.modTile p f).pwr = d.pwr := by simp only [Dev.modTile, Dev.setTile_pwr]
@[simp] theorem Dev.modTile_pins (p : Nat) (f : Tile → Tile) : (d.modTile p f).pins = d.pins := by simp only [Dev.modTile, Dev.setTile_pins]
@[simp] theorem Dev.modTile_tap (p : Nat) (f : Tile → Tile) : (d.modTile p f).tap = d.tap := by simp only [Dev.modTile, Dev.setTile_tap]
@[simp] theorem Dev.modTile_out (p : Nat) (f : Tile → Tile) : (d.modTile p f).out = d.out := by simp only [Dev.modTile, Dev.setTile_out]
@[simp] theorem Dev.modTile_freeCtr (p : Nat) (f : Tile → Tile) : (d.modTile p f).freeCtr = d.freeCtr := by simp only [Dev.modTile, Dev.setTile_freeCtr]

/-! ### setCore -/

@[simp] theorem Dev.setCore_regs (p c : Nat) (k : Core) : (d.setCore p c k).regs = d.regs := by simp only [Dev.setCore, Dev.modTile_regs]
@[simp] theorem Dev.setCore_caps (p c : Nat) (k : Core) : (d.setCore p c k).caps = d.caps := by simp only [Dev.setCore, Dev.modTile_caps]
@[simp] theorem Dev.setCore_mem (p c : Nat) (k : Core) : (d.setCore p c k).mem = d.mem := by simp only [Dev.setCore, Dev.modTile_mem]
@[simp] theorem Dev.setCore_ecc (p c : Nat) (k : Core) : (d.setCore p c k).ecc = d.ecc := by simp only [Dev.setCore, Dev.modTile_ecc]
@[simp] theorem Dev.setCore_wb (p c : Nat) (k : Core) : (d.setCore p c k).wb = d.wb := by simp only [Dev.setCore, Dev.modTile_wb]
@[simp] theorem Dev.setCore_yards (p c : Nat) (k : Core) : (d.setCore p c k).yards = d.yards := by simp only [Dev.setCore, Dev.modTile_yards]
@[simp] theorem Dev.setCore_routes (p c : Nat) (k : Core) : (d.setCore p c k).routes = d.routes := by simp only [Dev.setCore, Dev.modTile_routes]
@[simp] theorem Dev.setCore_nodes (p c : Nat) (k : Core) : (d.setCore p c k).nodes = d.nodes := by simp only [Dev.setCore, Dev.modTile_nodes]
@[simp] theorem Dev.setCore_bufs (p c : Nat) (k : Core) : (d.setCore p c k).bufs = d.bufs := by simp only [Dev.setCore, Dev.modTile_bufs]
@[simp] theorem Dev.setCore_chunks (p c : Nat) (k : Core) : (d.setCore p c k).chunks = d.chunks := by simp only [Dev.setCore, Dev.modTile_chunks]
@[simp] theorem Dev.setCore_units (p c : Nat) (k : Core) : (d.setCore p c k).units = d.units := by simp only [Dev.setCore, Dev.modTile_units]
@[simp] theorem Dev.setCore_hal (p c : Nat) (k : Core) : (d.setCore p c k).hal = d.hal := by simp only [Dev.setCore, Dev.modTile_hal]
@[simp] theorem Dev.setCore_press (p c : Nat) (k : Core) : (d.setCore p c k).press = d.press := by simp only [Dev.setCore, Dev.modTile_press]
@[simp] theorem Dev.setCore_hold (p c : Nat) (k : Core) : (d.setCore p c k).hold = d.hold := by simp only [Dev.setCore, Dev.modTile_hold]
@[simp] theorem Dev.setCore_links (p c : Nat) (k : Core) : (d.setCore p c k).links = d.links := by simp only [Dev.setCore, Dev.modTile_links]
@[simp] theorem Dev.setCore_job (p c : Nat) (k : Core) : (d.setCore p c k).job = d.job := by simp only [Dev.setCore, Dev.modTile_job]
@[simp] theorem Dev.setCore_host (p c : Nat) (k : Core) : (d.setCore p c k).host = d.host := by simp only [Dev.setCore, Dev.modTile_host]
@[simp] theorem Dev.setCore_bos (p c : Nat) (k : Core) : (d.setCore p c k).bos = d.bos := by simp only [Dev.setCore, Dev.modTile_bos]
@[simp] theorem Dev.setCore_pwr (p c : Nat) (k : Core) : (d.setCore p c k).pwr = d.pwr := by simp only [Dev.setCore, Dev.modTile_pwr]
@[simp] theorem Dev.setCore_pins (p c : Nat) (k : Core) : (d.setCore p c k).pins = d.pins := by simp only [Dev.setCore, Dev.modTile_pins]
@[simp] theorem Dev.setCore_tap (p c : Nat) (k : Core) : (d.setCore p c k).tap = d.tap := by simp only [Dev.setCore, Dev.modTile_tap]
@[simp] theorem Dev.setCore_out (p c : Nat) (k : Core) : (d.setCore p c k).out = d.out := by simp only [Dev.setCore, Dev.modTile_out]
@[simp] theorem Dev.setCore_freeCtr (p c : Nat) (k : Core) : (d.setCore p c k).freeCtr = d.freeCtr := by simp only [Dev.setCore, Dev.modTile_freeCtr]

/-! ### modCore -/

@[simp] theorem Dev.modCore_regs (p c : Nat) (f : Core → Core) : (d.modCore p c f).regs = d.regs := by simp only [Dev.modCore, Dev.setCore_regs]
@[simp] theorem Dev.modCore_caps (p c : Nat) (f : Core → Core) : (d.modCore p c f).caps = d.caps := by simp only [Dev.modCore, Dev.setCore_caps]
@[simp] theorem Dev.modCore_mem (p c : Nat) (f : Core → Core) : (d.modCore p c f).mem = d.mem := by simp only [Dev.modCore, Dev.setCore_mem]
@[simp] theorem Dev.modCore_ecc (p c : Nat) (f : Core → Core) : (d.modCore p c f).ecc = d.ecc := by simp only [Dev.modCore, Dev.setCore_ecc]
@[simp] theorem Dev.modCore_wb (p c : Nat) (f : Core → Core) : (d.modCore p c f).wb = d.wb := by simp only [Dev.modCore, Dev.setCore_wb]
@[simp] theorem Dev.modCore_yards (p c : Nat) (f : Core → Core) : (d.modCore p c f).yards = d.yards := by simp only [Dev.modCore, Dev.setCore_yards]
@[simp] theorem Dev.modCore_routes (p c : Nat) (f : Core → Core) : (d.modCore p c f).routes = d.routes := by simp only [Dev.modCore, Dev.setCore_routes]
@[simp] theorem Dev.modCore_nodes (p c : Nat) (f : Core → Core) : (d.modCore p c f).nodes = d.nodes := by simp only [Dev.modCore, Dev.setCore_nodes]
@[simp] theorem Dev.modCore_bufs (p c : Nat) (f : Core → Core) : (d.modCore p c f).bufs = d.bufs := by simp only [Dev.modCore, Dev.setCore_bufs]
@[simp] theorem Dev.modCore_chunks (p c : Nat) (f : Core → Core) : (d.modCore p c f).chunks = d.chunks := by simp only [Dev.modCore, Dev.setCore_chunks]
@[simp] theorem Dev.modCore_units (p c : Nat) (f : Core → Core) : (d.modCore p c f).units = d.units := by simp only [Dev.modCore, Dev.setCore_units]
@[simp] theorem Dev.modCore_hal (p c : Nat) (f : Core → Core) : (d.modCore p c f).hal = d.hal := by simp only [Dev.modCore, Dev.setCore_hal]
@[simp] theorem Dev.modCore_press (p c : Nat) (f : Core → Core) : (d.modCore p c f).press = d.press := by simp only [Dev.modCore, Dev.setCore_press]
@[simp] theorem Dev.modCore_hold (p c : Nat) (f : Core → Core) : (d.modCore p c f).hold = d.hold := by simp only [Dev.modCore, Dev.setCore_hold]
@[simp] theorem Dev.modCore_links (p c : Nat) (f : Core → Core) : (d.modCore p c f).links = d.links := by simp only [Dev.modCore, Dev.setCore_links]
@[simp] theorem Dev.modCore_job (p c : Nat) (f : Core → Core) : (d.modCore p c f).job = d.job := by simp only [Dev.modCore, Dev.setCore_job]
@[simp] theorem Dev.modCore_host (p c : Nat) (f : Core → Core) : (d.modCore p c f).host = d.host := by simp only [Dev.modCore, Dev.setCore_host]
@[simp] theorem Dev.modCore_bos (p c : Nat) (f : Core → Core) : (d.modCore p c f).bos = d.bos := by simp only [Dev.modCore, Dev.setCore_bos]
@[simp] theorem Dev.modCore_pwr (p c : Nat) (f : Core → Core) : (d.modCore p c f).pwr = d.pwr := by simp only [Dev.modCore, Dev.setCore_pwr]
@[simp] theorem Dev.modCore_pins (p c : Nat) (f : Core → Core) : (d.modCore p c f).pins = d.pins := by simp only [Dev.modCore, Dev.setCore_pins]
@[simp] theorem Dev.modCore_tap (p c : Nat) (f : Core → Core) : (d.modCore p c f).tap = d.tap := by simp only [Dev.modCore, Dev.setCore_tap]
@[simp] theorem Dev.modCore_out (p c : Nat) (f : Core → Core) : (d.modCore p c f).out = d.out := by simp only [Dev.modCore, Dev.setCore_out]
@[simp] theorem Dev.modCore_freeCtr (p c : Nat) (f : Core → Core) : (d.modCore p c f).freeCtr = d.freeCtr := by simp only [Dev.modCore, Dev.setCore_freeCtr]

/-! ### setGalley -/

@[simp] theorem Dev.setGalley_regs (p g : Nat) (x : Galley) : (d.setGalley p g x).regs = d.regs := by simp only [Dev.setGalley, Dev.modTile_regs]
@[simp] theorem Dev.setGalley_caps (p g : Nat) (x : Galley) : (d.setGalley p g x).caps = d.caps := by simp only [Dev.setGalley, Dev.modTile_caps]
@[simp] theorem Dev.setGalley_mem (p g : Nat) (x : Galley) : (d.setGalley p g x).mem = d.mem := by simp only [Dev.setGalley, Dev.modTile_mem]
@[simp] theorem Dev.setGalley_ecc (p g : Nat) (x : Galley) : (d.setGalley p g x).ecc = d.ecc := by simp only [Dev.setGalley, Dev.modTile_ecc]
@[simp] theorem Dev.setGalley_wb (p g : Nat) (x : Galley) : (d.setGalley p g x).wb = d.wb := by simp only [Dev.setGalley, Dev.modTile_wb]
@[simp] theorem Dev.setGalley_yards (p g : Nat) (x : Galley) : (d.setGalley p g x).yards = d.yards := by simp only [Dev.setGalley, Dev.modTile_yards]
@[simp] theorem Dev.setGalley_routes (p g : Nat) (x : Galley) : (d.setGalley p g x).routes = d.routes := by simp only [Dev.setGalley, Dev.modTile_routes]
@[simp] theorem Dev.setGalley_nodes (p g : Nat) (x : Galley) : (d.setGalley p g x).nodes = d.nodes := by simp only [Dev.setGalley, Dev.modTile_nodes]
@[simp] theorem Dev.setGalley_bufs (p g : Nat) (x : Galley) : (d.setGalley p g x).bufs = d.bufs := by simp only [Dev.setGalley, Dev.modTile_bufs]
@[simp] theorem Dev.setGalley_chunks (p g : Nat) (x : Galley) : (d.setGalley p g x).chunks = d.chunks := by simp only [Dev.setGalley, Dev.modTile_chunks]
@[simp] theorem Dev.setGalley_units (p g : Nat) (x : Galley) : (d.setGalley p g x).units = d.units := by simp only [Dev.setGalley, Dev.modTile_units]
@[simp] theorem Dev.setGalley_hal (p g : Nat) (x : Galley) : (d.setGalley p g x).hal = d.hal := by simp only [Dev.setGalley, Dev.modTile_hal]
@[simp] theorem Dev.setGalley_press (p g : Nat) (x : Galley) : (d.setGalley p g x).press = d.press := by simp only [Dev.setGalley, Dev.modTile_press]
@[simp] theorem Dev.setGalley_hold (p g : Nat) (x : Galley) : (d.setGalley p g x).hold = d.hold := by simp only [Dev.setGalley, Dev.modTile_hold]
@[simp] theorem Dev.setGalley_links (p g : Nat) (x : Galley) : (d.setGalley p g x).links = d.links := by simp only [Dev.setGalley, Dev.modTile_links]
@[simp] theorem Dev.setGalley_job (p g : Nat) (x : Galley) : (d.setGalley p g x).job = d.job := by simp only [Dev.setGalley, Dev.modTile_job]
@[simp] theorem Dev.setGalley_host (p g : Nat) (x : Galley) : (d.setGalley p g x).host = d.host := by simp only [Dev.setGalley, Dev.modTile_host]
@[simp] theorem Dev.setGalley_bos (p g : Nat) (x : Galley) : (d.setGalley p g x).bos = d.bos := by simp only [Dev.setGalley, Dev.modTile_bos]
@[simp] theorem Dev.setGalley_pwr (p g : Nat) (x : Galley) : (d.setGalley p g x).pwr = d.pwr := by simp only [Dev.setGalley, Dev.modTile_pwr]
@[simp] theorem Dev.setGalley_pins (p g : Nat) (x : Galley) : (d.setGalley p g x).pins = d.pins := by simp only [Dev.setGalley, Dev.modTile_pins]
@[simp] theorem Dev.setGalley_tap (p g : Nat) (x : Galley) : (d.setGalley p g x).tap = d.tap := by simp only [Dev.setGalley, Dev.modTile_tap]
@[simp] theorem Dev.setGalley_out (p g : Nat) (x : Galley) : (d.setGalley p g x).out = d.out := by simp only [Dev.setGalley, Dev.modTile_out]
@[simp] theorem Dev.setGalley_freeCtr (p g : Nat) (x : Galley) : (d.setGalley p g x).freeCtr = d.freeCtr := by simp only [Dev.setGalley, Dev.modTile_freeCtr]

/-! ### setEngine -/

@[simp] theorem Dev.setEngine_regs (p e : Nat) (x : Engine) : (d.setEngine p e x).regs = d.regs := by simp only [Dev.setEngine, Dev.modTile_regs]
@[simp] theorem Dev.setEngine_caps (p e : Nat) (x : Engine) : (d.setEngine p e x).caps = d.caps := by simp only [Dev.setEngine, Dev.modTile_caps]
@[simp] theorem Dev.setEngine_mem (p e : Nat) (x : Engine) : (d.setEngine p e x).mem = d.mem := by simp only [Dev.setEngine, Dev.modTile_mem]
@[simp] theorem Dev.setEngine_ecc (p e : Nat) (x : Engine) : (d.setEngine p e x).ecc = d.ecc := by simp only [Dev.setEngine, Dev.modTile_ecc]
@[simp] theorem Dev.setEngine_wb (p e : Nat) (x : Engine) : (d.setEngine p e x).wb = d.wb := by simp only [Dev.setEngine, Dev.modTile_wb]
@[simp] theorem Dev.setEngine_yards (p e : Nat) (x : Engine) : (d.setEngine p e x).yards = d.yards := by simp only [Dev.setEngine, Dev.modTile_yards]
@[simp] theorem Dev.setEngine_routes (p e : Nat) (x : Engine) : (d.setEngine p e x).routes = d.routes := by simp only [Dev.setEngine, Dev.modTile_routes]
@[simp] theorem Dev.setEngine_nodes (p e : Nat) (x : Engine) : (d.setEngine p e x).nodes = d.nodes := by simp only [Dev.setEngine, Dev.modTile_nodes]
@[simp] theorem Dev.setEngine_bufs (p e : Nat) (x : Engine) : (d.setEngine p e x).bufs = d.bufs := by simp only [Dev.setEngine, Dev.modTile_bufs]
@[simp] theorem Dev.setEngine_chunks (p e : Nat) (x : Engine) : (d.setEngine p e x).chunks = d.chunks := by simp only [Dev.setEngine, Dev.modTile_chunks]
@[simp] theorem Dev.setEngine_units (p e : Nat) (x : Engine) : (d.setEngine p e x).units = d.units := by simp only [Dev.setEngine, Dev.modTile_units]
@[simp] theorem Dev.setEngine_hal (p e : Nat) (x : Engine) : (d.setEngine p e x).hal = d.hal := by simp only [Dev.setEngine, Dev.modTile_hal]
@[simp] theorem Dev.setEngine_press (p e : Nat) (x : Engine) : (d.setEngine p e x).press = d.press := by simp only [Dev.setEngine, Dev.modTile_press]
@[simp] theorem Dev.setEngine_hold (p e : Nat) (x : Engine) : (d.setEngine p e x).hold = d.hold := by simp only [Dev.setEngine, Dev.modTile_hold]
@[simp] theorem Dev.setEngine_links (p e : Nat) (x : Engine) : (d.setEngine p e x).links = d.links := by simp only [Dev.setEngine, Dev.modTile_links]
@[simp] theorem Dev.setEngine_job (p e : Nat) (x : Engine) : (d.setEngine p e x).job = d.job := by simp only [Dev.setEngine, Dev.modTile_job]
@[simp] theorem Dev.setEngine_host (p e : Nat) (x : Engine) : (d.setEngine p e x).host = d.host := by simp only [Dev.setEngine, Dev.modTile_host]
@[simp] theorem Dev.setEngine_bos (p e : Nat) (x : Engine) : (d.setEngine p e x).bos = d.bos := by simp only [Dev.setEngine, Dev.modTile_bos]
@[simp] theorem Dev.setEngine_pwr (p e : Nat) (x : Engine) : (d.setEngine p e x).pwr = d.pwr := by simp only [Dev.setEngine, Dev.modTile_pwr]
@[simp] theorem Dev.setEngine_pins (p e : Nat) (x : Engine) : (d.setEngine p e x).pins = d.pins := by simp only [Dev.setEngine, Dev.modTile_pins]
@[simp] theorem Dev.setEngine_tap (p e : Nat) (x : Engine) : (d.setEngine p e x).tap = d.tap := by simp only [Dev.setEngine, Dev.modTile_tap]
@[simp] theorem Dev.setEngine_out (p e : Nat) (x : Engine) : (d.setEngine p e x).out = d.out := by simp only [Dev.setEngine, Dev.modTile_out]
@[simp] theorem Dev.setEngine_freeCtr (p e : Nat) (x : Engine) : (d.setEngine p e x).freeCtr = d.freeCtr := by simp only [Dev.setEngine, Dev.modTile_freeCtr]

/-! ### putS -/

@[simp] theorem Dev.putS_regs (h : Iss) (r : R5) (v : DWord) : (d.putS h r v).regs = d.regs := by simp only [Dev.putS, Dev.modCore_regs]
@[simp] theorem Dev.putS_caps (h : Iss) (r : R5) (v : DWord) : (d.putS h r v).caps = d.caps := by simp only [Dev.putS, Dev.modCore_caps]
@[simp] theorem Dev.putS_mem (h : Iss) (r : R5) (v : DWord) : (d.putS h r v).mem = d.mem := by simp only [Dev.putS, Dev.modCore_mem]
@[simp] theorem Dev.putS_ecc (h : Iss) (r : R5) (v : DWord) : (d.putS h r v).ecc = d.ecc := by simp only [Dev.putS, Dev.modCore_ecc]
@[simp] theorem Dev.putS_wb (h : Iss) (r : R5) (v : DWord) : (d.putS h r v).wb = d.wb := by simp only [Dev.putS, Dev.modCore_wb]
@[simp] theorem Dev.putS_yards (h : Iss) (r : R5) (v : DWord) : (d.putS h r v).yards = d.yards := by simp only [Dev.putS, Dev.modCore_yards]
@[simp] theorem Dev.putS_routes (h : Iss) (r : R5) (v : DWord) : (d.putS h r v).routes = d.routes := by simp only [Dev.putS, Dev.modCore_routes]
@[simp] theorem Dev.putS_nodes (h : Iss) (r : R5) (v : DWord) : (d.putS h r v).nodes = d.nodes := by simp only [Dev.putS, Dev.modCore_nodes]
@[simp] theorem Dev.putS_bufs (h : Iss) (r : R5) (v : DWord) : (d.putS h r v).bufs = d.bufs := by simp only [Dev.putS, Dev.modCore_bufs]
@[simp] theorem Dev.putS_chunks (h : Iss) (r : R5) (v : DWord) : (d.putS h r v).chunks = d.chunks := by simp only [Dev.putS, Dev.modCore_chunks]
@[simp] theorem Dev.putS_units (h : Iss) (r : R5) (v : DWord) : (d.putS h r v).units = d.units := by simp only [Dev.putS, Dev.modCore_units]
@[simp] theorem Dev.putS_hal (h : Iss) (r : R5) (v : DWord) : (d.putS h r v).hal = d.hal := by simp only [Dev.putS, Dev.modCore_hal]
@[simp] theorem Dev.putS_press (h : Iss) (r : R5) (v : DWord) : (d.putS h r v).press = d.press := by simp only [Dev.putS, Dev.modCore_press]
@[simp] theorem Dev.putS_hold (h : Iss) (r : R5) (v : DWord) : (d.putS h r v).hold = d.hold := by simp only [Dev.putS, Dev.modCore_hold]
@[simp] theorem Dev.putS_links (h : Iss) (r : R5) (v : DWord) : (d.putS h r v).links = d.links := by simp only [Dev.putS, Dev.modCore_links]
@[simp] theorem Dev.putS_job (h : Iss) (r : R5) (v : DWord) : (d.putS h r v).job = d.job := by simp only [Dev.putS, Dev.modCore_job]
@[simp] theorem Dev.putS_host (h : Iss) (r : R5) (v : DWord) : (d.putS h r v).host = d.host := by simp only [Dev.putS, Dev.modCore_host]
@[simp] theorem Dev.putS_bos (h : Iss) (r : R5) (v : DWord) : (d.putS h r v).bos = d.bos := by simp only [Dev.putS, Dev.modCore_bos]
@[simp] theorem Dev.putS_pwr (h : Iss) (r : R5) (v : DWord) : (d.putS h r v).pwr = d.pwr := by simp only [Dev.putS, Dev.modCore_pwr]
@[simp] theorem Dev.putS_pins (h : Iss) (r : R5) (v : DWord) : (d.putS h r v).pins = d.pins := by simp only [Dev.putS, Dev.modCore_pins]
@[simp] theorem Dev.putS_tap (h : Iss) (r : R5) (v : DWord) : (d.putS h r v).tap = d.tap := by simp only [Dev.putS, Dev.modCore_tap]
@[simp] theorem Dev.putS_out (h : Iss) (r : R5) (v : DWord) : (d.putS h r v).out = d.out := by simp only [Dev.putS, Dev.modCore_out]
@[simp] theorem Dev.putS_freeCtr (h : Iss) (r : R5) (v : DWord) : (d.putS h r v).freeCtr = d.freeCtr := by simp only [Dev.putS, Dev.modCore_freeCtr]

/-! ### putP -/

@[simp] theorem Dev.putP_regs (h : Iss) (r : Nat) (v : Pred) : (d.putP h r v).regs = d.regs := by simp only [Dev.putP, Dev.modCore_regs]
@[simp] theorem Dev.putP_caps (h : Iss) (r : Nat) (v : Pred) : (d.putP h r v).caps = d.caps := by simp only [Dev.putP, Dev.modCore_caps]
@[simp] theorem Dev.putP_mem (h : Iss) (r : Nat) (v : Pred) : (d.putP h r v).mem = d.mem := by simp only [Dev.putP, Dev.modCore_mem]
@[simp] theorem Dev.putP_ecc (h : Iss) (r : Nat) (v : Pred) : (d.putP h r v).ecc = d.ecc := by simp only [Dev.putP, Dev.modCore_ecc]
@[simp] theorem Dev.putP_wb (h : Iss) (r : Nat) (v : Pred) : (d.putP h r v).wb = d.wb := by simp only [Dev.putP, Dev.modCore_wb]
@[simp] theorem Dev.putP_yards (h : Iss) (r : Nat) (v : Pred) : (d.putP h r v).yards = d.yards := by simp only [Dev.putP, Dev.modCore_yards]
@[simp] theorem Dev.putP_routes (h : Iss) (r : Nat) (v : Pred) : (d.putP h r v).routes = d.routes := by simp only [Dev.putP, Dev.modCore_routes]
@[simp] theorem Dev.putP_nodes (h : Iss) (r : Nat) (v : Pred) : (d.putP h r v).nodes = d.nodes := by simp only [Dev.putP, Dev.modCore_nodes]
@[simp] theorem Dev.putP_bufs (h : Iss) (r : Nat) (v : Pred) : (d.putP h r v).bufs = d.bufs := by simp only [Dev.putP, Dev.modCore_bufs]
@[simp] theorem Dev.putP_chunks (h : Iss) (r : Nat) (v : Pred) : (d.putP h r v).chunks = d.chunks := by simp only [Dev.putP, Dev.modCore_chunks]
@[simp] theorem Dev.putP_units (h : Iss) (r : Nat) (v : Pred) : (d.putP h r v).units = d.units := by simp only [Dev.putP, Dev.modCore_units]
@[simp] theorem Dev.putP_hal (h : Iss) (r : Nat) (v : Pred) : (d.putP h r v).hal = d.hal := by simp only [Dev.putP, Dev.modCore_hal]
@[simp] theorem Dev.putP_press (h : Iss) (r : Nat) (v : Pred) : (d.putP h r v).press = d.press := by simp only [Dev.putP, Dev.modCore_press]
@[simp] theorem Dev.putP_hold (h : Iss) (r : Nat) (v : Pred) : (d.putP h r v).hold = d.hold := by simp only [Dev.putP, Dev.modCore_hold]
@[simp] theorem Dev.putP_links (h : Iss) (r : Nat) (v : Pred) : (d.putP h r v).links = d.links := by simp only [Dev.putP, Dev.modCore_links]
@[simp] theorem Dev.putP_job (h : Iss) (r : Nat) (v : Pred) : (d.putP h r v).job = d.job := by simp only [Dev.putP, Dev.modCore_job]
@[simp] theorem Dev.putP_host (h : Iss) (r : Nat) (v : Pred) : (d.putP h r v).host = d.host := by simp only [Dev.putP, Dev.modCore_host]
@[simp] theorem Dev.putP_bos (h : Iss) (r : Nat) (v : Pred) : (d.putP h r v).bos = d.bos := by simp only [Dev.putP, Dev.modCore_bos]
@[simp] theorem Dev.putP_pwr (h : Iss) (r : Nat) (v : Pred) : (d.putP h r v).pwr = d.pwr := by simp only [Dev.putP, Dev.modCore_pwr]
@[simp] theorem Dev.putP_pins (h : Iss) (r : Nat) (v : Pred) : (d.putP h r v).pins = d.pins := by simp only [Dev.putP, Dev.modCore_pins]
@[simp] theorem Dev.putP_tap (h : Iss) (r : Nat) (v : Pred) : (d.putP h r v).tap = d.tap := by simp only [Dev.putP, Dev.modCore_tap]
@[simp] theorem Dev.putP_out (h : Iss) (r : Nat) (v : Pred) : (d.putP h r v).out = d.out := by simp only [Dev.putP, Dev.modCore_out]
@[simp] theorem Dev.putP_freeCtr (h : Iss) (r : Nat) (v : Pred) : (d.putP h r v).freeCtr = d.freeCtr := by simp only [Dev.putP, Dev.modCore_freeCtr]

/-! ### setYard -/

@[simp] theorem Dev.setYard_regs (y : Nat) (x : YardS) : (d.setYard y x).regs = d.regs := rfl
@[simp] theorem Dev.setYard_caps (y : Nat) (x : YardS) : (d.setYard y x).caps = d.caps := rfl
@[simp] theorem Dev.setYard_mem (y : Nat) (x : YardS) : (d.setYard y x).mem = d.mem := rfl
@[simp] theorem Dev.setYard_ecc (y : Nat) (x : YardS) : (d.setYard y x).ecc = d.ecc := rfl
@[simp] theorem Dev.setYard_wb (y : Nat) (x : YardS) : (d.setYard y x).wb = d.wb := rfl
@[simp] theorem Dev.setYard_tiles (y : Nat) (x : YardS) : (d.setYard y x).tiles = d.tiles := rfl
@[simp] theorem Dev.setYard_routes (y : Nat) (x : YardS) : (d.setYard y x).routes = d.routes := rfl
@[simp] theorem Dev.setYard_nodes (y : Nat) (x : YardS) : (d.setYard y x).nodes = d.nodes := rfl
@[simp] theorem Dev.setYard_bufs (y : Nat) (x : YardS) : (d.setYard y x).bufs = d.bufs := rfl
@[simp] theorem Dev.setYard_chunks (y : Nat) (x : YardS) : (d.setYard y x).chunks = d.chunks := rfl
@[simp] theorem Dev.setYard_units (y : Nat) (x : YardS) : (d.setYard y x).units = d.units := rfl
@[simp] theorem Dev.setYard_hal (y : Nat) (x : YardS) : (d.setYard y x).hal = d.hal := rfl
@[simp] theorem Dev.setYard_press (y : Nat) (x : YardS) : (d.setYard y x).press = d.press := rfl
@[simp] theorem Dev.setYard_hold (y : Nat) (x : YardS) : (d.setYard y x).hold = d.hold := rfl
@[simp] theorem Dev.setYard_links (y : Nat) (x : YardS) : (d.setYard y x).links = d.links := rfl
@[simp] theorem Dev.setYard_job (y : Nat) (x : YardS) : (d.setYard y x).job = d.job := rfl
@[simp] theorem Dev.setYard_host (y : Nat) (x : YardS) : (d.setYard y x).host = d.host := rfl
@[simp] theorem Dev.setYard_bos (y : Nat) (x : YardS) : (d.setYard y x).bos = d.bos := rfl
@[simp] theorem Dev.setYard_pwr (y : Nat) (x : YardS) : (d.setYard y x).pwr = d.pwr := rfl
@[simp] theorem Dev.setYard_pins (y : Nat) (x : YardS) : (d.setYard y x).pins = d.pins := rfl
@[simp] theorem Dev.setYard_tap (y : Nat) (x : YardS) : (d.setYard y x).tap = d.tap := rfl
@[simp] theorem Dev.setYard_out (y : Nat) (x : YardS) : (d.setYard y x).out = d.out := rfl
@[simp] theorem Dev.setYard_freeCtr (y : Nat) (x : YardS) : (d.setYard y x).freeCtr = d.freeCtr := rfl

/-! ### modYard -/

@[simp] theorem Dev.modYard_regs (y : Nat) (f : YardS → YardS) : (d.modYard y f).regs = d.regs := by simp only [Dev.modYard, Dev.setYard_regs]
@[simp] theorem Dev.modYard_caps (y : Nat) (f : YardS → YardS) : (d.modYard y f).caps = d.caps := by simp only [Dev.modYard, Dev.setYard_caps]
@[simp] theorem Dev.modYard_mem (y : Nat) (f : YardS → YardS) : (d.modYard y f).mem = d.mem := by simp only [Dev.modYard, Dev.setYard_mem]
@[simp] theorem Dev.modYard_ecc (y : Nat) (f : YardS → YardS) : (d.modYard y f).ecc = d.ecc := by simp only [Dev.modYard, Dev.setYard_ecc]
@[simp] theorem Dev.modYard_wb (y : Nat) (f : YardS → YardS) : (d.modYard y f).wb = d.wb := by simp only [Dev.modYard, Dev.setYard_wb]
@[simp] theorem Dev.modYard_tiles (y : Nat) (f : YardS → YardS) : (d.modYard y f).tiles = d.tiles := by simp only [Dev.modYard, Dev.setYard_tiles]
@[simp] theorem Dev.modYard_routes (y : Nat) (f : YardS → YardS) : (d.modYard y f).routes = d.routes := by simp only [Dev.modYard, Dev.setYard_routes]
@[simp] theorem Dev.modYard_nodes (y : Nat) (f : YardS → YardS) : (d.modYard y f).nodes = d.nodes := by simp only [Dev.modYard, Dev.setYard_nodes]
@[simp] theorem Dev.modYard_bufs (y : Nat) (f : YardS → YardS) : (d.modYard y f).bufs = d.bufs := by simp only [Dev.modYard, Dev.setYard_bufs]
@[simp] theorem Dev.modYard_chunks (y : Nat) (f : YardS → YardS) : (d.modYard y f).chunks = d.chunks := by simp only [Dev.modYard, Dev.setYard_chunks]
@[simp] theorem Dev.modYard_units (y : Nat) (f : YardS → YardS) : (d.modYard y f).units = d.units := by simp only [Dev.modYard, Dev.setYard_units]
@[simp] theorem Dev.modYard_hal (y : Nat) (f : YardS → YardS) : (d.modYard y f).hal = d.hal := by simp only [Dev.modYard, Dev.setYard_hal]
@[simp] theorem Dev.modYard_press (y : Nat) (f : YardS → YardS) : (d.modYard y f).press = d.press := by simp only [Dev.modYard, Dev.setYard_press]
@[simp] theorem Dev.modYard_hold (y : Nat) (f : YardS → YardS) : (d.modYard y f).hold = d.hold := by simp only [Dev.modYard, Dev.setYard_hold]
@[simp] theorem Dev.modYard_links (y : Nat) (f : YardS → YardS) : (d.modYard y f).links = d.links := by simp only [Dev.modYard, Dev.setYard_links]
@[simp] theorem Dev.modYard_job (y : Nat) (f : YardS → YardS) : (d.modYard y f).job = d.job := by simp only [Dev.modYard, Dev.setYard_job]
@[simp] theorem Dev.modYard_host (y : Nat) (f : YardS → YardS) : (d.modYard y f).host = d.host := by simp only [Dev.modYard, Dev.setYard_host]
@[simp] theorem Dev.modYard_bos (y : Nat) (f : YardS → YardS) : (d.modYard y f).bos = d.bos := by simp only [Dev.modYard, Dev.setYard_bos]
@[simp] theorem Dev.modYard_pwr (y : Nat) (f : YardS → YardS) : (d.modYard y f).pwr = d.pwr := by simp only [Dev.modYard, Dev.setYard_pwr]
@[simp] theorem Dev.modYard_pins (y : Nat) (f : YardS → YardS) : (d.modYard y f).pins = d.pins := by simp only [Dev.modYard, Dev.setYard_pins]
@[simp] theorem Dev.modYard_tap (y : Nat) (f : YardS → YardS) : (d.modYard y f).tap = d.tap := by simp only [Dev.modYard, Dev.setYard_tap]
@[simp] theorem Dev.modYard_out (y : Nat) (f : YardS → YardS) : (d.modYard y f).out = d.out := by simp only [Dev.modYard, Dev.setYard_out]
@[simp] theorem Dev.modYard_freeCtr (y : Nat) (f : YardS → YardS) : (d.modYard y f).freeCtr = d.freeCtr := by simp only [Dev.modYard, Dev.setYard_freeCtr]

/-! ### setCtl -/

@[simp] theorem Dev.setCtl_regs (c : Nat) (x : HoldC) : (d.setCtl c x).regs = d.regs := rfl
@[simp] theorem Dev.setCtl_caps (c : Nat) (x : HoldC) : (d.setCtl c x).caps = d.caps := rfl
@[simp] theorem Dev.setCtl_mem (c : Nat) (x : HoldC) : (d.setCtl c x).mem = d.mem := rfl
@[simp] theorem Dev.setCtl_ecc (c : Nat) (x : HoldC) : (d.setCtl c x).ecc = d.ecc := rfl
@[simp] theorem Dev.setCtl_wb (c : Nat) (x : HoldC) : (d.setCtl c x).wb = d.wb := rfl
@[simp] theorem Dev.setCtl_tiles (c : Nat) (x : HoldC) : (d.setCtl c x).tiles = d.tiles := rfl
@[simp] theorem Dev.setCtl_yards (c : Nat) (x : HoldC) : (d.setCtl c x).yards = d.yards := rfl
@[simp] theorem Dev.setCtl_routes (c : Nat) (x : HoldC) : (d.setCtl c x).routes = d.routes := rfl
@[simp] theorem Dev.setCtl_nodes (c : Nat) (x : HoldC) : (d.setCtl c x).nodes = d.nodes := rfl
@[simp] theorem Dev.setCtl_bufs (c : Nat) (x : HoldC) : (d.setCtl c x).bufs = d.bufs := rfl
@[simp] theorem Dev.setCtl_chunks (c : Nat) (x : HoldC) : (d.setCtl c x).chunks = d.chunks := rfl
@[simp] theorem Dev.setCtl_units (c : Nat) (x : HoldC) : (d.setCtl c x).units = d.units := rfl
@[simp] theorem Dev.setCtl_hal (c : Nat) (x : HoldC) : (d.setCtl c x).hal = d.hal := rfl
@[simp] theorem Dev.setCtl_press (c : Nat) (x : HoldC) : (d.setCtl c x).press = d.press := rfl
@[simp] theorem Dev.setCtl_links (c : Nat) (x : HoldC) : (d.setCtl c x).links = d.links := rfl
@[simp] theorem Dev.setCtl_job (c : Nat) (x : HoldC) : (d.setCtl c x).job = d.job := rfl
@[simp] theorem Dev.setCtl_host (c : Nat) (x : HoldC) : (d.setCtl c x).host = d.host := rfl
@[simp] theorem Dev.setCtl_bos (c : Nat) (x : HoldC) : (d.setCtl c x).bos = d.bos := rfl
@[simp] theorem Dev.setCtl_pwr (c : Nat) (x : HoldC) : (d.setCtl c x).pwr = d.pwr := rfl
@[simp] theorem Dev.setCtl_pins (c : Nat) (x : HoldC) : (d.setCtl c x).pins = d.pins := rfl
@[simp] theorem Dev.setCtl_tap (c : Nat) (x : HoldC) : (d.setCtl c x).tap = d.tap := rfl
@[simp] theorem Dev.setCtl_out (c : Nat) (x : HoldC) : (d.setCtl c x).out = d.out := rfl
@[simp] theorem Dev.setCtl_freeCtr (c : Nat) (x : HoldC) : (d.setCtl c x).freeCtr = d.freeCtr := rfl

/-! ### setLink -/

@[simp] theorem Dev.setLink_regs (n : Nat) (x : LinkP) : (d.setLink n x).regs = d.regs := rfl
@[simp] theorem Dev.setLink_caps (n : Nat) (x : LinkP) : (d.setLink n x).caps = d.caps := rfl
@[simp] theorem Dev.setLink_mem (n : Nat) (x : LinkP) : (d.setLink n x).mem = d.mem := rfl
@[simp] theorem Dev.setLink_ecc (n : Nat) (x : LinkP) : (d.setLink n x).ecc = d.ecc := rfl
@[simp] theorem Dev.setLink_wb (n : Nat) (x : LinkP) : (d.setLink n x).wb = d.wb := rfl
@[simp] theorem Dev.setLink_tiles (n : Nat) (x : LinkP) : (d.setLink n x).tiles = d.tiles := rfl
@[simp] theorem Dev.setLink_yards (n : Nat) (x : LinkP) : (d.setLink n x).yards = d.yards := rfl
@[simp] theorem Dev.setLink_routes (n : Nat) (x : LinkP) : (d.setLink n x).routes = d.routes := rfl
@[simp] theorem Dev.setLink_nodes (n : Nat) (x : LinkP) : (d.setLink n x).nodes = d.nodes := rfl
@[simp] theorem Dev.setLink_bufs (n : Nat) (x : LinkP) : (d.setLink n x).bufs = d.bufs := rfl
@[simp] theorem Dev.setLink_chunks (n : Nat) (x : LinkP) : (d.setLink n x).chunks = d.chunks := rfl
@[simp] theorem Dev.setLink_units (n : Nat) (x : LinkP) : (d.setLink n x).units = d.units := rfl
@[simp] theorem Dev.setLink_hal (n : Nat) (x : LinkP) : (d.setLink n x).hal = d.hal := rfl
@[simp] theorem Dev.setLink_press (n : Nat) (x : LinkP) : (d.setLink n x).press = d.press := rfl
@[simp] theorem Dev.setLink_hold (n : Nat) (x : LinkP) : (d.setLink n x).hold = d.hold := rfl
@[simp] theorem Dev.setLink_job (n : Nat) (x : LinkP) : (d.setLink n x).job = d.job := rfl
@[simp] theorem Dev.setLink_host (n : Nat) (x : LinkP) : (d.setLink n x).host = d.host := rfl
@[simp] theorem Dev.setLink_bos (n : Nat) (x : LinkP) : (d.setLink n x).bos = d.bos := rfl
@[simp] theorem Dev.setLink_pwr (n : Nat) (x : LinkP) : (d.setLink n x).pwr = d.pwr := rfl
@[simp] theorem Dev.setLink_pins (n : Nat) (x : LinkP) : (d.setLink n x).pins = d.pins := rfl
@[simp] theorem Dev.setLink_tap (n : Nat) (x : LinkP) : (d.setLink n x).tap = d.tap := rfl
@[simp] theorem Dev.setLink_out (n : Nat) (x : LinkP) : (d.setLink n x).out = d.out := rfl
@[simp] theorem Dev.setLink_freeCtr (n : Nat) (x : LinkP) : (d.setLink n x).freeCtr = d.freeCtr := rfl

/-! ### modLink -/

@[simp] theorem Dev.modLink_regs (n : Nat) (f : LinkP → LinkP) : (d.modLink n f).regs = d.regs := by simp only [Dev.modLink, Dev.setLink_regs]
@[simp] theorem Dev.modLink_caps (n : Nat) (f : LinkP → LinkP) : (d.modLink n f).caps = d.caps := by simp only [Dev.modLink, Dev.setLink_caps]
@[simp] theorem Dev.modLink_mem (n : Nat) (f : LinkP → LinkP) : (d.modLink n f).mem = d.mem := by simp only [Dev.modLink, Dev.setLink_mem]
@[simp] theorem Dev.modLink_ecc (n : Nat) (f : LinkP → LinkP) : (d.modLink n f).ecc = d.ecc := by simp only [Dev.modLink, Dev.setLink_ecc]
@[simp] theorem Dev.modLink_wb (n : Nat) (f : LinkP → LinkP) : (d.modLink n f).wb = d.wb := by simp only [Dev.modLink, Dev.setLink_wb]
@[simp] theorem Dev.modLink_tiles (n : Nat) (f : LinkP → LinkP) : (d.modLink n f).tiles = d.tiles := by simp only [Dev.modLink, Dev.setLink_tiles]
@[simp] theorem Dev.modLink_yards (n : Nat) (f : LinkP → LinkP) : (d.modLink n f).yards = d.yards := by simp only [Dev.modLink, Dev.setLink_yards]
@[simp] theorem Dev.modLink_routes (n : Nat) (f : LinkP → LinkP) : (d.modLink n f).routes = d.routes := by simp only [Dev.modLink, Dev.setLink_routes]
@[simp] theorem Dev.modLink_nodes (n : Nat) (f : LinkP → LinkP) : (d.modLink n f).nodes = d.nodes := by simp only [Dev.modLink, Dev.setLink_nodes]
@[simp] theorem Dev.modLink_bufs (n : Nat) (f : LinkP → LinkP) : (d.modLink n f).bufs = d.bufs := by simp only [Dev.modLink, Dev.setLink_bufs]
@[simp] theorem Dev.modLink_chunks (n : Nat) (f : LinkP → LinkP) : (d.modLink n f).chunks = d.chunks := by simp only [Dev.modLink, Dev.setLink_chunks]
@[simp] theorem Dev.modLink_units (n : Nat) (f : LinkP → LinkP) : (d.modLink n f).units = d.units := by simp only [Dev.modLink, Dev.setLink_units]
@[simp] theorem Dev.modLink_hal (n : Nat) (f : LinkP → LinkP) : (d.modLink n f).hal = d.hal := by simp only [Dev.modLink, Dev.setLink_hal]
@[simp] theorem Dev.modLink_press (n : Nat) (f : LinkP → LinkP) : (d.modLink n f).press = d.press := by simp only [Dev.modLink, Dev.setLink_press]
@[simp] theorem Dev.modLink_hold (n : Nat) (f : LinkP → LinkP) : (d.modLink n f).hold = d.hold := by simp only [Dev.modLink, Dev.setLink_hold]
@[simp] theorem Dev.modLink_job (n : Nat) (f : LinkP → LinkP) : (d.modLink n f).job = d.job := by simp only [Dev.modLink, Dev.setLink_job]
@[simp] theorem Dev.modLink_host (n : Nat) (f : LinkP → LinkP) : (d.modLink n f).host = d.host := by simp only [Dev.modLink, Dev.setLink_host]
@[simp] theorem Dev.modLink_bos (n : Nat) (f : LinkP → LinkP) : (d.modLink n f).bos = d.bos := by simp only [Dev.modLink, Dev.setLink_bos]
@[simp] theorem Dev.modLink_pwr (n : Nat) (f : LinkP → LinkP) : (d.modLink n f).pwr = d.pwr := by simp only [Dev.modLink, Dev.setLink_pwr]
@[simp] theorem Dev.modLink_pins (n : Nat) (f : LinkP → LinkP) : (d.modLink n f).pins = d.pins := by simp only [Dev.modLink, Dev.setLink_pins]
@[simp] theorem Dev.modLink_tap (n : Nat) (f : LinkP → LinkP) : (d.modLink n f).tap = d.tap := by simp only [Dev.modLink, Dev.setLink_tap]
@[simp] theorem Dev.modLink_out (n : Nat) (f : LinkP → LinkP) : (d.modLink n f).out = d.out := by simp only [Dev.modLink, Dev.setLink_out]
@[simp] theorem Dev.modLink_freeCtr (n : Nat) (f : LinkP → LinkP) : (d.modLink n f).freeCtr = d.freeCtr := by simp only [Dev.modLink, Dev.setLink_freeCtr]

/-! ### setPr -/

@[simp] theorem Dev.setPr_regs (c : Nat) (x : Press) : (d.setPr c x).regs = d.regs := rfl
@[simp] theorem Dev.setPr_caps (c : Nat) (x : Press) : (d.setPr c x).caps = d.caps := rfl
@[simp] theorem Dev.setPr_mem (c : Nat) (x : Press) : (d.setPr c x).mem = d.mem := rfl
@[simp] theorem Dev.setPr_ecc (c : Nat) (x : Press) : (d.setPr c x).ecc = d.ecc := rfl
@[simp] theorem Dev.setPr_wb (c : Nat) (x : Press) : (d.setPr c x).wb = d.wb := rfl
@[simp] theorem Dev.setPr_tiles (c : Nat) (x : Press) : (d.setPr c x).tiles = d.tiles := rfl
@[simp] theorem Dev.setPr_yards (c : Nat) (x : Press) : (d.setPr c x).yards = d.yards := rfl
@[simp] theorem Dev.setPr_routes (c : Nat) (x : Press) : (d.setPr c x).routes = d.routes := rfl
@[simp] theorem Dev.setPr_nodes (c : Nat) (x : Press) : (d.setPr c x).nodes = d.nodes := rfl
@[simp] theorem Dev.setPr_bufs (c : Nat) (x : Press) : (d.setPr c x).bufs = d.bufs := rfl
@[simp] theorem Dev.setPr_chunks (c : Nat) (x : Press) : (d.setPr c x).chunks = d.chunks := rfl
@[simp] theorem Dev.setPr_units (c : Nat) (x : Press) : (d.setPr c x).units = d.units := rfl
@[simp] theorem Dev.setPr_hal (c : Nat) (x : Press) : (d.setPr c x).hal = d.hal := rfl
@[simp] theorem Dev.setPr_hold (c : Nat) (x : Press) : (d.setPr c x).hold = d.hold := rfl
@[simp] theorem Dev.setPr_links (c : Nat) (x : Press) : (d.setPr c x).links = d.links := rfl
@[simp] theorem Dev.setPr_job (c : Nat) (x : Press) : (d.setPr c x).job = d.job := rfl
@[simp] theorem Dev.setPr_host (c : Nat) (x : Press) : (d.setPr c x).host = d.host := rfl
@[simp] theorem Dev.setPr_bos (c : Nat) (x : Press) : (d.setPr c x).bos = d.bos := rfl
@[simp] theorem Dev.setPr_pwr (c : Nat) (x : Press) : (d.setPr c x).pwr = d.pwr := rfl
@[simp] theorem Dev.setPr_pins (c : Nat) (x : Press) : (d.setPr c x).pins = d.pins := rfl
@[simp] theorem Dev.setPr_tap (c : Nat) (x : Press) : (d.setPr c x).tap = d.tap := rfl
@[simp] theorem Dev.setPr_out (c : Nat) (x : Press) : (d.setPr c x).out = d.out := rfl
@[simp] theorem Dev.setPr_freeCtr (c : Nat) (x : Press) : (d.setPr c x).freeCtr = d.freeCtr := rfl

/-! ### modPr -/

@[simp] theorem Dev.modPr_regs (c : Nat) (f : Press → Press) : (d.modPr c f).regs = d.regs := by simp only [Dev.modPr, Dev.setPr_regs]
@[simp] theorem Dev.modPr_caps (c : Nat) (f : Press → Press) : (d.modPr c f).caps = d.caps := by simp only [Dev.modPr, Dev.setPr_caps]
@[simp] theorem Dev.modPr_mem (c : Nat) (f : Press → Press) : (d.modPr c f).mem = d.mem := by simp only [Dev.modPr, Dev.setPr_mem]
@[simp] theorem Dev.modPr_ecc (c : Nat) (f : Press → Press) : (d.modPr c f).ecc = d.ecc := by simp only [Dev.modPr, Dev.setPr_ecc]
@[simp] theorem Dev.modPr_wb (c : Nat) (f : Press → Press) : (d.modPr c f).wb = d.wb := by simp only [Dev.modPr, Dev.setPr_wb]
@[simp] theorem Dev.modPr_tiles (c : Nat) (f : Press → Press) : (d.modPr c f).tiles = d.tiles := by simp only [Dev.modPr, Dev.setPr_tiles]
@[simp] theorem Dev.modPr_yards (c : Nat) (f : Press → Press) : (d.modPr c f).yards = d.yards := by simp only [Dev.modPr, Dev.setPr_yards]
@[simp] theorem Dev.modPr_routes (c : Nat) (f : Press → Press) : (d.modPr c f).routes = d.routes := by simp only [Dev.modPr, Dev.setPr_routes]
@[simp] theorem Dev.modPr_nodes (c : Nat) (f : Press → Press) : (d.modPr c f).nodes = d.nodes := by simp only [Dev.modPr, Dev.setPr_nodes]
@[simp] theorem Dev.modPr_bufs (c : Nat) (f : Press → Press) : (d.modPr c f).bufs = d.bufs := by simp only [Dev.modPr, Dev.setPr_bufs]
@[simp] theorem Dev.modPr_chunks (c : Nat) (f : Press → Press) : (d.modPr c f).chunks = d.chunks := by simp only [Dev.modPr, Dev.setPr_chunks]
@[simp] theorem Dev.modPr_units (c : Nat) (f : Press → Press) : (d.modPr c f).units = d.units := by simp only [Dev.modPr, Dev.setPr_units]
@[simp] theorem Dev.modPr_hal (c : Nat) (f : Press → Press) : (d.modPr c f).hal = d.hal := by simp only [Dev.modPr, Dev.setPr_hal]
@[simp] theorem Dev.modPr_hold (c : Nat) (f : Press → Press) : (d.modPr c f).hold = d.hold := by simp only [Dev.modPr, Dev.setPr_hold]
@[simp] theorem Dev.modPr_links (c : Nat) (f : Press → Press) : (d.modPr c f).links = d.links := by simp only [Dev.modPr, Dev.setPr_links]
@[simp] theorem Dev.modPr_job (c : Nat) (f : Press → Press) : (d.modPr c f).job = d.job := by simp only [Dev.modPr, Dev.setPr_job]
@[simp] theorem Dev.modPr_host (c : Nat) (f : Press → Press) : (d.modPr c f).host = d.host := by simp only [Dev.modPr, Dev.setPr_host]
@[simp] theorem Dev.modPr_bos (c : Nat) (f : Press → Press) : (d.modPr c f).bos = d.bos := by simp only [Dev.modPr, Dev.setPr_bos]
@[simp] theorem Dev.modPr_pwr (c : Nat) (f : Press → Press) : (d.modPr c f).pwr = d.pwr := by simp only [Dev.modPr, Dev.setPr_pwr]
@[simp] theorem Dev.modPr_pins (c : Nat) (f : Press → Press) : (d.modPr c f).pins = d.pins := by simp only [Dev.modPr, Dev.setPr_pins]
@[simp] theorem Dev.modPr_tap (c : Nat) (f : Press → Press) : (d.modPr c f).tap = d.tap := by simp only [Dev.modPr, Dev.setPr_tap]
@[simp] theorem Dev.modPr_out (c : Nat) (f : Press → Press) : (d.modPr c f).out = d.out := by simp only [Dev.modPr, Dev.setPr_out]
@[simp] theorem Dev.modPr_freeCtr (c : Nat) (f : Press → Press) : (d.modPr c f).freeCtr = d.freeCtr := by simp only [Dev.modPr, Dev.setPr_freeCtr]

/-! ### send -/

@[simp] theorem Dev.send_regs (m : Msg) : (d.send m).regs = d.regs := rfl
@[simp] theorem Dev.send_caps (m : Msg) : (d.send m).caps = d.caps := rfl
@[simp] theorem Dev.send_mem (m : Msg) : (d.send m).mem = d.mem := rfl
@[simp] theorem Dev.send_ecc (m : Msg) : (d.send m).ecc = d.ecc := rfl
@[simp] theorem Dev.send_wb (m : Msg) : (d.send m).wb = d.wb := rfl
@[simp] theorem Dev.send_tiles (m : Msg) : (d.send m).tiles = d.tiles := rfl
@[simp] theorem Dev.send_yards (m : Msg) : (d.send m).yards = d.yards := rfl
@[simp] theorem Dev.send_routes (m : Msg) : (d.send m).routes = d.routes := rfl
@[simp] theorem Dev.send_nodes (m : Msg) : (d.send m).nodes = d.nodes := rfl
@[simp] theorem Dev.send_bufs (m : Msg) : (d.send m).bufs = d.bufs := rfl
@[simp] theorem Dev.send_chunks (m : Msg) : (d.send m).chunks = d.chunks := rfl
@[simp] theorem Dev.send_units (m : Msg) : (d.send m).units = d.units := rfl
@[simp] theorem Dev.send_hal (m : Msg) : (d.send m).hal = d.hal := rfl
@[simp] theorem Dev.send_press (m : Msg) : (d.send m).press = d.press := rfl
@[simp] theorem Dev.send_hold (m : Msg) : (d.send m).hold = d.hold := rfl
@[simp] theorem Dev.send_links (m : Msg) : (d.send m).links = d.links := rfl
@[simp] theorem Dev.send_job (m : Msg) : (d.send m).job = d.job := rfl
@[simp] theorem Dev.send_host (m : Msg) : (d.send m).host = d.host := rfl
@[simp] theorem Dev.send_bos (m : Msg) : (d.send m).bos = d.bos := rfl
@[simp] theorem Dev.send_pwr (m : Msg) : (d.send m).pwr = d.pwr := rfl
@[simp] theorem Dev.send_pins (m : Msg) : (d.send m).pins = d.pins := rfl
@[simp] theorem Dev.send_tap (m : Msg) : (d.send m).tap = d.tap := rfl
@[simp] theorem Dev.send_freeCtr (m : Msg) : (d.send m).freeCtr = d.freeCtr := rfl

/-! ### notice -/

@[simp] theorem Dev.notice_regs (block kind inst : Nat) : (d.notice block kind inst).regs = d.regs := rfl
@[simp] theorem Dev.notice_caps (block kind inst : Nat) : (d.notice block kind inst).caps = d.caps := rfl
@[simp] theorem Dev.notice_mem (block kind inst : Nat) : (d.notice block kind inst).mem = d.mem := rfl
@[simp] theorem Dev.notice_ecc (block kind inst : Nat) : (d.notice block kind inst).ecc = d.ecc := rfl
@[simp] theorem Dev.notice_wb (block kind inst : Nat) : (d.notice block kind inst).wb = d.wb := rfl
@[simp] theorem Dev.notice_tiles (block kind inst : Nat) : (d.notice block kind inst).tiles = d.tiles := rfl
@[simp] theorem Dev.notice_yards (block kind inst : Nat) : (d.notice block kind inst).yards = d.yards := rfl
@[simp] theorem Dev.notice_routes (block kind inst : Nat) : (d.notice block kind inst).routes = d.routes := rfl
@[simp] theorem Dev.notice_nodes (block kind inst : Nat) : (d.notice block kind inst).nodes = d.nodes := rfl
@[simp] theorem Dev.notice_bufs (block kind inst : Nat) : (d.notice block kind inst).bufs = d.bufs := rfl
@[simp] theorem Dev.notice_chunks (block kind inst : Nat) : (d.notice block kind inst).chunks = d.chunks := rfl
@[simp] theorem Dev.notice_units (block kind inst : Nat) : (d.notice block kind inst).units = d.units := rfl
@[simp] theorem Dev.notice_press (block kind inst : Nat) : (d.notice block kind inst).press = d.press := rfl
@[simp] theorem Dev.notice_hold (block kind inst : Nat) : (d.notice block kind inst).hold = d.hold := rfl
@[simp] theorem Dev.notice_links (block kind inst : Nat) : (d.notice block kind inst).links = d.links := rfl
@[simp] theorem Dev.notice_job (block kind inst : Nat) : (d.notice block kind inst).job = d.job := rfl
@[simp] theorem Dev.notice_host (block kind inst : Nat) : (d.notice block kind inst).host = d.host := rfl
@[simp] theorem Dev.notice_bos (block kind inst : Nat) : (d.notice block kind inst).bos = d.bos := rfl
@[simp] theorem Dev.notice_pwr (block kind inst : Nat) : (d.notice block kind inst).pwr = d.pwr := rfl
@[simp] theorem Dev.notice_pins (block kind inst : Nat) : (d.notice block kind inst).pins = d.pins := rfl
@[simp] theorem Dev.notice_tap (block kind inst : Nat) : (d.notice block kind inst).tap = d.tap := rfl
@[simp] theorem Dev.notice_out (block kind inst : Nat) : (d.notice block kind inst).out = d.out := rfl
@[simp] theorem Dev.notice_freeCtr (block kind inst : Nat) : (d.notice block kind inst).freeCtr = d.freeCtr := rfl

/-! ### Reads through updates of other parts -/

@[simp] theorem Dev.byte_setReg (off v : Nat) (i : Nat) : (d.setReg off v).byte i = d.byte i := by unfold Dev.byte; rw [Dev.setReg_mem]
@[simp] theorem Dev.tile_setReg (off v : Nat) (i : Nat) : (d.setReg off v).tile i = d.tile i := by unfold Dev.tile; rw [Dev.setReg_tiles]
@[simp] theorem Dev.core_setReg (off v : Nat) (i j : Nat) : (d.setReg off v).core i j = d.core i j := by unfold Dev.core Dev.tile; rw [Dev.setReg_tiles]
@[simp] theorem Dev.yard_setReg (off v : Nat) (i : Nat) : (d.setReg off v).yard i = d.yard i := by unfold Dev.yard; rw [Dev.setReg_yards]
@[simp] theorem Dev.ctl_setReg (off v : Nat) (i : Nat) : (d.setReg off v).ctl i = d.ctl i := by unfold Dev.ctl; rw [Dev.setReg_hold]
@[simp] theorem Dev.link_setReg (off v : Nat) (i : Nat) : (d.setReg off v).link i = d.link i := by unfold Dev.link; rw [Dev.setReg_links]
@[simp] theorem Dev.pr_setReg (off v : Nat) (i : Nat) : (d.setReg off v).pr i = d.pr i := by unfold Dev.pr; rw [Dev.setReg_press]

@[simp] theorem Dev.byte_setFld (off : Nat) (f : Fld) (x : Nat) (i : Nat) : (d.setFld off f x).byte i = d.byte i := by unfold Dev.byte; rw [Dev.setFld_mem]
@[simp] theorem Dev.tile_setFld (off : Nat) (f : Fld) (x : Nat) (i : Nat) : (d.setFld off f x).tile i = d.tile i := by unfold Dev.tile; rw [Dev.setFld_tiles]
@[simp] theorem Dev.core_setFld (off : Nat) (f : Fld) (x : Nat) (i j : Nat) : (d.setFld off f x).core i j = d.core i j := by unfold Dev.core Dev.tile; rw [Dev.setFld_tiles]
@[simp] theorem Dev.yard_setFld (off : Nat) (f : Fld) (x : Nat) (i : Nat) : (d.setFld off f x).yard i = d.yard i := by unfold Dev.yard; rw [Dev.setFld_yards]
@[simp] theorem Dev.ctl_setFld (off : Nat) (f : Fld) (x : Nat) (i : Nat) : (d.setFld off f x).ctl i = d.ctl i := by unfold Dev.ctl; rw [Dev.setFld_hold]
@[simp] theorem Dev.link_setFld (off : Nat) (f : Fld) (x : Nat) (i : Nat) : (d.setFld off f x).link i = d.link i := by unfold Dev.link; rw [Dev.setFld_links]
@[simp] theorem Dev.pr_setFld (off : Nat) (f : Fld) (x : Nat) (i : Nat) : (d.setFld off f x).pr i = d.pr i := by unfold Dev.pr; rw [Dev.setFld_press]

@[simp] theorem Dev.byte_setFlag (off : Nat) (f : Fld) (b : Bool) (i : Nat) : (d.setFlag off f b).byte i = d.byte i := by unfold Dev.byte; rw [Dev.setFlag_mem]
@[simp] theorem Dev.tile_setFlag (off : Nat) (f : Fld) (b : Bool) (i : Nat) : (d.setFlag off f b).tile i = d.tile i := by unfold Dev.tile; rw [Dev.setFlag_tiles]
@[simp] theorem Dev.core_setFlag (off : Nat) (f : Fld) (b : Bool) (i j : Nat) : (d.setFlag off f b).core i j = d.core i j := by unfold Dev.core Dev.tile; rw [Dev.setFlag_tiles]
@[simp] theorem Dev.yard_setFlag (off : Nat) (f : Fld) (b : Bool) (i : Nat) : (d.setFlag off f b).yard i = d.yard i := by unfold Dev.yard; rw [Dev.setFlag_yards]
@[simp] theorem Dev.ctl_setFlag (off : Nat) (f : Fld) (b : Bool) (i : Nat) : (d.setFlag off f b).ctl i = d.ctl i := by unfold Dev.ctl; rw [Dev.setFlag_hold]
@[simp] theorem Dev.link_setFlag (off : Nat) (f : Fld) (b : Bool) (i : Nat) : (d.setFlag off f b).link i = d.link i := by unfold Dev.link; rw [Dev.setFlag_links]
@[simp] theorem Dev.pr_setFlag (off : Nat) (f : Fld) (b : Bool) (i : Nat) : (d.setFlag off f b).pr i = d.pr i := by unfold Dev.pr; rw [Dev.setFlag_press]

@[simp] theorem Dev.byte_satFld (off : Nat) (f : Fld) (n : Nat) (i : Nat) : (d.satFld off f n).byte i = d.byte i := by unfold Dev.byte; rw [Dev.satFld_mem]
@[simp] theorem Dev.tile_satFld (off : Nat) (f : Fld) (n : Nat) (i : Nat) : (d.satFld off f n).tile i = d.tile i := by unfold Dev.tile; rw [Dev.satFld_tiles]
@[simp] theorem Dev.core_satFld (off : Nat) (f : Fld) (n : Nat) (i j : Nat) : (d.satFld off f n).core i j = d.core i j := by unfold Dev.core Dev.tile; rw [Dev.satFld_tiles]
@[simp] theorem Dev.yard_satFld (off : Nat) (f : Fld) (n : Nat) (i : Nat) : (d.satFld off f n).yard i = d.yard i := by unfold Dev.yard; rw [Dev.satFld_yards]
@[simp] theorem Dev.ctl_satFld (off : Nat) (f : Fld) (n : Nat) (i : Nat) : (d.satFld off f n).ctl i = d.ctl i := by unfold Dev.ctl; rw [Dev.satFld_hold]
@[simp] theorem Dev.link_satFld (off : Nat) (f : Fld) (n : Nat) (i : Nat) : (d.satFld off f n).link i = d.link i := by unfold Dev.link; rw [Dev.satFld_links]
@[simp] theorem Dev.pr_satFld (off : Nat) (f : Fld) (n : Nat) (i : Nat) : (d.satFld off f n).pr i = d.pr i := by unfold Dev.pr; rw [Dev.satFld_press]

@[simp] theorem Dev.byte_incFld (off : Nat) (f : Fld) (n : Nat) (i : Nat) : (d.incFld off f n).byte i = d.byte i := by unfold Dev.byte; rw [Dev.incFld_mem]
@[simp] theorem Dev.tile_incFld (off : Nat) (f : Fld) (n : Nat) (i : Nat) : (d.incFld off f n).tile i = d.tile i := by unfold Dev.tile; rw [Dev.incFld_tiles]
@[simp] theorem Dev.core_incFld (off : Nat) (f : Fld) (n : Nat) (i j : Nat) : (d.incFld off f n).core i j = d.core i j := by unfold Dev.core Dev.tile; rw [Dev.incFld_tiles]
@[simp] theorem Dev.yard_incFld (off : Nat) (f : Fld) (n : Nat) (i : Nat) : (d.incFld off f n).yard i = d.yard i := by unfold Dev.yard; rw [Dev.incFld_yards]
@[simp] theorem Dev.ctl_incFld (off : Nat) (f : Fld) (n : Nat) (i : Nat) : (d.incFld off f n).ctl i = d.ctl i := by unfold Dev.ctl; rw [Dev.incFld_hold]
@[simp] theorem Dev.link_incFld (off : Nat) (f : Fld) (n : Nat) (i : Nat) : (d.incFld off f n).link i = d.link i := by unfold Dev.link; rw [Dev.incFld_links]
@[simp] theorem Dev.pr_incFld (off : Nat) (f : Fld) (n : Nat) (i : Nat) : (d.incFld off f n).pr i = d.pr i := by unfold Dev.pr; rw [Dev.incFld_press]

@[simp] theorem Dev.byte_setReg64 (lo hi v : Nat) (i : Nat) : (d.setReg64 lo hi v).byte i = d.byte i := by unfold Dev.byte; rw [Dev.setReg64_mem]
@[simp] theorem Dev.tile_setReg64 (lo hi v : Nat) (i : Nat) : (d.setReg64 lo hi v).tile i = d.tile i := by unfold Dev.tile; rw [Dev.setReg64_tiles]
@[simp] theorem Dev.core_setReg64 (lo hi v : Nat) (i j : Nat) : (d.setReg64 lo hi v).core i j = d.core i j := by unfold Dev.core Dev.tile; rw [Dev.setReg64_tiles]
@[simp] theorem Dev.yard_setReg64 (lo hi v : Nat) (i : Nat) : (d.setReg64 lo hi v).yard i = d.yard i := by unfold Dev.yard; rw [Dev.setReg64_yards]
@[simp] theorem Dev.ctl_setReg64 (lo hi v : Nat) (i : Nat) : (d.setReg64 lo hi v).ctl i = d.ctl i := by unfold Dev.ctl; rw [Dev.setReg64_hold]
@[simp] theorem Dev.link_setReg64 (lo hi v : Nat) (i : Nat) : (d.setReg64 lo hi v).link i = d.link i := by unfold Dev.link; rw [Dev.setReg64_links]
@[simp] theorem Dev.pr_setReg64 (lo hi v : Nat) (i : Nat) : (d.setReg64 lo hi v).pr i = d.pr i := by unfold Dev.pr; rw [Dev.setReg64_press]

@[simp] theorem Dev.byte_inc64 (lo hi n : Nat) (i : Nat) : (d.inc64 lo hi n).byte i = d.byte i := by unfold Dev.byte; rw [Dev.inc64_mem]
@[simp] theorem Dev.tile_inc64 (lo hi n : Nat) (i : Nat) : (d.inc64 lo hi n).tile i = d.tile i := by unfold Dev.tile; rw [Dev.inc64_tiles]
@[simp] theorem Dev.core_inc64 (lo hi n : Nat) (i j : Nat) : (d.inc64 lo hi n).core i j = d.core i j := by unfold Dev.core Dev.tile; rw [Dev.inc64_tiles]
@[simp] theorem Dev.yard_inc64 (lo hi n : Nat) (i : Nat) : (d.inc64 lo hi n).yard i = d.yard i := by unfold Dev.yard; rw [Dev.inc64_yards]
@[simp] theorem Dev.ctl_inc64 (lo hi n : Nat) (i : Nat) : (d.inc64 lo hi n).ctl i = d.ctl i := by unfold Dev.ctl; rw [Dev.inc64_hold]
@[simp] theorem Dev.link_inc64 (lo hi n : Nat) (i : Nat) : (d.inc64 lo hi n).link i = d.link i := by unfold Dev.link; rw [Dev.inc64_links]
@[simp] theorem Dev.pr_inc64 (lo hi n : Nat) (i : Nat) : (d.inc64 lo hi n).pr i = d.pr i := by unfold Dev.pr; rw [Dev.inc64_press]

@[simp] theorem Dev.byte_counted (p : Nat) (i : Nat) : (d.counted p).byte i = d.byte i := by unfold Dev.byte; rw [Dev.counted_mem]
@[simp] theorem Dev.tile_counted (p : Nat) (i : Nat) : (d.counted p).tile i = d.tile i := by unfold Dev.tile; rw [Dev.counted_tiles]
@[simp] theorem Dev.core_counted (p : Nat) (i j : Nat) : (d.counted p).core i j = d.core i j := by unfold Dev.core Dev.tile; rw [Dev.counted_tiles]
@[simp] theorem Dev.yard_counted (p : Nat) (i : Nat) : (d.counted p).yard i = d.yard i := by unfold Dev.yard; rw [Dev.counted_yards]
@[simp] theorem Dev.ctl_counted (p : Nat) (i : Nat) : (d.counted p).ctl i = d.ctl i := by unfold Dev.ctl; rw [Dev.counted_hold]
@[simp] theorem Dev.link_counted (p : Nat) (i : Nat) : (d.counted p).link i = d.link i := by unfold Dev.link; rw [Dev.counted_links]
@[simp] theorem Dev.pr_counted (p : Nat) (i : Nat) : (d.counted p).pr i = d.pr i := by unfold Dev.pr; rw [Dev.counted_press]

@[simp] theorem Dev.byte_dropRegs (p : RegName → Bool) (i : Nat) : (d.dropRegs p).byte i = d.byte i := by unfold Dev.byte; rw [Dev.dropRegs_mem]
@[simp] theorem Dev.tile_dropRegs (p : RegName → Bool) (i : Nat) : (d.dropRegs p).tile i = d.tile i := by unfold Dev.tile; rw [Dev.dropRegs_tiles]
@[simp] theorem Dev.core_dropRegs (p : RegName → Bool) (i j : Nat) : (d.dropRegs p).core i j = d.core i j := by unfold Dev.core Dev.tile; rw [Dev.dropRegs_tiles]
@[simp] theorem Dev.yard_dropRegs (p : RegName → Bool) (i : Nat) : (d.dropRegs p).yard i = d.yard i := by unfold Dev.yard; rw [Dev.dropRegs_yards]
@[simp] theorem Dev.ctl_dropRegs (p : RegName → Bool) (i : Nat) : (d.dropRegs p).ctl i = d.ctl i := by unfold Dev.ctl; rw [Dev.dropRegs_hold]
@[simp] theorem Dev.link_dropRegs (p : RegName → Bool) (i : Nat) : (d.dropRegs p).link i = d.link i := by unfold Dev.link; rw [Dev.dropRegs_links]
@[simp] theorem Dev.pr_dropRegs (p : RegName → Bool) (i : Nat) : (d.dropRegs p).pr i = d.pr i := by unfold Dev.pr; rw [Dev.dropRegs_press]

@[simp] theorem Dev.reg_store (a : Nat) (bs : List Byte) (i : Nat) : (d.store a bs).reg i = d.reg i := by unfold Dev.reg; rw [Dev.store_regs]
@[simp] theorem Dev.tile_store (a : Nat) (bs : List Byte) (i : Nat) : (d.store a bs).tile i = d.tile i := by unfold Dev.tile; rw [Dev.store_tiles]
@[simp] theorem Dev.core_store (a : Nat) (bs : List Byte) (i j : Nat) : (d.store a bs).core i j = d.core i j := by unfold Dev.core Dev.tile; rw [Dev.store_tiles]
@[simp] theorem Dev.yard_store (a : Nat) (bs : List Byte) (i : Nat) : (d.store a bs).yard i = d.yard i := by unfold Dev.yard; rw [Dev.store_yards]
@[simp] theorem Dev.ctl_store (a : Nat) (bs : List Byte) (i : Nat) : (d.store a bs).ctl i = d.ctl i := by unfold Dev.ctl; rw [Dev.store_hold]
@[simp] theorem Dev.link_store (a : Nat) (bs : List Byte) (i : Nat) : (d.store a bs).link i = d.link i := by unfold Dev.link; rw [Dev.store_links]
@[simp] theorem Dev.pr_store (a : Nat) (bs : List Byte) (i : Nat) : (d.store a bs).pr i = d.pr i := by unfold Dev.pr; rw [Dev.store_press]

@[simp] theorem Dev.reg_storeNat (a n v : Nat) (i : Nat) : (d.storeNat a n v).reg i = d.reg i := by unfold Dev.reg; rw [Dev.storeNat_regs]
@[simp] theorem Dev.tile_storeNat (a n v : Nat) (i : Nat) : (d.storeNat a n v).tile i = d.tile i := by unfold Dev.tile; rw [Dev.storeNat_tiles]
@[simp] theorem Dev.core_storeNat (a n v : Nat) (i j : Nat) : (d.storeNat a n v).core i j = d.core i j := by unfold Dev.core Dev.tile; rw [Dev.storeNat_tiles]
@[simp] theorem Dev.yard_storeNat (a n v : Nat) (i : Nat) : (d.storeNat a n v).yard i = d.yard i := by unfold Dev.yard; rw [Dev.storeNat_yards]
@[simp] theorem Dev.ctl_storeNat (a n v : Nat) (i : Nat) : (d.storeNat a n v).ctl i = d.ctl i := by unfold Dev.ctl; rw [Dev.storeNat_hold]
@[simp] theorem Dev.link_storeNat (a n v : Nat) (i : Nat) : (d.storeNat a n v).link i = d.link i := by unfold Dev.link; rw [Dev.storeNat_links]
@[simp] theorem Dev.pr_storeNat (a n v : Nat) (i : Nat) : (d.storeNat a n v).pr i = d.pr i := by unfold Dev.pr; rw [Dev.storeNat_press]

@[simp] theorem Dev.reg_dropMem (p : Nat → Bool) (i : Nat) : (d.dropMem p).reg i = d.reg i := by unfold Dev.reg; rw [Dev.dropMem_regs]
@[simp] theorem Dev.tile_dropMem (p : Nat → Bool) (i : Nat) : (d.dropMem p).tile i = d.tile i := by unfold Dev.tile; rw [Dev.dropMem_tiles]
@[simp] theorem Dev.core_dropMem (p : Nat → Bool) (i j : Nat) : (d.dropMem p).core i j = d.core i j := by unfold Dev.core Dev.tile; rw [Dev.dropMem_tiles]
@[simp] theorem Dev.yard_dropMem (p : Nat → Bool) (i : Nat) : (d.dropMem p).yard i = d.yard i := by unfold Dev.yard; rw [Dev.dropMem_yards]
@[simp] theorem Dev.ctl_dropMem (p : Nat → Bool) (i : Nat) : (d.dropMem p).ctl i = d.ctl i := by unfold Dev.ctl; rw [Dev.dropMem_hold]
@[simp] theorem Dev.link_dropMem (p : Nat → Bool) (i : Nat) : (d.dropMem p).link i = d.link i := by unfold Dev.link; rw [Dev.dropMem_links]
@[simp] theorem Dev.pr_dropMem (p : Nat → Bool) (i : Nat) : (d.dropMem p).pr i = d.pr i := by unfold Dev.pr; rw [Dev.dropMem_press]

@[simp] theorem Dev.tile_canon (i : Nat) : (d.canon).tile i = d.tile i := by unfold Dev.tile; rw [Dev.canon_tiles]
@[simp] theorem Dev.core_canon (i j : Nat) : (d.canon).core i j = d.core i j := by unfold Dev.core Dev.tile; rw [Dev.canon_tiles]
@[simp] theorem Dev.yard_canon (i : Nat) : (d.canon).yard i = d.yard i := by unfold Dev.yard; rw [Dev.canon_yards]
@[simp] theorem Dev.ctl_canon (i : Nat) : (d.canon).ctl i = d.ctl i := by unfold Dev.ctl; rw [Dev.canon_hold]
@[simp] theorem Dev.link_canon (i : Nat) : (d.canon).link i = d.link i := by unfold Dev.link; rw [Dev.canon_links]
@[simp] theorem Dev.pr_canon (i : Nat) : (d.canon).pr i = d.pr i := by unfold Dev.pr; rw [Dev.canon_press]

@[simp] theorem Dev.reg_setTile (p : Nat) (t : Tile) (i : Nat) : (d.setTile p t).reg i = d.reg i := by unfold Dev.reg; rw [Dev.setTile_regs]
@[simp] theorem Dev.byte_setTile (p : Nat) (t : Tile) (i : Nat) : (d.setTile p t).byte i = d.byte i := by unfold Dev.byte; rw [Dev.setTile_mem]
@[simp] theorem Dev.yard_setTile (p : Nat) (t : Tile) (i : Nat) : (d.setTile p t).yard i = d.yard i := by unfold Dev.yard; rw [Dev.setTile_yards]
@[simp] theorem Dev.ctl_setTile (p : Nat) (t : Tile) (i : Nat) : (d.setTile p t).ctl i = d.ctl i := by unfold Dev.ctl; rw [Dev.setTile_hold]
@[simp] theorem Dev.link_setTile (p : Nat) (t : Tile) (i : Nat) : (d.setTile p t).link i = d.link i := by unfold Dev.link; rw [Dev.setTile_links]
@[simp] theorem Dev.pr_setTile (p : Nat) (t : Tile) (i : Nat) : (d.setTile p t).pr i = d.pr i := by unfold Dev.pr; rw [Dev.setTile_press]

@[simp] theorem Dev.reg_modTile (p : Nat) (f : Tile → Tile) (i : Nat) : (d.modTile p f).reg i = d.reg i := by unfold Dev.reg; rw [Dev.modTile_regs]
@[simp] theorem Dev.byte_modTile (p : Nat) (f : Tile → Tile) (i : Nat) : (d.modTile p f).byte i = d.byte i := by unfold Dev.byte; rw [Dev.modTile_mem]
@[simp] theorem Dev.yard_modTile (p : Nat) (f : Tile → Tile) (i : Nat) : (d.modTile p f).yard i = d.yard i := by unfold Dev.yard; rw [Dev.modTile_yards]
@[simp] theorem Dev.ctl_modTile (p : Nat) (f : Tile → Tile) (i : Nat) : (d.modTile p f).ctl i = d.ctl i := by unfold Dev.ctl; rw [Dev.modTile_hold]
@[simp] theorem Dev.link_modTile (p : Nat) (f : Tile → Tile) (i : Nat) : (d.modTile p f).link i = d.link i := by unfold Dev.link; rw [Dev.modTile_links]
@[simp] theorem Dev.pr_modTile (p : Nat) (f : Tile → Tile) (i : Nat) : (d.modTile p f).pr i = d.pr i := by unfold Dev.pr; rw [Dev.modTile_press]

@[simp] theorem Dev.reg_setCore (p c : Nat) (k : Core) (i : Nat) : (d.setCore p c k).reg i = d.reg i := by unfold Dev.reg; rw [Dev.setCore_regs]
@[simp] theorem Dev.byte_setCore (p c : Nat) (k : Core) (i : Nat) : (d.setCore p c k).byte i = d.byte i := by unfold Dev.byte; rw [Dev.setCore_mem]
@[simp] theorem Dev.yard_setCore (p c : Nat) (k : Core) (i : Nat) : (d.setCore p c k).yard i = d.yard i := by unfold Dev.yard; rw [Dev.setCore_yards]
@[simp] theorem Dev.ctl_setCore (p c : Nat) (k : Core) (i : Nat) : (d.setCore p c k).ctl i = d.ctl i := by unfold Dev.ctl; rw [Dev.setCore_hold]
@[simp] theorem Dev.link_setCore (p c : Nat) (k : Core) (i : Nat) : (d.setCore p c k).link i = d.link i := by unfold Dev.link; rw [Dev.setCore_links]
@[simp] theorem Dev.pr_setCore (p c : Nat) (k : Core) (i : Nat) : (d.setCore p c k).pr i = d.pr i := by unfold Dev.pr; rw [Dev.setCore_press]

@[simp] theorem Dev.reg_modCore (p c : Nat) (f : Core → Core) (i : Nat) : (d.modCore p c f).reg i = d.reg i := by unfold Dev.reg; rw [Dev.modCore_regs]
@[simp] theorem Dev.byte_modCore (p c : Nat) (f : Core → Core) (i : Nat) : (d.modCore p c f).byte i = d.byte i := by unfold Dev.byte; rw [Dev.modCore_mem]
@[simp] theorem Dev.yard_modCore (p c : Nat) (f : Core → Core) (i : Nat) : (d.modCore p c f).yard i = d.yard i := by unfold Dev.yard; rw [Dev.modCore_yards]
@[simp] theorem Dev.ctl_modCore (p c : Nat) (f : Core → Core) (i : Nat) : (d.modCore p c f).ctl i = d.ctl i := by unfold Dev.ctl; rw [Dev.modCore_hold]
@[simp] theorem Dev.link_modCore (p c : Nat) (f : Core → Core) (i : Nat) : (d.modCore p c f).link i = d.link i := by unfold Dev.link; rw [Dev.modCore_links]
@[simp] theorem Dev.pr_modCore (p c : Nat) (f : Core → Core) (i : Nat) : (d.modCore p c f).pr i = d.pr i := by unfold Dev.pr; rw [Dev.modCore_press]

@[simp] theorem Dev.reg_setGalley (p g : Nat) (x : Galley) (i : Nat) : (d.setGalley p g x).reg i = d.reg i := by unfold Dev.reg; rw [Dev.setGalley_regs]
@[simp] theorem Dev.byte_setGalley (p g : Nat) (x : Galley) (i : Nat) : (d.setGalley p g x).byte i = d.byte i := by unfold Dev.byte; rw [Dev.setGalley_mem]
@[simp] theorem Dev.yard_setGalley (p g : Nat) (x : Galley) (i : Nat) : (d.setGalley p g x).yard i = d.yard i := by unfold Dev.yard; rw [Dev.setGalley_yards]
@[simp] theorem Dev.ctl_setGalley (p g : Nat) (x : Galley) (i : Nat) : (d.setGalley p g x).ctl i = d.ctl i := by unfold Dev.ctl; rw [Dev.setGalley_hold]
@[simp] theorem Dev.link_setGalley (p g : Nat) (x : Galley) (i : Nat) : (d.setGalley p g x).link i = d.link i := by unfold Dev.link; rw [Dev.setGalley_links]
@[simp] theorem Dev.pr_setGalley (p g : Nat) (x : Galley) (i : Nat) : (d.setGalley p g x).pr i = d.pr i := by unfold Dev.pr; rw [Dev.setGalley_press]

@[simp] theorem Dev.reg_setEngine (p e : Nat) (x : Engine) (i : Nat) : (d.setEngine p e x).reg i = d.reg i := by unfold Dev.reg; rw [Dev.setEngine_regs]
@[simp] theorem Dev.byte_setEngine (p e : Nat) (x : Engine) (i : Nat) : (d.setEngine p e x).byte i = d.byte i := by unfold Dev.byte; rw [Dev.setEngine_mem]
@[simp] theorem Dev.yard_setEngine (p e : Nat) (x : Engine) (i : Nat) : (d.setEngine p e x).yard i = d.yard i := by unfold Dev.yard; rw [Dev.setEngine_yards]
@[simp] theorem Dev.ctl_setEngine (p e : Nat) (x : Engine) (i : Nat) : (d.setEngine p e x).ctl i = d.ctl i := by unfold Dev.ctl; rw [Dev.setEngine_hold]
@[simp] theorem Dev.link_setEngine (p e : Nat) (x : Engine) (i : Nat) : (d.setEngine p e x).link i = d.link i := by unfold Dev.link; rw [Dev.setEngine_links]
@[simp] theorem Dev.pr_setEngine (p e : Nat) (x : Engine) (i : Nat) : (d.setEngine p e x).pr i = d.pr i := by unfold Dev.pr; rw [Dev.setEngine_press]

@[simp] theorem Dev.reg_putS (h : Iss) (r : R5) (v : DWord) (i : Nat) : (d.putS h r v).reg i = d.reg i := by unfold Dev.reg; rw [Dev.putS_regs]
@[simp] theorem Dev.byte_putS (h : Iss) (r : R5) (v : DWord) (i : Nat) : (d.putS h r v).byte i = d.byte i := by unfold Dev.byte; rw [Dev.putS_mem]
@[simp] theorem Dev.yard_putS (h : Iss) (r : R5) (v : DWord) (i : Nat) : (d.putS h r v).yard i = d.yard i := by unfold Dev.yard; rw [Dev.putS_yards]
@[simp] theorem Dev.ctl_putS (h : Iss) (r : R5) (v : DWord) (i : Nat) : (d.putS h r v).ctl i = d.ctl i := by unfold Dev.ctl; rw [Dev.putS_hold]
@[simp] theorem Dev.link_putS (h : Iss) (r : R5) (v : DWord) (i : Nat) : (d.putS h r v).link i = d.link i := by unfold Dev.link; rw [Dev.putS_links]
@[simp] theorem Dev.pr_putS (h : Iss) (r : R5) (v : DWord) (i : Nat) : (d.putS h r v).pr i = d.pr i := by unfold Dev.pr; rw [Dev.putS_press]

@[simp] theorem Dev.reg_putP (h : Iss) (r : Nat) (v : Pred) (i : Nat) : (d.putP h r v).reg i = d.reg i := by unfold Dev.reg; rw [Dev.putP_regs]
@[simp] theorem Dev.byte_putP (h : Iss) (r : Nat) (v : Pred) (i : Nat) : (d.putP h r v).byte i = d.byte i := by unfold Dev.byte; rw [Dev.putP_mem]
@[simp] theorem Dev.yard_putP (h : Iss) (r : Nat) (v : Pred) (i : Nat) : (d.putP h r v).yard i = d.yard i := by unfold Dev.yard; rw [Dev.putP_yards]
@[simp] theorem Dev.ctl_putP (h : Iss) (r : Nat) (v : Pred) (i : Nat) : (d.putP h r v).ctl i = d.ctl i := by unfold Dev.ctl; rw [Dev.putP_hold]
@[simp] theorem Dev.link_putP (h : Iss) (r : Nat) (v : Pred) (i : Nat) : (d.putP h r v).link i = d.link i := by unfold Dev.link; rw [Dev.putP_links]
@[simp] theorem Dev.pr_putP (h : Iss) (r : Nat) (v : Pred) (i : Nat) : (d.putP h r v).pr i = d.pr i := by unfold Dev.pr; rw [Dev.putP_press]

@[simp] theorem Dev.reg_setYard (y : Nat) (x : YardS) (i : Nat) : (d.setYard y x).reg i = d.reg i := by unfold Dev.reg; rw [Dev.setYard_regs]
@[simp] theorem Dev.byte_setYard (y : Nat) (x : YardS) (i : Nat) : (d.setYard y x).byte i = d.byte i := by unfold Dev.byte; rw [Dev.setYard_mem]
@[simp] theorem Dev.tile_setYard (y : Nat) (x : YardS) (i : Nat) : (d.setYard y x).tile i = d.tile i := by unfold Dev.tile; rw [Dev.setYard_tiles]
@[simp] theorem Dev.core_setYard (y : Nat) (x : YardS) (i j : Nat) : (d.setYard y x).core i j = d.core i j := by unfold Dev.core Dev.tile; rw [Dev.setYard_tiles]
@[simp] theorem Dev.ctl_setYard (y : Nat) (x : YardS) (i : Nat) : (d.setYard y x).ctl i = d.ctl i := by unfold Dev.ctl; rw [Dev.setYard_hold]
@[simp] theorem Dev.link_setYard (y : Nat) (x : YardS) (i : Nat) : (d.setYard y x).link i = d.link i := by unfold Dev.link; rw [Dev.setYard_links]
@[simp] theorem Dev.pr_setYard (y : Nat) (x : YardS) (i : Nat) : (d.setYard y x).pr i = d.pr i := by unfold Dev.pr; rw [Dev.setYard_press]

@[simp] theorem Dev.reg_modYard (y : Nat) (f : YardS → YardS) (i : Nat) : (d.modYard y f).reg i = d.reg i := by unfold Dev.reg; rw [Dev.modYard_regs]
@[simp] theorem Dev.byte_modYard (y : Nat) (f : YardS → YardS) (i : Nat) : (d.modYard y f).byte i = d.byte i := by unfold Dev.byte; rw [Dev.modYard_mem]
@[simp] theorem Dev.tile_modYard (y : Nat) (f : YardS → YardS) (i : Nat) : (d.modYard y f).tile i = d.tile i := by unfold Dev.tile; rw [Dev.modYard_tiles]
@[simp] theorem Dev.core_modYard (y : Nat) (f : YardS → YardS) (i j : Nat) : (d.modYard y f).core i j = d.core i j := by unfold Dev.core Dev.tile; rw [Dev.modYard_tiles]
@[simp] theorem Dev.ctl_modYard (y : Nat) (f : YardS → YardS) (i : Nat) : (d.modYard y f).ctl i = d.ctl i := by unfold Dev.ctl; rw [Dev.modYard_hold]
@[simp] theorem Dev.link_modYard (y : Nat) (f : YardS → YardS) (i : Nat) : (d.modYard y f).link i = d.link i := by unfold Dev.link; rw [Dev.modYard_links]
@[simp] theorem Dev.pr_modYard (y : Nat) (f : YardS → YardS) (i : Nat) : (d.modYard y f).pr i = d.pr i := by unfold Dev.pr; rw [Dev.modYard_press]

@[simp] theorem Dev.reg_setCtl (c : Nat) (x : HoldC) (i : Nat) : (d.setCtl c x).reg i = d.reg i := by unfold Dev.reg; rw [Dev.setCtl_regs]
@[simp] theorem Dev.byte_setCtl (c : Nat) (x : HoldC) (i : Nat) : (d.setCtl c x).byte i = d.byte i := by unfold Dev.byte; rw [Dev.setCtl_mem]
@[simp] theorem Dev.tile_setCtl (c : Nat) (x : HoldC) (i : Nat) : (d.setCtl c x).tile i = d.tile i := by unfold Dev.tile; rw [Dev.setCtl_tiles]
@[simp] theorem Dev.core_setCtl (c : Nat) (x : HoldC) (i j : Nat) : (d.setCtl c x).core i j = d.core i j := by unfold Dev.core Dev.tile; rw [Dev.setCtl_tiles]
@[simp] theorem Dev.yard_setCtl (c : Nat) (x : HoldC) (i : Nat) : (d.setCtl c x).yard i = d.yard i := by unfold Dev.yard; rw [Dev.setCtl_yards]
@[simp] theorem Dev.link_setCtl (c : Nat) (x : HoldC) (i : Nat) : (d.setCtl c x).link i = d.link i := by unfold Dev.link; rw [Dev.setCtl_links]
@[simp] theorem Dev.pr_setCtl (c : Nat) (x : HoldC) (i : Nat) : (d.setCtl c x).pr i = d.pr i := by unfold Dev.pr; rw [Dev.setCtl_press]

@[simp] theorem Dev.reg_setLink (n : Nat) (x : LinkP) (i : Nat) : (d.setLink n x).reg i = d.reg i := by unfold Dev.reg; rw [Dev.setLink_regs]
@[simp] theorem Dev.byte_setLink (n : Nat) (x : LinkP) (i : Nat) : (d.setLink n x).byte i = d.byte i := by unfold Dev.byte; rw [Dev.setLink_mem]
@[simp] theorem Dev.tile_setLink (n : Nat) (x : LinkP) (i : Nat) : (d.setLink n x).tile i = d.tile i := by unfold Dev.tile; rw [Dev.setLink_tiles]
@[simp] theorem Dev.core_setLink (n : Nat) (x : LinkP) (i j : Nat) : (d.setLink n x).core i j = d.core i j := by unfold Dev.core Dev.tile; rw [Dev.setLink_tiles]
@[simp] theorem Dev.yard_setLink (n : Nat) (x : LinkP) (i : Nat) : (d.setLink n x).yard i = d.yard i := by unfold Dev.yard; rw [Dev.setLink_yards]
@[simp] theorem Dev.ctl_setLink (n : Nat) (x : LinkP) (i : Nat) : (d.setLink n x).ctl i = d.ctl i := by unfold Dev.ctl; rw [Dev.setLink_hold]
@[simp] theorem Dev.pr_setLink (n : Nat) (x : LinkP) (i : Nat) : (d.setLink n x).pr i = d.pr i := by unfold Dev.pr; rw [Dev.setLink_press]

@[simp] theorem Dev.reg_modLink (n : Nat) (f : LinkP → LinkP) (i : Nat) : (d.modLink n f).reg i = d.reg i := by unfold Dev.reg; rw [Dev.modLink_regs]
@[simp] theorem Dev.byte_modLink (n : Nat) (f : LinkP → LinkP) (i : Nat) : (d.modLink n f).byte i = d.byte i := by unfold Dev.byte; rw [Dev.modLink_mem]
@[simp] theorem Dev.tile_modLink (n : Nat) (f : LinkP → LinkP) (i : Nat) : (d.modLink n f).tile i = d.tile i := by unfold Dev.tile; rw [Dev.modLink_tiles]
@[simp] theorem Dev.core_modLink (n : Nat) (f : LinkP → LinkP) (i j : Nat) : (d.modLink n f).core i j = d.core i j := by unfold Dev.core Dev.tile; rw [Dev.modLink_tiles]
@[simp] theorem Dev.yard_modLink (n : Nat) (f : LinkP → LinkP) (i : Nat) : (d.modLink n f).yard i = d.yard i := by unfold Dev.yard; rw [Dev.modLink_yards]
@[simp] theorem Dev.ctl_modLink (n : Nat) (f : LinkP → LinkP) (i : Nat) : (d.modLink n f).ctl i = d.ctl i := by unfold Dev.ctl; rw [Dev.modLink_hold]
@[simp] theorem Dev.pr_modLink (n : Nat) (f : LinkP → LinkP) (i : Nat) : (d.modLink n f).pr i = d.pr i := by unfold Dev.pr; rw [Dev.modLink_press]

@[simp] theorem Dev.reg_setPr (c : Nat) (x : Press) (i : Nat) : (d.setPr c x).reg i = d.reg i := by unfold Dev.reg; rw [Dev.setPr_regs]
@[simp] theorem Dev.byte_setPr (c : Nat) (x : Press) (i : Nat) : (d.setPr c x).byte i = d.byte i := by unfold Dev.byte; rw [Dev.setPr_mem]
@[simp] theorem Dev.tile_setPr (c : Nat) (x : Press) (i : Nat) : (d.setPr c x).tile i = d.tile i := by unfold Dev.tile; rw [Dev.setPr_tiles]
@[simp] theorem Dev.core_setPr (c : Nat) (x : Press) (i j : Nat) : (d.setPr c x).core i j = d.core i j := by unfold Dev.core Dev.tile; rw [Dev.setPr_tiles]
@[simp] theorem Dev.yard_setPr (c : Nat) (x : Press) (i : Nat) : (d.setPr c x).yard i = d.yard i := by unfold Dev.yard; rw [Dev.setPr_yards]
@[simp] theorem Dev.ctl_setPr (c : Nat) (x : Press) (i : Nat) : (d.setPr c x).ctl i = d.ctl i := by unfold Dev.ctl; rw [Dev.setPr_hold]
@[simp] theorem Dev.link_setPr (c : Nat) (x : Press) (i : Nat) : (d.setPr c x).link i = d.link i := by unfold Dev.link; rw [Dev.setPr_links]

@[simp] theorem Dev.reg_modPr (c : Nat) (f : Press → Press) (i : Nat) : (d.modPr c f).reg i = d.reg i := by unfold Dev.reg; rw [Dev.modPr_regs]
@[simp] theorem Dev.byte_modPr (c : Nat) (f : Press → Press) (i : Nat) : (d.modPr c f).byte i = d.byte i := by unfold Dev.byte; rw [Dev.modPr_mem]
@[simp] theorem Dev.tile_modPr (c : Nat) (f : Press → Press) (i : Nat) : (d.modPr c f).tile i = d.tile i := by unfold Dev.tile; rw [Dev.modPr_tiles]
@[simp] theorem Dev.core_modPr (c : Nat) (f : Press → Press) (i j : Nat) : (d.modPr c f).core i j = d.core i j := by unfold Dev.core Dev.tile; rw [Dev.modPr_tiles]
@[simp] theorem Dev.yard_modPr (c : Nat) (f : Press → Press) (i : Nat) : (d.modPr c f).yard i = d.yard i := by unfold Dev.yard; rw [Dev.modPr_yards]
@[simp] theorem Dev.ctl_modPr (c : Nat) (f : Press → Press) (i : Nat) : (d.modPr c f).ctl i = d.ctl i := by unfold Dev.ctl; rw [Dev.modPr_hold]
@[simp] theorem Dev.link_modPr (c : Nat) (f : Press → Press) (i : Nat) : (d.modPr c f).link i = d.link i := by unfold Dev.link; rw [Dev.modPr_links]

@[simp] theorem Dev.reg_send (m : Msg) (i : Nat) : (d.send m).reg i = d.reg i := by unfold Dev.reg; rw [Dev.send_regs]
@[simp] theorem Dev.byte_send (m : Msg) (i : Nat) : (d.send m).byte i = d.byte i := by unfold Dev.byte; rw [Dev.send_mem]
@[simp] theorem Dev.tile_send (m : Msg) (i : Nat) : (d.send m).tile i = d.tile i := by unfold Dev.tile; rw [Dev.send_tiles]
@[simp] theorem Dev.core_send (m : Msg) (i j : Nat) : (d.send m).core i j = d.core i j := by unfold Dev.core Dev.tile; rw [Dev.send_tiles]
@[simp] theorem Dev.yard_send (m : Msg) (i : Nat) : (d.send m).yard i = d.yard i := by unfold Dev.yard; rw [Dev.send_yards]
@[simp] theorem Dev.ctl_send (m : Msg) (i : Nat) : (d.send m).ctl i = d.ctl i := by unfold Dev.ctl; rw [Dev.send_hold]
@[simp] theorem Dev.link_send (m : Msg) (i : Nat) : (d.send m).link i = d.link i := by unfold Dev.link; rw [Dev.send_links]
@[simp] theorem Dev.pr_send (m : Msg) (i : Nat) : (d.send m).pr i = d.pr i := by unfold Dev.pr; rw [Dev.send_press]

@[simp] theorem Dev.reg_notice (block kind inst : Nat) (i : Nat) : (d.notice block kind inst).reg i = d.reg i := by unfold Dev.reg; rw [Dev.notice_regs]
@[simp] theorem Dev.byte_notice (block kind inst : Nat) (i : Nat) : (d.notice block kind inst).byte i = d.byte i := by unfold Dev.byte; rw [Dev.notice_mem]
@[simp] theorem Dev.tile_notice (block kind inst : Nat) (i : Nat) : (d.notice block kind inst).tile i = d.tile i := by unfold Dev.tile; rw [Dev.notice_tiles]
@[simp] theorem Dev.core_notice (block kind inst : Nat) (i j : Nat) : (d.notice block kind inst).core i j = d.core i j := by unfold Dev.core Dev.tile; rw [Dev.notice_tiles]
@[simp] theorem Dev.yard_notice (block kind inst : Nat) (i : Nat) : (d.notice block kind inst).yard i = d.yard i := by unfold Dev.yard; rw [Dev.notice_yards]
@[simp] theorem Dev.ctl_notice (block kind inst : Nat) (i : Nat) : (d.notice block kind inst).ctl i = d.ctl i := by unfold Dev.ctl; rw [Dev.notice_hold]
@[simp] theorem Dev.link_notice (block kind inst : Nat) (i : Nat) : (d.notice block kind inst).link i = d.link i := by unfold Dev.link; rw [Dev.notice_links]
@[simp] theorem Dev.pr_notice (block kind inst : Nat) (i : Nat) : (d.notice block kind inst).pr i = d.pr i := by unfold Dev.pr; rw [Dev.notice_press]

/-! ### An issue core -/

variable (k : Core)

@[simp] theorem Core.setS_v (r : R5) (x : DWord) : (k.setS r x).v = k.v := by unfold Core.setS; split <;> rfl
@[simp] theorem Core.setS_p (r : R5) (x : DWord) : (k.setS r x).p = k.p := by unfold Core.setS; split <;> rfl
@[simp] theorem Core.setS_pc (r : R5) (x : DWord) : (k.setS r x).pc = k.pc := by unfold Core.setS; split <;> rfl
@[simp] theorem Core.setS_run (r : R5) (x : DWord) : (k.setS r x).run = k.run := by unfold Core.setS; split <;> rfl
@[simp] theorem Core.setS_stalled (r : R5) (x : DWord) : (k.setS r x).stalled = k.stalled := by unfold Core.setS; split <;> rfl
@[simp] theorem Core.setS_loads (r : R5) (x : DWord) : (k.setS r x).loads = k.loads := by unfold Core.setS; split <;> rfl
@[simp] theorem Core.setS_stores (r : R5) (x : DWord) : (k.setS r x).stores = k.stores := by unfold Core.setS; split <;> rfl
@[simp] theorem Core.setS_seq (r : R5) (x : DWord) : (k.setS r x).seq = k.seq := by unfold Core.setS; split <;> rfl
@[simp] theorem Core.setS_bq (r : R5) (x : DWord) : (k.setS r x).bq = k.bq := by unfold Core.setS; split <;> rfl
@[simp] theorem Core.setS_arrived (r : R5) (x : DWord) : (k.setS r x).arrived = k.arrived := by unfold Core.setS; split <;> rfl
@[simp] theorem Core.setS_released (r : R5) (x : DWord) : (k.setS r x).released = k.released := by unfold Core.setS; split <;> rfl
@[simp] theorem Core.setS_woken (r : R5) (x : DWord) : (k.setS r x).woken = k.woken := by unfold Core.setS; split <;> rfl
@[simp] theorem Core.setS_synced (r : R5) (x : DWord) : (k.setS r x).synced = k.synced := by unfold Core.setS; split <;> rfl
@[simp] theorem Core.setS_xwaits (r : R5) (x : DWord) : (k.setS r x).xwaits = k.xwaits := by unfold Core.setS; split <;> rfl

@[simp] theorem Core.setV_s (r : Nat) (x : Vec) : (k.setV r x).s = k.s := rfl
@[simp] theorem Core.setV_p (r : Nat) (x : Vec) : (k.setV r x).p = k.p := rfl
@[simp] theorem Core.setV_pc (r : Nat) (x : Vec) : (k.setV r x).pc = k.pc := rfl
@[simp] theorem Core.setV_run (r : Nat) (x : Vec) : (k.setV r x).run = k.run := rfl
@[simp] theorem Core.setV_stalled (r : Nat) (x : Vec) : (k.setV r x).stalled = k.stalled := rfl
@[simp] theorem Core.setV_loads (r : Nat) (x : Vec) : (k.setV r x).loads = k.loads := rfl
@[simp] theorem Core.setV_stores (r : Nat) (x : Vec) : (k.setV r x).stores = k.stores := rfl
@[simp] theorem Core.setV_seq (r : Nat) (x : Vec) : (k.setV r x).seq = k.seq := rfl
@[simp] theorem Core.setV_bq (r : Nat) (x : Vec) : (k.setV r x).bq = k.bq := rfl
@[simp] theorem Core.setV_arrived (r : Nat) (x : Vec) : (k.setV r x).arrived = k.arrived := rfl
@[simp] theorem Core.setV_released (r : Nat) (x : Vec) : (k.setV r x).released = k.released := rfl
@[simp] theorem Core.setV_woken (r : Nat) (x : Vec) : (k.setV r x).woken = k.woken := rfl
@[simp] theorem Core.setV_synced (r : Nat) (x : Vec) : (k.setV r x).synced = k.synced := rfl
@[simp] theorem Core.setV_xwaits (r : Nat) (x : Vec) : (k.setV r x).xwaits = k.xwaits := rfl

@[simp] theorem Core.setP_s (r : Nat) (x : Pred) : (k.setP r x).s = k.s := by unfold Core.setP; split <;> rfl
@[simp] theorem Core.setP_v (r : Nat) (x : Pred) : (k.setP r x).v = k.v := by unfold Core.setP; split <;> rfl
@[simp] theorem Core.setP_pc (r : Nat) (x : Pred) : (k.setP r x).pc = k.pc := by unfold Core.setP; split <;> rfl
@[simp] theorem Core.setP_run (r : Nat) (x : Pred) : (k.setP r x).run = k.run := by unfold Core.setP; split <;> rfl
@[simp] theorem Core.setP_stalled (r : Nat) (x : Pred) : (k.setP r x).stalled = k.stalled := by unfold Core.setP; split <;> rfl
@[simp] theorem Core.setP_loads (r : Nat) (x : Pred) : (k.setP r x).loads = k.loads := by unfold Core.setP; split <;> rfl
@[simp] theorem Core.setP_stores (r : Nat) (x : Pred) : (k.setP r x).stores = k.stores := by unfold Core.setP; split <;> rfl
@[simp] theorem Core.setP_seq (r : Nat) (x : Pred) : (k.setP r x).seq = k.seq := by unfold Core.setP; split <;> rfl
@[simp] theorem Core.setP_bq (r : Nat) (x : Pred) : (k.setP r x).bq = k.bq := by unfold Core.setP; split <;> rfl
@[simp] theorem Core.setP_arrived (r : Nat) (x : Pred) : (k.setP r x).arrived = k.arrived := by unfold Core.setP; split <;> rfl
@[simp] theorem Core.setP_released (r : Nat) (x : Pred) : (k.setP r x).released = k.released := by unfold Core.setP; split <;> rfl
@[simp] theorem Core.setP_woken (r : Nat) (x : Pred) : (k.setP r x).woken = k.woken := by unfold Core.setP; split <;> rfl
@[simp] theorem Core.setP_synced (r : Nat) (x : Pred) : (k.setP r x).synced = k.synced := by unfold Core.setP; split <;> rfl
@[simp] theorem Core.setP_xwaits (r : Nat) (x : Pred) : (k.setP r x).xwaits = k.xwaits := by unfold Core.setP; split <;> rfl

@[simp] theorem Core.advance_s (long : Bool) : (k.advance long).s = k.s := rfl
@[simp] theorem Core.advance_v (long : Bool) : (k.advance long).v = k.v := rfl
@[simp] theorem Core.advance_p (long : Bool) : (k.advance long).p = k.p := rfl
@[simp] theorem Core.advance_loads (long : Bool) : (k.advance long).loads = k.loads := rfl
@[simp] theorem Core.advance_stores (long : Bool) : (k.advance long).stores = k.stores := rfl
@[simp] theorem Core.advance_seq (long : Bool) : (k.advance long).seq = k.seq := rfl
@[simp] theorem Core.advance_bq (long : Bool) : (k.advance long).bq = k.bq := rfl
@[simp] theorem Core.advance_arrived (long : Bool) : (k.advance long).arrived = k.arrived := rfl
@[simp] theorem Core.advance_released (long : Bool) : (k.advance long).released = k.released := rfl
@[simp] theorem Core.advance_woken (long : Bool) : (k.advance long).woken = k.woken := rfl
@[simp] theorem Core.advance_synced (long : Bool) : (k.advance long).synced = k.synced := rfl
@[simp] theorem Core.advance_xwaits (long : Bool) : (k.advance long).xwaits = k.xwaits := rfl

@[simp] theorem Core.setWide_s (r : Nat) (f : Nat → Nat) : (k.setWide r f).s = k.s := by unfold Core.setWide; rw [Core.setV_s, Core.setV_s]
@[simp] theorem Core.setWide_p (r : Nat) (f : Nat → Nat) : (k.setWide r f).p = k.p := by unfold Core.setWide; rw [Core.setV_p, Core.setV_p]
@[simp] theorem Core.setWide_pc (r : Nat) (f : Nat → Nat) : (k.setWide r f).pc = k.pc := by unfold Core.setWide; rw [Core.setV_pc, Core.setV_pc]
@[simp] theorem Core.setWide_run (r : Nat) (f : Nat → Nat) : (k.setWide r f).run = k.run := by unfold Core.setWide; rw [Core.setV_run, Core.setV_run]
@[simp] theorem Core.setWide_stalled (r : Nat) (f : Nat → Nat) : (k.setWide r f).stalled = k.stalled := by unfold Core.setWide; rw [Core.setV_stalled, Core.setV_stalled]
@[simp] theorem Core.setWide_loads (r : Nat) (f : Nat → Nat) : (k.setWide r f).loads = k.loads := by unfold Core.setWide; rw [Core.setV_loads, Core.setV_loads]
@[simp] theorem Core.setWide_stores (r : Nat) (f : Nat → Nat) : (k.setWide r f).stores = k.stores := by unfold Core.setWide; rw [Core.setV_stores, Core.setV_stores]
@[simp] theorem Core.setWide_seq (r : Nat) (f : Nat → Nat) : (k.setWide r f).seq = k.seq := by unfold Core.setWide; rw [Core.setV_seq, Core.setV_seq]
@[simp] theorem Core.setWide_bq (r : Nat) (f : Nat → Nat) : (k.setWide r f).bq = k.bq := by unfold Core.setWide; rw [Core.setV_bq, Core.setV_bq]
@[simp] theorem Core.setWide_arrived (r : Nat) (f : Nat → Nat) : (k.setWide r f).arrived = k.arrived := by unfold Core.setWide; rw [Core.setV_arrived, Core.setV_arrived]
@[simp] theorem Core.setWide_released (r : Nat) (f : Nat → Nat) : (k.setWide r f).released = k.released := by unfold Core.setWide; rw [Core.setV_released, Core.setV_released]
@[simp] theorem Core.setWide_woken (r : Nat) (f : Nat → Nat) : (k.setWide r f).woken = k.woken := by unfold Core.setWide; rw [Core.setV_woken, Core.setV_woken]
@[simp] theorem Core.setWide_synced (r : Nat) (f : Nat → Nat) : (k.setWide r f).synced = k.synced := by unfold Core.setWide; rw [Core.setV_synced, Core.setV_synced]
@[simp] theorem Core.setWide_xwaits (r : Nat) (f : Nat → Nat) : (k.setWide r f).xwaits = k.xwaits := by unfold Core.setWide; rw [Core.setV_xwaits, Core.setV_xwaits]

@[simp] theorem Core.putLanes_s (g : Pred) (r : Nat) (f : Nat → Nat) : (k.putLanes g r f).s = k.s := by unfold Core.putLanes; rw [Core.setV_s]
@[simp] theorem Core.putLanes_p (g : Pred) (r : Nat) (f : Nat → Nat) : (k.putLanes g r f).p = k.p := by unfold Core.putLanes; rw [Core.setV_p]
@[simp] theorem Core.putLanes_pc (g : Pred) (r : Nat) (f : Nat → Nat) : (k.putLanes g r f).pc = k.pc := by unfold Core.putLanes; rw [Core.setV_pc]
@[simp] theorem Core.putLanes_run (g : Pred) (r : Nat) (f : Nat → Nat) : (k.putLanes g r f).run = k.run := by unfold Core.putLanes; rw [Core.setV_run]
@[simp] theorem Core.putLanes_stalled (g : Pred) (r : Nat) (f : Nat → Nat) : (k.putLanes g r f).stalled = k.stalled := by unfold Core.putLanes; rw [Core.setV_stalled]
@[simp] theorem Core.putLanes_loads (g : Pred) (r : Nat) (f : Nat → Nat) : (k.putLanes g r f).loads = k.loads := by unfold Core.putLanes; rw [Core.setV_loads]
@[simp] theorem Core.putLanes_stores (g : Pred) (r : Nat) (f : Nat → Nat) : (k.putLanes g r f).stores = k.stores := by unfold Core.putLanes; rw [Core.setV_stores]
@[simp] theorem Core.putLanes_seq (g : Pred) (r : Nat) (f : Nat → Nat) : (k.putLanes g r f).seq = k.seq := by unfold Core.putLanes; rw [Core.setV_seq]
@[simp] theorem Core.putLanes_bq (g : Pred) (r : Nat) (f : Nat → Nat) : (k.putLanes g r f).bq = k.bq := by unfold Core.putLanes; rw [Core.setV_bq]
@[simp] theorem Core.putLanes_arrived (g : Pred) (r : Nat) (f : Nat → Nat) : (k.putLanes g r f).arrived = k.arrived := by unfold Core.putLanes; rw [Core.setV_arrived]
@[simp] theorem Core.putLanes_released (g : Pred) (r : Nat) (f : Nat → Nat) : (k.putLanes g r f).released = k.released := by unfold Core.putLanes; rw [Core.setV_released]
@[simp] theorem Core.putLanes_woken (g : Pred) (r : Nat) (f : Nat → Nat) : (k.putLanes g r f).woken = k.woken := by unfold Core.putLanes; rw [Core.setV_woken]
@[simp] theorem Core.putLanes_synced (g : Pred) (r : Nat) (f : Nat → Nat) : (k.putLanes g r f).synced = k.synced := by unfold Core.putLanes; rw [Core.setV_synced]
@[simp] theorem Core.putLanes_xwaits (g : Pred) (r : Nat) (f : Nat → Nat) : (k.putLanes g r f).xwaits = k.xwaits := by unfold Core.putLanes; rw [Core.setV_xwaits]

@[simp] theorem Core.putWide_s (g : Pred) (r : Nat) (f : Nat → Nat) : (k.putWide g r f).s = k.s := by unfold Core.putWide; rw [Core.setWide_s]
@[simp] theorem Core.putWide_p (g : Pred) (r : Nat) (f : Nat → Nat) : (k.putWide g r f).p = k.p := by unfold Core.putWide; rw [Core.setWide_p]
@[simp] theorem Core.putWide_pc (g : Pred) (r : Nat) (f : Nat → Nat) : (k.putWide g r f).pc = k.pc := by unfold Core.putWide; rw [Core.setWide_pc]
@[simp] theorem Core.putWide_run (g : Pred) (r : Nat) (f : Nat → Nat) : (k.putWide g r f).run = k.run := by unfold Core.putWide; rw [Core.setWide_run]
@[simp] theorem Core.putWide_stalled (g : Pred) (r : Nat) (f : Nat → Nat) : (k.putWide g r f).stalled = k.stalled := by unfold Core.putWide; rw [Core.setWide_stalled]
@[simp] theorem Core.putWide_loads (g : Pred) (r : Nat) (f : Nat → Nat) : (k.putWide g r f).loads = k.loads := by unfold Core.putWide; rw [Core.setWide_loads]
@[simp] theorem Core.putWide_stores (g : Pred) (r : Nat) (f : Nat → Nat) : (k.putWide g r f).stores = k.stores := by unfold Core.putWide; rw [Core.setWide_stores]
@[simp] theorem Core.putWide_seq (g : Pred) (r : Nat) (f : Nat → Nat) : (k.putWide g r f).seq = k.seq := by unfold Core.putWide; rw [Core.setWide_seq]
@[simp] theorem Core.putWide_bq (g : Pred) (r : Nat) (f : Nat → Nat) : (k.putWide g r f).bq = k.bq := by unfold Core.putWide; rw [Core.setWide_bq]
@[simp] theorem Core.putWide_arrived (g : Pred) (r : Nat) (f : Nat → Nat) : (k.putWide g r f).arrived = k.arrived := by unfold Core.putWide; rw [Core.setWide_arrived]
@[simp] theorem Core.putWide_released (g : Pred) (r : Nat) (f : Nat → Nat) : (k.putWide g r f).released = k.released := by unfold Core.putWide; rw [Core.setWide_released]
@[simp] theorem Core.putWide_woken (g : Pred) (r : Nat) (f : Nat → Nat) : (k.putWide g r f).woken = k.woken := by unfold Core.putWide; rw [Core.setWide_woken]
@[simp] theorem Core.putWide_synced (g : Pred) (r : Nat) (f : Nat → Nat) : (k.putWide g r f).synced = k.synced := by unfold Core.putWide; rw [Core.setWide_synced]
@[simp] theorem Core.putWide_xwaits (g : Pred) (r : Nat) (f : Nat → Nat) : (k.putWide g r f).xwaits = k.xwaits := by unfold Core.putWide; rw [Core.setWide_xwaits]

/-! ### A tile -/

variable (t : Tile)

@[simp] theorem Tile.setCore_gal (c : Nat) (k : Core) : (t.setCore c k).gal = t.gal := rfl
@[simp] theorem Tile.setCore_image (c : Nat) (k : Core) : (t.setCore c k).image = t.image := rfl
@[simp] theorem Tile.setCore_flags (c : Nat) (k : Core) : (t.setCore c k).flags = t.flags := rfl
@[simp] theorem Tile.setCore_step (c : Nat) (k : Core) : (t.setCore c k).step = t.step := rfl
@[simp] theorem Tile.setCore_replayed (c : Nat) (k : Core) : (t.setCore c k).replayed = t.replayed := rfl
@[simp] theorem Tile.setCore_banks (c : Nat) (k : Core) : (t.setCore c k).banks = t.banks := rfl
@[simp] theorem Tile.setCore_groups (c : Nat) (k : Core) : (t.setCore c k).groups = t.groups := rfl
@[simp] theorem Tile.setCore_eps (c : Nat) (k : Core) : (t.setCore c k).eps = t.eps := rfl
@[simp] theorem Tile.setCore_mq (c : Nat) (k : Core) : (t.setCore c k).mq = t.mq := rfl
@[simp] theorem Tile.setCore_sfu (c : Nat) (k : Core) : (t.setCore c k).sfu = t.sfu := rfl
@[simp] theorem Tile.setCore_red (c : Nat) (k : Core) : (t.setCore c k).red = t.red := rfl
@[simp] theorem Tile.setCore_qnt (c : Nat) (k : Core) : (t.setCore c k).qnt = t.qnt := rfl
@[simp] theorem Tile.setCore_qrows (c : Nat) (k : Core) : (t.setCore c k).qrows = t.qrows := rfl
@[simp] theorem Tile.setCore_engines (c : Nat) (k : Core) : (t.setCore c k).engines = t.engines := rfl
@[simp] theorem Tile.setCore_held (c : Nat) (k : Core) : (t.setCore c k).held = t.held := rfl
@[simp] theorem Tile.setCore_landing (c : Nat) (k : Core) : (t.setCore c k).landing = t.landing := rfl
@[simp] theorem Tile.setCore_phases (c : Nat) (k : Core) : (t.setCore c k).phases = t.phases := rfl
@[simp] theorem Tile.setCore_entries (c : Nat) (k : Core) : (t.setCore c k).entries = t.entries := rfl
@[simp] theorem Tile.setCore_xq (c : Nat) (k : Core) : (t.setCore c k).xq = t.xq := rfl
@[simp] theorem Tile.setCore_xcur (c : Nat) (k : Core) : (t.setCore c k).xcur = t.xcur := rfl
@[simp] theorem Tile.setCore_xlast (c : Nat) (k : Core) : (t.setCore c k).xlast = t.xlast := rfl
@[simp] theorem Tile.setCore_xaband (c : Nat) (k : Core) : (t.setCore c k).xaband = t.xaband := rfl
@[simp] theorem Tile.setCore_xposted (c : Nat) (k : Core) : (t.setCore c k).xposted = t.xposted := rfl
@[simp] theorem Tile.setCore_arrived (c : Nat) (k : Core) : (t.setCore c k).arrived = t.arrived := rfl
@[simp] theorem Tile.setCore_arrFlags (c : Nat) (k : Core) : (t.setCore c k).arrFlags = t.arrFlags := rfl
@[simp] theorem Tile.setCore_decs (c : Nat) (k : Core) : (t.setCore c k).decs = t.decs := rfl

@[simp] theorem Tile.setGalley_cores (g : Nat) (x : Galley) : (t.setGalley g x).cores = t.cores := rfl
@[simp] theorem Tile.setGalley_image (g : Nat) (x : Galley) : (t.setGalley g x).image = t.image := rfl
@[simp] theorem Tile.setGalley_flags (g : Nat) (x : Galley) : (t.setGalley g x).flags = t.flags := rfl
@[simp] theorem Tile.setGalley_step (g : Nat) (x : Galley) : (t.setGalley g x).step = t.step := rfl
@[simp] theorem Tile.setGalley_replayed (g : Nat) (x : Galley) : (t.setGalley g x).replayed = t.replayed := rfl
@[simp] theorem Tile.setGalley_banks (g : Nat) (x : Galley) : (t.setGalley g x).banks = t.banks := rfl
@[simp] theorem Tile.setGalley_groups (g : Nat) (x : Galley) : (t.setGalley g x).groups = t.groups := rfl
@[simp] theorem Tile.setGalley_eps (g : Nat) (x : Galley) : (t.setGalley g x).eps = t.eps := rfl
@[simp] theorem Tile.setGalley_mq (g : Nat) (x : Galley) : (t.setGalley g x).mq = t.mq := rfl
@[simp] theorem Tile.setGalley_sfu (g : Nat) (x : Galley) : (t.setGalley g x).sfu = t.sfu := rfl
@[simp] theorem Tile.setGalley_red (g : Nat) (x : Galley) : (t.setGalley g x).red = t.red := rfl
@[simp] theorem Tile.setGalley_qnt (g : Nat) (x : Galley) : (t.setGalley g x).qnt = t.qnt := rfl
@[simp] theorem Tile.setGalley_qrows (g : Nat) (x : Galley) : (t.setGalley g x).qrows = t.qrows := rfl
@[simp] theorem Tile.setGalley_engines (g : Nat) (x : Galley) : (t.setGalley g x).engines = t.engines := rfl
@[simp] theorem Tile.setGalley_held (g : Nat) (x : Galley) : (t.setGalley g x).held = t.held := rfl
@[simp] theorem Tile.setGalley_landing (g : Nat) (x : Galley) : (t.setGalley g x).landing = t.landing := rfl
@[simp] theorem Tile.setGalley_phases (g : Nat) (x : Galley) : (t.setGalley g x).phases = t.phases := rfl
@[simp] theorem Tile.setGalley_entries (g : Nat) (x : Galley) : (t.setGalley g x).entries = t.entries := rfl
@[simp] theorem Tile.setGalley_xq (g : Nat) (x : Galley) : (t.setGalley g x).xq = t.xq := rfl
@[simp] theorem Tile.setGalley_xcur (g : Nat) (x : Galley) : (t.setGalley g x).xcur = t.xcur := rfl
@[simp] theorem Tile.setGalley_xlast (g : Nat) (x : Galley) : (t.setGalley g x).xlast = t.xlast := rfl
@[simp] theorem Tile.setGalley_xaband (g : Nat) (x : Galley) : (t.setGalley g x).xaband = t.xaband := rfl
@[simp] theorem Tile.setGalley_xposted (g : Nat) (x : Galley) : (t.setGalley g x).xposted = t.xposted := rfl
@[simp] theorem Tile.setGalley_arrived (g : Nat) (x : Galley) : (t.setGalley g x).arrived = t.arrived := rfl
@[simp] theorem Tile.setGalley_arrFlags (g : Nat) (x : Galley) : (t.setGalley g x).arrFlags = t.arrFlags := rfl
@[simp] theorem Tile.setGalley_decs (g : Nat) (x : Galley) : (t.setGalley g x).decs = t.decs := rfl

end Sys2Proof.Machine
end

