-- ==== Sys2Proof/Laws/Ops.lean ====
section
/-! SUPPORT. Sys2Proof/Laws/Ops.lean: what each shared operation does, said once: register reads after writes, fields, tiles
and cores, how a command acts, how an instruction issues. -/

namespace Sys2Proof.Machine

/-! ## Bits of a number -/

theorem bitsAt_lt (v lsb w : Nat) : bitsAt v lsb w < 2 ^ w := Nat.mod_lt _ (Nat.two_pow_pos w)

theorem putBits_decomp (v lsb w x : Nat) :
    putBits v lsb w x = v / 2 ^ (lsb + w) * 2 ^ (lsb + w) + x % 2 ^ w * 2 ^ lsb + v % 2 ^ lsb := by
  unfold putBits bitsAt
  have h1 := Nat.div_add_mod v (2 ^ lsb)
  have h2 := Nat.div_add_mod (v / 2 ^ lsb) (2 ^ w)
  have h3 : v / 2 ^ lsb / 2 ^ w = v / 2 ^ (lsb + w) := by rw [Nat.div_div_eq_div_mul, Nat.pow_add]
  rw [h3] at h2
  have h4 : v = v / 2 ^ (lsb + w) * 2 ^ (lsb + w) + v / 2 ^ lsb % 2 ^ w * 2 ^ lsb + v % 2 ^ lsb := by
    rw [Nat.pow_add]
    calc v = 2 ^ lsb * (v / 2 ^ lsb) + v % 2 ^ lsb := h1.symm
      _ = 2 ^ lsb * (2 ^ w * (v / 2 ^ (lsb + w)) + v / 2 ^ lsb % 2 ^ w) + v % 2 ^ lsb := by rw [h2]
      _ = _ := by rw [Nat.mul_add, ← Nat.mul_assoc]; rw [Nat.mul_comm (2 ^ lsb * 2 ^ w), Nat.mul_comm (2 ^ lsb) (v / 2 ^ lsb % 2 ^ w), Nat.pow_add]
  omega

/-- The field just put reads back, cut to its width. -/
theorem bitsAt_putBits_same (v lsb w x : Nat) : bitsAt (putBits v lsb w x) lsb w = x % 2 ^ w := by
  rw [putBits_decomp]
  unfold bitsAt
  have hp := Nat.two_pow_pos lsb
  have e : v / 2 ^ (lsb + w) * 2 ^ (lsb + w) + x % 2 ^ w * 2 ^ lsb + v % 2 ^ lsb
      = 2 ^ lsb * (2 ^ w * (v / 2 ^ (lsb + w)) + x % 2 ^ w) + v % 2 ^ lsb := by
    rw [Nat.pow_add, Nat.mul_add]; simp only [Nat.mul_assoc, Nat.mul_comm]
  rw [e, Nat.mul_add_div hp, Nat.div_eq_of_lt (Nat.mod_lt _ hp), Nat.add_zero, Nat.mul_add_mod, Nat.mod_mod]

/-- A field that lies wholly above or wholly below the one put is as before. -/
theorem bitsAt_putBits_above (v lsb w x : Nat) {l k : Nat} (h : lsb + w ≤ l) : bitsAt (putBits v lsb w x) l k = bitsAt v l k := by
  rw [putBits_decomp]
  unfold bitsAt
  have hp := Nat.two_pow_pos (lsb + w)
  have hx : x % 2 ^ w * 2 ^ lsb + v % 2 ^ lsb < 2 ^ (lsb + w) := by
    have h1 := Nat.mod_lt x (Nat.two_pow_pos w)
    have h2 := Nat.mod_lt v (Nat.two_pow_pos lsb)
    have h3 : (x % 2 ^ w + 1) * 2 ^ lsb ≤ 2 ^ w * 2 ^ lsb := Nat.mul_le_mul_right _ h1
    rw [Nat.pow_add, Nat.mul_comm (2 ^ lsb)]
    rw [Nat.add_mul, Nat.one_mul] at h3
    omega
  have e : (v / 2 ^ (lsb + w) * 2 ^ (lsb + w) + x % 2 ^ w * 2 ^ lsb + v % 2 ^ lsb) / 2 ^ l = v / 2 ^ l := by
    obtain ⟨j, rfl⟩ := Nat.exists_eq_add_of_le h
    rw [Nat.pow_add 2 (lsb + w) j, ← Nat.div_div_eq_div_mul, ← Nat.div_div_eq_div_mul, Nat.add_assoc, Nat.mul_comm,
      Nat.mul_add_div hp, Nat.div_eq_of_lt hx, Nat.add_zero]
  rw [e]

theorem bitsAt_putBits_below (v lsb w x : Nat) {l k : Nat} (h : l + k ≤ lsb) : bitsAt (putBits v lsb w x) l k = bitsAt v l k := by
  rw [putBits_decomp]
  unfold bitsAt
  obtain ⟨j, rfl⟩ := Nat.exists_eq_add_of_le h
  have e1 : ∀ y : Nat, y / 2 ^ l % 2 ^ k = y % 2 ^ (l + k) / 2 ^ l := by
    intro y; rw [Nat.pow_add, Nat.mod_mul_right_div_self]
  rw [e1, e1 v]
  have e2 : (v / 2 ^ (l + k + j + w) * 2 ^ (l + k + j + w) + x % 2 ^ w * 2 ^ (l + k + j) + v % 2 ^ (l + k + j)) % 2 ^ (l + k)
      = v % 2 ^ (l + k) := by
    have a1 : 2 ^ (l + k + j + w) = 2 ^ (l + k) * (2 ^ j * 2 ^ w) := by rw [Nat.pow_add, Nat.pow_add 2 (l + k) j, Nat.mul_assoc]
    have a2 : 2 ^ (l + k + j) = 2 ^ (l + k) * 2 ^ j := Nat.pow_add 2 (l + k) j
    have a3 : v / 2 ^ (l + k + j + w) * 2 ^ (l + k + j + w) + x % 2 ^ w * 2 ^ (l + k + j) + v % 2 ^ (l + k + j)
        = 2 ^ (l + k) * (v / 2 ^ (l + k + j + w) * (2 ^ j * 2 ^ w) + x % 2 ^ w * 2 ^ j) + v % 2 ^ (l + k + j) := by
      rw [a1, a2, Nat.mul_add]; simp only [Nat.mul_assoc, Nat.mul_comm, Nat.mul_left_comm]
    rw [a3, Nat.mul_add_mod, a2, Nat.mod_mul_right_mod]
  rw [e2]

/-! ## Registers -/

theorem Dev.reg_lt (d : Dev) (off : Nat) : d.reg off < 2 ^ 32 := (Sparse.get regReset d.regs off).isLt

theorem Dev.reg_setReg (d : Dev) (off v i : Nat) : (d.setReg off v).reg i = if i = off then v % 2 ^ 32 else d.reg i := by
  unfold Dev.reg Dev.setReg
  rw [Sparse.get_set]
  split
  · exact BitVec.toNat_ofNat v 32
  · rfl

theorem Dev.reg_setReg_same (d : Dev) (off v : Nat) : (d.setReg off v).reg off = v % 2 ^ 32 := by rw [Dev.reg_setReg, if_pos rfl]

theorem Dev.reg_setReg_other (d : Dev) {off i : Nat} (v : Nat) (h : i ≠ off) : (d.setReg off v).reg i = d.reg i := by
  rw [Dev.reg_setReg, if_neg h]

theorem Dev.reg_setFld_other (d : Dev) {off i : Nat} (f : Fld) (x : Nat) (h : i ≠ off) : (d.setFld off f x).reg i = d.reg i :=
  Dev.reg_setReg_other d _ h

theorem Dev.reg_setFlag_other (d : Dev) {off i : Nat} (f : Fld) (b : Bool) (h : i ≠ off) : (d.setFlag off f b).reg i = d.reg i :=
  Dev.reg_setReg_other d _ h

/-- A field within 32 bits reads back what was put there, cut to its width. -/
theorem Dev.fld_setFld_same (d : Dev) (off : Nat) (f : Fld) (x : Nat) (hf : f.lsb + f.width ≤ 32) :
    (d.setFld off f x).fld off f = x % 2 ^ f.width := by
  unfold Dev.fld Dev.setFld
  rw [Dev.reg_setReg_same]
  have h : bitsAt (putBits (d.reg off) f.lsb f.width x % 2 ^ 32) f.lsb f.width
      = bitsAt (putBits (d.reg off) f.lsb f.width x) f.lsb f.width := by
    unfold bitsAt
    have e : ∀ y : Nat, y / 2 ^ f.lsb % 2 ^ f.width = y % 2 ^ (f.lsb + f.width) / 2 ^ f.lsb := by
      intro y; rw [Nat.pow_add, Nat.mod_mul_right_div_self]
    rw [e, e (putBits _ _ _ _)]
    obtain ⟨j, hj⟩ := Nat.exists_eq_add_of_le hf
    rw [hj, Nat.pow_add, Nat.mod_mul_right_mod]
  rw [h, bitsAt_putBits_same]

/-- A field of another register. -/
theorem Dev.fld_setFld_other (d : Dev) {off i : Nat} (f g : Fld) (x : Nat) (h : i ≠ off) : (d.setFld off f x).fld i g = d.fld i g := by
  unfold Dev.fld; rw [Dev.reg_setFld_other d f x h]

theorem Dev.flag_setFlag_same (d : Dev) (off : Nat) (f : Fld) (b : Bool) (hf : f.lsb + f.width ≤ 32) (hw : 0 < f.width) :
    (d.setFlag off f b).flag off f = b := by
  unfold Dev.flag Dev.setFlag
  rw [Dev.fld_setFld_same _ _ _ _ hf]
  have h2 : 1 < 2 ^ f.width := Nat.one_lt_two_pow (by omega)
  cases b
  · rw [show b2n false = 0 from rfl, Nat.zero_mod]; rfl
  · rw [show b2n true = 1 from rfl, Nat.mod_eq_of_lt h2]; rfl

@[simp] theorem Dev.reg_canon (d : Dev) (i : Nat) : d.canon.reg i = d.reg i := by
  unfold Dev.reg Dev.canon; rw [Sparse.get_canon]

@[simp] theorem Dev.fld_canon (d : Dev) (i : Nat) (f : Fld) : d.canon.fld i f = d.fld i f := by
  unfold Dev.fld; rw [Dev.reg_canon]

@[simp] theorem Dev.flag_canon (d : Dev) (i : Nat) (f : Fld) : d.canon.flag i f = d.flag i f := by
  unfold Dev.flag; rw [Dev.fld_canon]

/-! ## Tiles and cores -/

theorem Dev.tile_setTile (d : Dev) (p : Nat) (t : Tile) (q : Nat) : (d.setTile p t).tile q = if q = p then t else d.tile q := by
  unfold Dev.tile Dev.setTile; exact Sparse.get_set _ _ _ _ _

theorem Dev.tile_modTile (d : Dev) (p : Nat) (f : Tile → Tile) (q : Nat) :
    (d.modTile p f).tile q = if q = p then f (d.tile p) else d.tile q := Dev.tile_setTile d p _ q

theorem Tile.core_setCore (t : Tile) (c : Nat) (k : Core) (j : Nat) : (t.setCore c k).core j = if j = c then k else t.core j := by
  unfold Tile.core Tile.setCore; exact Sparse.get_set _ _ _ _ _

theorem Tile.galley_setGalley (t : Tile) (g : Nat) (x : Galley) (j : Nat) :
    (t.setGalley g x).galley j = if j = g then x else t.galley j := by
  unfold Tile.galley Tile.setGalley; exact Sparse.get_set _ _ _ _ _

theorem Dev.core_setCore (d : Dev) (p c : Nat) (k : Core) (q j : Nat) :
    (d.setCore p c k).core q j = if q = p ∧ j = c then k else d.core q j := by
  unfold Dev.core Dev.setCore
  rw [Dev.tile_modTile]
  by_cases hq : q = p
  · subst hq
    rw [if_pos rfl, Tile.core_setCore]
    by_cases hj : j = c
    · rw [if_pos hj, if_pos ⟨rfl, hj⟩]
    · rw [if_neg hj, if_neg (fun e => hj e.2)]
  · rw [if_neg hq, if_neg (fun e => hq e.1)]

theorem Dev.core_modCore (d : Dev) (p c : Nat) (f : Core → Core) (q j : Nat) :
    (d.modCore p c f).core q j = if q = p ∧ j = c then f (d.core p c) else d.core q j := Dev.core_setCore d p c _ q j

theorem Dev.galley_setGalley (d : Dev) (p g : Nat) (x : Galley) (q j : Nat) :
    (d.setGalley p g x).galley q j = if q = p ∧ j = g then x else d.galley q j := by
  unfold Dev.galley Dev.setGalley
  rw [Dev.tile_modTile]
  by_cases hq : q = p
  · subst hq
    rw [if_pos rfl, Tile.galley_setGalley]
    by_cases hj : j = g
    · rw [if_pos hj, if_pos ⟨rfl, hj⟩]
    · rw [if_neg hj, if_neg (fun e => hj e.2)]
  · rw [if_neg hq, if_neg (fun e => hq e.1)]

theorem Dev.yard_setYard (d : Dev) (y : Nat) (x : YardS) (z : Nat) : (d.setYard y x).yard z = if z = y then x else d.yard z := by
  unfold Dev.yard Dev.setYard; exact Sparse.get_set _ _ _ _ _

theorem Dev.ctl_setCtl (d : Dev) (c : Nat) (x : HoldC) (e : Nat) : (d.setCtl c x).ctl e = if e = c then x else d.ctl e := by
  unfold Dev.ctl Dev.setCtl; exact Sparse.get_set _ _ _ _ _

theorem Dev.link_setLink (d : Dev) (n : Nat) (x : LinkP) (m : Nat) : (d.setLink n x).link m = if m = n then x else d.link m := by
  unfold Dev.link Dev.setLink; exact Sparse.get_set _ _ _ _ _

theorem Dev.pr_setPr (d : Dev) (c : Nat) (x : Press) (e : Nat) : (d.setPr c x).pr e = if e = c then x else d.pr e := by
  unfold Dev.pr Dev.setPr; exact Sparse.get_set _ _ _ _ _

/-! ## Registers of a core (R126, R127) -/

theorem Core.sreg_zero (k : Core) : k.sreg 0 = 0 := if_pos rfl

theorem Core.preg_zero (k : Core) : k.preg 0 = allOnes := if_pos rfl

theorem Core.sreg_setS (k : Core) (r : R5) (v : DWord) (q : R5) :
    (k.setS r v).sreg q = if q = r ∧ r ≠ 0 then v else k.sreg q := by
  by_cases hr : r = 0
  · subst hr
    rw [if_neg (fun e => e.2 rfl)]; rfl
  · have e1 : k.setS r v = { k with s := Sparse.set (fun _ => (0 : DWord)) k.s r v } := by unfold Core.setS; rw [if_neg hr]
    by_cases hq : q = 0
    · subst hq
      rw [Core.sreg_zero, Core.sreg_zero, if_neg (fun e => hr e.1.symm)]
    · have e2 : ∀ k : Core, k.sreg q = Sparse.get (fun _ => (0 : DWord)) k.s q := by intro k; unfold Core.sreg; rw [if_neg hq]
      rw [e2, e2, e1]
      show Sparse.get (fun _ => (0 : DWord)) (Sparse.set (fun _ => (0 : DWord)) k.s r v) q = _
      rw [Sparse.get_set]
      by_cases hqr : q = r
      · subst hqr; rw [if_pos rfl, if_pos ⟨rfl, hr⟩]
      · rw [if_neg (fun e => hqr (Fin.ext e)), if_neg (fun e => hqr e.1)]

/-- A write of s0 writes nothing. -/
theorem Core.setS_zero (k : Core) (v : DWord) : k.setS 0 v = k := if_pos rfl

theorem Core.setP_zero (k : Core) (v : Pred) : k.setP 0 v = k := if_pos rfl

/-! ## How a command acts on the state -/

theorem onDev_eq (f : Dev → Dev) (s : State) : onDev f s = .next { s with dev := (f s.dev).canon } := rfl

theorem onCore_eq (slot core : Nat) (f : Dev → Dev) (s : State) (h : coreExists slot core = true) :
    onCore slot core f s = .next { s with dev := (f s.dev).canon } := by unfold onCore; rw [if_pos h]; rfl

theorem onCore_fault (slot core : Nat) (f : Dev → Dev) (s : State) (h : coreExists slot core = false) :
    onCore slot core f s = .fault (.noSuchCore slot core) := by unfold onCore; rw [h]; rfl

/-- All that a command of one core can answer. -/
theorem onCore_cases (slot core : Nat) (f : Dev → Dev) (s : State) :
    (coreExists slot core = true ∧ onCore slot core f s = .next { s with dev := (f s.dev).canon })
      ∨ (coreExists slot core = false ∧ onCore slot core f s = .fault (.noSuchCore slot core)) := by
  cases h : coreExists slot core
  · exact .inr ⟨rfl, onCore_fault _ _ _ _ h⟩
  · exact .inl ⟨rfl, onCore_eq _ _ _ _ h⟩

/-! ## How an instruction issues (R128, R134, R157) -/

/-- Only a running core issues. -/
theorem issue_idle (h : Iss) (i : Instr) (e : Enc) (body : Dev → Core → Pred → Res) (d : Dev)
    (hr : (d.core h.slot h.core).run ≠ .running) : issue h i e body d = d := by
  unfold issue; simp only [hr, ne_eq, not_false_eq_true, if_true]

/-- A legal instruction whose registers are free and whose guard is set does its own work. -/
theorem issue_body (h : Iss) (i : Instr) (e : Enc) (body : Dev → Core → Pred → Res) (d : Dev)
    (hr : Ready d h e.cls e.long e.s e.v) (hl : e.legal = true)
    (hg : e.sel = true ∨ (if isVector e.cls then (d.at_ h).guard h != 0 else ((d.at_ h).guard h).getLsbD 0) = true) :
    issue h i e body d =
      match body d (d.at_ h) ((d.at_ h).guard h) with
      | .done d' => d'.retired h e.long
      | .jump d' pc => (d'.modCore h.slot h.core (fun k => { k with pc := pc, run := .running, stalled := none })).counted h.slot
      | .stall d' => d'.waits h i
      | .fault d' cause addr => d'.progFault h.slot h.core e.cls e.fn (d.at_ h).pc cause addr
      | .raised d' => d' := by
  obtain ⟨⟨-, hrun, hso, hsp, ha⟩, hk, hs, hv⟩ := hr
  unfold Dev.at_ at *
  unfold issue
  have hf : (if (d.core h.slot h.core).stalled.isSome = true then (d, true)
      else d.readStore h.slot (d.core h.slot h.core).pc (if e.long = true then 8 else 4) 0) = (d, true) := by
    cases hst : (d.core h.slot h.core).stalled
    · exact hso hst
    · rfl
  have hgo : (!e.sel && (if isVector e.cls then (d.core h.slot h.core).guard h == 0
      else !((d.core h.slot h.core).guard h).getLsbD 0)) = false := by
    rcases hg with hg | hg
    · rw [hg]; rfl
    · by_cases hc : isVector e.cls = true
      · rw [if_pos hc] at hg ⊢
        have : ((d.core h.slot h.core).guard h == 0) = false := by
          cases hx : (d.core h.slot h.core).guard h == 0
          · rfl
          · rw [bne, hx] at hg; cases hg
        rw [this, Bool.and_false]
      · rw [if_neg hc] at hg ⊢
        rw [hg]; cases e.sel <;> rfl
  simp only [hf, hrun, ne_eq, not_true_eq_false, Bool.not_true, Bool.false_eq_true, if_false, ha, hl, Bool.or_self, hs, hv, hgo, hsp, hk]
  cases body d (d.core h.slot h.core) ((d.core h.slot h.core).guard h) <;> rfl

/-- Under a guard that is 0 the instruction only passes, whatever registers it names (R128). -/
theorem issue_squashed (h : Iss) (i : Instr) (e : Enc) (body : Dev → Core → Pred → Res) (d : Dev)
    (hr : Issues d h e.cls e.long) (hl : e.legal = true) (hsel : e.sel = false)
    (hg : (if isVector e.cls then (d.at_ h).guard h == 0 else !((d.at_ h).guard h).getLsbD 0) = true) :
    issue h i e body d = d.retired h e.long := by
  obtain ⟨-, hrun, hso, hsp, ha⟩ := hr
  unfold Dev.at_ at *
  unfold issue
  have hf : (if (d.core h.slot h.core).stalled.isSome = true then (d, true)
      else d.readStore h.slot (d.core h.slot h.core).pc (if e.long = true then 8 else 4) 0) = (d, true) := by
    cases hst : (d.core h.slot h.core).stalled
    · exact hso hst
    · rfl
  simp only [hf, hrun, ne_eq, not_true_eq_false, Bool.not_true, Bool.false_eq_true, if_false, ha, hl, Bool.or_self, hsel, hg, hsp,
    Bool.not_false, Bool.and_self, if_true]
  rfl

/-- A class that the tile's kind does not accept, or a word without a meaning, is cause 0x1 (R136, R157). -/
theorem issue_illegal (h : Iss) (i : Instr) (e : Enc) (body : Dev → Core → Pred → Res) (d : Dev)
    (hrun : (d.at_ h).run = .running)
    (hso : (d.at_ h).stalled = none → d.readStore h.slot (d.at_ h).pc (if e.long then 8 else 4) 0 = (d, true))
    (hsp : d.spelled h = true) (hn : (!accepts h.slot e.cls || !e.legal) = true) :
    issue h i e body d = d.progFault h.slot h.core e.cls e.fn (d.at_ h).pc 1 0 := by
  unfold Dev.at_ at *
  unfold issue
  have hf : (if (d.core h.slot h.core).stalled.isSome = true then (d, true)
      else d.readStore h.slot (d.core h.slot h.core).pc (if e.long = true then 8 else 4) 0) = (d, true) := by
    cases hst : (d.core h.slot h.core).stalled
    · exact hso hst
    · rfl
  simp only [hf, hrun, ne_eq, not_true_eq_false, Bool.not_true, Bool.false_eq_true, if_false, hsp, hn, if_true]

/-- Words at the PC that spell no instruction are cause 0x1 (R137). -/
theorem issue_illegalWord (h : Iss) (i : Instr) (e : Enc) (body : Dev → Core → Pred → Res) (d : Dev)
    (hrun : (d.at_ h).run = .running)
    (hso : (d.at_ h).stalled = none → d.readStore h.slot (d.at_ h).pc (if e.long then 8 else 4) 0 = (d, true))
    (hsp : d.spelled h = false) : issue h i e body d = d.illegalWord h := by
  unfold Dev.at_ at *
  unfold issue
  have hf : (if (d.core h.slot h.core).stalled.isSome = true then (d, true)
      else d.readStore h.slot (d.core h.slot h.core).pc (if e.long = true then 8 else 4) 0) = (d, true) := by
    cases hst : (d.core h.slot h.core).stalled
    · exact hso hst
    · rfl
  simp only [hf, hrun, ne_eq, not_true_eq_false, Bool.not_true, Bool.false_eq_true, if_false, hsp, Bool.not_false, if_true]

/-! ## An instruction as a command -/

/-- The instruction's own work ends well. -/
theorem tileInstr_done {h : Iss} {i : Instr} {e : Enc} {body : Dev → Core → Pred → Res} {s : State} {d' : Dev}
    (hr : Ready s.dev h e.cls e.long e.s e.v) (hl : e.legal = true)
    (hg : e.sel = true ∨ (if isVector e.cls then (s.dev.at_ h).guard h != 0 else ((s.dev.at_ h).guard h).getLsbD 0) = true)
    (hb : body s.dev (s.dev.at_ h) ((s.dev.at_ h).guard h) = .done d') :
    tileInstr h i e body s = answer s (d'.retired h e.long) := by
  unfold tileInstr answer
  rw [onCore_eq _ _ _ _ hr.core, issue_body h i e body s.dev hr hl hg, hb]

theorem tileInstr_jump {h : Iss} {i : Instr} {e : Enc} {body : Dev → Core → Pred → Res} {s : State} {d' : Dev} {pc : Nat}
    (hr : Ready s.dev h e.cls e.long e.s e.v) (hl : e.legal = true)
    (hg : e.sel = true ∨ (if isVector e.cls then (s.dev.at_ h).guard h != 0 else ((s.dev.at_ h).guard h).getLsbD 0) = true)
    (hb : body s.dev (s.dev.at_ h) ((s.dev.at_ h).guard h) = .jump d' pc) :
    tileInstr h i e body s
      = answer s ((d'.modCore h.slot h.core (fun k => { k with pc := pc, run := .running, stalled := none })).counted h.slot) := by
  unfold tileInstr answer
  rw [onCore_eq _ _ _ _ hr.core, issue_body h i e body s.dev hr hl hg, hb]

theorem tileInstr_stall {h : Iss} {i : Instr} {e : Enc} {body : Dev → Core → Pred → Res} {s : State} {d' : Dev}
    (hr : Ready s.dev h e.cls e.long e.s e.v) (hl : e.legal = true)
    (hg : e.sel = true ∨ (if isVector e.cls then (s.dev.at_ h).guard h != 0 else ((s.dev.at_ h).guard h).getLsbD 0) = true)
    (hb : body s.dev (s.dev.at_ h) ((s.dev.at_ h).guard h) = .stall d') :
    tileInstr h i e body s = answer s (d'.waits h i) := by
  unfold tileInstr answer
  rw [onCore_eq _ _ _ _ hr.core, issue_body h i e body s.dev hr hl hg, hb]

theorem tileInstr_fault {h : Iss} {i : Instr} {e : Enc} {body : Dev → Core → Pred → Res} {s : State} {d' : Dev} {cause : Nat}
    {addr : DWord} (hr : Ready s.dev h e.cls e.long e.s e.v) (hl : e.legal = true)
    (hg : e.sel = true ∨ (if isVector e.cls then (s.dev.at_ h).guard h != 0 else ((s.dev.at_ h).guard h).getLsbD 0) = true)
    (hb : body s.dev (s.dev.at_ h) ((s.dev.at_ h).guard h) = .fault d' cause addr) :
    tileInstr h i e body s = answer s (d'.progFault h.slot h.core e.cls e.fn (s.dev.at_ h).pc cause addr) := by
  unfold tileInstr answer
  rw [onCore_eq _ _ _ _ hr.core, issue_body h i e body s.dev hr hl hg, hb]

theorem tileInstr_raised {h : Iss} {i : Instr} {e : Enc} {body : Dev → Core → Pred → Res} {s : State} {d' : Dev}
    (hr : Ready s.dev h e.cls e.long e.s e.v) (hl : e.legal = true)
    (hg : e.sel = true ∨ (if isVector e.cls then (s.dev.at_ h).guard h != 0 else ((s.dev.at_ h).guard h).getLsbD 0) = true)
    (hb : body s.dev (s.dev.at_ h) ((s.dev.at_ h).guard h) = .raised d') :
    tileInstr h i e body s = answer s d' := by
  unfold tileInstr answer
  rw [onCore_eq _ _ _ _ hr.core, issue_body h i e body s.dev hr hl hg, hb]

end Sys2Proof.Machine
end

