-- ==== Sys2Proof/Tests/Slice0.lean ====
section
/-! SUPPORT. Sys2Proof/Tests/Slice0.lean: ill-formed commands that the check refuses, witnesses that the hypotheses of the
statements can be met together, and single steps whose outcome the spec gives. -/

open Sys2Proof Sys2Proof.Machine Sys2Proof.Num

namespace Sys2Proof.Tests

set_option Elab.async false

/-! ## Small states -/

/-- The device right after reset. -/
def dev0 : Dev := State.reset.dev

def st (d : Dev) : State := ⟨[], d⟩

/-- Core 0 of slot 0 (an MT), of slot 17 (a VT) and of slot 23 (a CT), unguarded. -/
def issMt : Iss := ⟨0, 0, 0, false⟩
def issVt : Iss := ⟨17, 0, 0, false⟩
def issCt : Iss := ⟨23, 0, 0, false⟩
/-- The CT's core under the guard p1, which is 0 here. -/
def issOff : Iss := ⟨23, 0, 1, false⟩

/-- A core that runs at PC 0x100 with s1 = 7, s2 = −3, s3 = 0x40, s4 = 0x200. -/
def coreAt100 : Core :=
  { Core.idle with run := .running, pc := 0x100, p := [(2, 1#128), (3, 3#128)],
                   s := [(1, 7#64), (2, 0xFFFFFFFFFFFFFFFD#64), (3, 0x40#64), (4, 0x200#64)] }

/-- The core of `h` runs, in a tile whose code region ends at 0x200; the word at its PC is add s0, s0, s0, whose only byte that is not 0 is its
first. -/
def runs (h : Iss) (d : Dev) : Dev :=
  ((d.modTile h.slot (fun t => { t with image := { t.image with loaded := true, codeEnd := 0x200 } })).modCore h.slot h.core (fun _ => coreAt100)).store
    (tileBase h.slot + 0x100) [2]

def onMt : Dev := runs issMt dev0
def onVt : Dev := runs issVt dev0
def onCt : Dev := runs issCt dev0

/-- The test of `Ready`, as a Bool. -/
def issuesB (d : Dev) (h : Iss) (cls : Nat) (long : Bool) : Bool :=
  coreExists h.slot h.core && decide ((d.at_ h).run = .running)
    && ((d.at_ h).stalled.isSome || decide (d.readStore h.slot (d.at_ h).pc (if long then 8 else 4) 0 = (d, true)))
    && d.spelled h && accepts h.slot cls
def readyB (d : Dev) (h : Iss) (cls : Nat) (long : Bool) (rs vs : List R5) : Bool :=
  issuesB d h cls long && !d.unresolved h.slot h.core && !rs.any (fun r => (d.busyS h.slot h.core).contains r)
    && !vs.any (fun r => (d.busyV h.slot h.core).contains r)

theorem issues_of {d : Dev} {h : Iss} {cls : Nat} {long : Bool} (x : issuesB d h cls long = true) : Issues d h cls long := by
  simp only [issuesB, Bool.and_eq_true, Bool.or_eq_true, decide_eq_true_eq, Option.isSome_iff_ne_none] at x
  obtain ⟨⟨⟨⟨a, b⟩, c⟩, e⟩, f⟩ := x
  exact ⟨a, b, fun n => c.resolve_left (fun y => y n), e, f⟩

theorem ready_of {d : Dev} {h : Iss} {cls : Nat} {long : Bool} {rs vs : List R5} (x : readyB d h cls long rs vs = true) :
    Ready d h cls long rs vs := by
  simp only [readyB, Bool.and_eq_true, Bool.not_eq_true'] at x
  obtain ⟨⟨⟨a, b⟩, f⟩, g⟩ := x
  exact ⟨issues_of a, b, f, g⟩

/-- The outcome is a next state of which `p` holds. -/
def goesTo (o : Host.Outcome State Fault Refusal) (p : State → Bool) : Bool :=
  match o with
  | .next t => p t
  | _ => false

/-- The device as its outcome, for comparisons: `d` with the queue empty, in canonical form. -/
def isDev (d : Dev) (t : State) : Bool := decide (t = st d.canon)

/-- A galley of two slots of `units` × 64 bytes with `full` of them filled. -/
def gal (base units prod cons full : Nat) : Galley := ⟨true, base, units, 2, prod, cons, 16, 0, 0, 0, full, 0, false, false⟩

/-- An issue for the row of 4 elements in galley 0, parameters to galley 1, codes to galley 2. -/
def quantising : VEnt := ⟨0, BitVec.allOnes 128, 0, 4, 1, 0, false, false, 0x00010210#32, 0x100⟩

def onVtGalleys : Dev :=
  (((onVt.setGalley 17 0 (gal 0x400 1 0 partyQuantiser 1)).setGalley 17 1 (gal 0x500 1 partyQuantiser 0 0)).setGalley 17 2
    (gal 0x600 1 partyQuantiser 0 0)).modTile 17 (fun t => { t with qnt := [quantising] })

/-- A galley descriptor of 16 bytes: base 0x4000, slots of 64 bytes, 2 slots, both sides of different parties. -/
def galleyBytes : List Byte := toBytes 4 0x4000 ++ toBytes 4 (1 + 2 * 2 ^ 12 + 4 * 2 ^ 20) ++ toBytes 4 16 ++ toBytes 4 0

/-- A task record without descriptors: task 9, wave 2, slot 3, no PAIR. -/
def recordBytes (pair : Nat) : List Byte := toBytes 4 (9 + 2 * 2 ^ 16) ++ toBytes 4 (3 + pair * 2 ^ 16)

def record (pair entry : Nat) : QRec := ⟨entry, recordBytes pair ++ List.replicate 248 0⟩

/-- The CT of yard 0 runs, a record lies at s4 = 0x200, 8 accumulation slots. -/
def onCtPosting : Dev :=
  ((onCt.store (tileBase 23 + 0x200) (recordBytes 0x7FF)).setReg (Reg.yardSqSlotCount 0) 8).setFlag (Reg.yardSqState 0) F.yardSqStateClosed false

/-- The MT of slot 0 runs, its landing areas at 0x1000; yard 0 holds one record that any tile may take. -/
def onMtTaking : Dev := (onMt.setReg (Reg.tileSqLand 0) 0x1000).modYard 0 (fun y => { y with recs := [record 0x7FF 0] })

/-- A descriptor of one row of 64 bytes from case memory of yard 0 to the start of the next line there. -/
def plainDesc : DescRun := ⟨[w32 caseLo, w32 (caseLo / 2 ^ 32), w32 (caseLo + 64), w32 (caseLo / 2 ^ 32), w32 (64 + 2 ^ 24), 0, 0, 0], 0, 0, [], none, false⟩

/-- The CT of yard 0 with that descriptor at s4 = 0x200, and with it in engine 1. -/
def onCtDesc : Dev := onCt.store (tileBase 23 + 0x200) ((plainDesc.w.map (fun w => toBytes 4 w.toNat)).flatten)
def onCtEngine (r : DescRun) : Dev := onCtDesc.setEngine 23 1 { Engine.idle with q := [r] }

/-- A filling descriptor: a row of case memory to a slot of galley 7 of slot 0's tile. -/
def fillDesc : DescRun :=
  ⟨[w32 caseLo, w32 (caseLo / 2 ^ 32), w32 (tileBase 0), w32 (tileBase 0 / 2 ^ 32), w32 (64 + 2 ^ 24 + 2 ^ 27), w32 (7 * 2 ^ 16), 0, 0], 0, 0, [], none, false⟩

/-- Slot 0 holds a task on channel 4 of yard 0, whose one descriptor fills galley 7. -/
def fillChannel (sdone : Bool) (ds : List DescRun) : Channel := ⟨7, 0, 0, 2, ds, sdone, false⟩
def onMtTask (sdone : Bool) (ds : List DescRun) : Dev :=
  ((onMt.setGalley 0 7 (gal 0x800 1 partyDesc partyProgram 0)).modTile 0 (fun t => { t with held := [⟨7, 0, 2, true, 4⟩] })).setChan 0 4
    (fillChannel sdone ds)

/-- Matrix fields on array 0: galley, format, count. -/
def mFields (g : Fin 16) (fmt : Fin 16) (count : BitVec 8) : MFields := ⟨0, false, false, 0, 0, g, 0, fmt, count, false, 0, 0⟩

/-- A queued matrix instruction; `onMtQueue` holds it beside galley 3 with one filled slot for the arrays. -/
def mEnt (mop : Nat) (f : MFields) (begun : Bool) : MEnt := ⟨mop, f, 0, 0, 0, 0x100, begun, 0⟩
def onMtQueue (units : Nat) (q : List MEnt) : Dev :=
  (onMt.setGalley 0 3 (gal 0x1000 units partyProgram partyArrays 1)).modTile 0 (fun t => { t with mq := q })

/-- The CT of yard 0 in a running job of one device: barrier 1 of the yard, 2 of the device, 0, 4 and 5 of the job for release, decision and
commit; the tile is a member of each. -/
def onJob : Dev :=
  { (((((onCt.setReg Reg.devMap 1).setReg Reg.halBarScope (3 + 1 * 2 ^ 2 + 2 * 2 ^ 4 + 3 * 2 ^ 8 + 3 * 2 ^ 10)).setReg Reg.halStepCfg
      (4 * 2 ^ 4 + 5 * 2 ^ 8)).setReg (Reg.tileHalMember 23) 0x37).setFld Reg.hstJob F.hstJobState 4) with
    job := { Job.none with mapFrozen := true } }

/-- Its tile has arrived at `b`, with `f` as its flags. -/
def onArrived (b : Nat) (f : Word) : Dev := onJob.modTile 23 (fun t => { t with arrived := barBit b, arrFlags := [(b, f)] })

/-- hrel has asked for step 0, the first. -/
def onAsked (f : Word) : Dev :=
  { (onArrived 0 f).setReg Reg.halStep 0xFFFFFFFF with hal := { Hal.idle with hrel := some 0 } }

def allPresses (p : Press) : Sparse Press := [(0, p), (1, p), (2, p), (3, p)]
/-- Every press stands at the decision, or at the commit, barrier with the tile. -/
def onDeciding (f : Word) : Dev :=
  { onArrived 4 f with press := { PressS.idle with p := allPresses { Press.idle with decArr := true } } }
def onCommitting : Dev :=
  { onArrived 5 0 with press := { PressS.idle with p := allPresses { Press.idle with comArr := true } } }

/-- A core that waits on `i`. -/
def onStalled (i : Instr) : Dev := onJob.modCore 23 0 (fun k => { k with run := .stalled, stalled := some i })

/-- A layer of one channel, whose copy two uses per step release. -/
def layer0 : Layer :=
  ⟨0, 0, false, 0, 0, false, 0, 0, 0, 1, 0, 0, 0, 2, 2, 1, 0, 0, 0, 0, 0, [], 0, 0, 0, 0, 0, 0, 0, 0, 0, 0, 0, 0⟩
/-- A job whose presses hold that layer; `onAbort` has a notice of block 1, kind 2, instance 3 at its root. -/
def onLayer (y : Layer) : Dev := { onJob with press := { PressS.idle with layers := [y], rules := [⟨0, 0, 0, 0, 0, [], [], []⟩] } }
def onAbort (holding : Bool) : Dev := { onJob with hal := { Hal.idle with notices := [⟨1, 2, 3⟩], holding := holding } }
def onBroadcast (n : Nat) : Dev :=
  { onJob.modCore 23 0 (fun k => { k with bq := List.replicate n 5 }) with hal := { Hal.idle with bcq := [⟨none, 9⟩] } }

/-- Slot 0's tile in a running phase of number 7: entry 0 sends three units of 64 bytes from 0x1000 to slot 1, entry 1 receives two units
from tile 3 of device 5 into galley 2, entry 2 sends four units to it. -/
def sendHere : BitVec 256 := BitVec.ofNat 256 (1 + 2 ^ 8 + 9 * 2 ^ 16 + 1 * 2 ^ 32 + (3 + 2 ^ 16) * 2 ^ 64 + 0x1000 * 2 ^ 160)
def recvAway : BitVec 256 := BitVec.ofNat 256 (2 + 2 * 2 ^ 4 + 9 * 2 ^ 16 + (3 + 5 * 2 ^ 11 + 2 ^ 23) * 2 ^ 32 + (2 + 2 ^ 16) * 2 ^ 64)
def sendAway : BitVec 256 := BitVec.ofNat 256 (1 + 2 ^ 8 + 10 * 2 ^ 16 + (3 + 5 * 2 ^ 11 + 2 ^ 23) * 2 ^ 32 + (4 + 2 ^ 16) * 2 ^ 64)
def onExchange (q : XQueue) (cur : Option XRun) : Dev :=
  (((onMt.setReg Reg.devMap 1).setFld (Reg.tileIdent 1) F.tileIdentLogicalId 1).store (tileBase 0 + 0x1000) [5, 6, 7]).modTile 0 (fun t =>
    { t.setGalley 2 (gal 0x2000 1 partyExchange 0 0) with
      phases := [BitVec.ofNat 128 (7 + 3 * 2 ^ 41)], entries := [sendHere, recvAway, sendAway], xq := q, xcur := cur })
/-- The running phase, with `sent` units of entry 0 sent on `credits`. -/
def phase (sent credits : Nat) : XRun := ⟨0, [⟨0, sent, credits, 0, 0⟩, ⟨1, 0, 0, 1, 0⟩, ⟨2, 0, 1, 0, 0⟩], 3⟩
/-- The unit that entry 1 waits for has come. -/
def onReceiving : Dev := { onExchange [] (some (phase 0 1)) with units := [⟨0, 9, farSrc 5, 0, List.replicate 64 8⟩] }

/-- A packet of one unit of slot 0 to slot 1 of yard `dest`, on virtual channel 0; it lies at the router of yard `y`. -/
def packet (dest : Nat) : Pkt := ⟨0, 0, dest, 0, 24 * dest + 1, 9, 0, 0, [1, 2, 3]⟩
def onRouter (y dest : Nat) : Dev := dev0.modYard y (fun s => { s with pkts := [packet dest] })

/-- A node of yard 0 that joins inputs 24 and 25 of reduction 3, timeout set, ordinal 6, out to tile 2; an OR chunk at its input `i`. -/
def node : BitVec 128 := BitVec.ofNat 128 (3 + 6 * 2 ^ 10 + 2 ^ 25 + (24 + 25 * 2 ^ 5 + 2 * 2 ^ 20) * 2 ^ 32 + 2 ^ 20 * 2 ^ 64)
def chunk (i : Nat) (l : Half) : Chunk := ⟨.router 0 i, 0, 0, 0, 2, 3, 1, 0, 2, 0, 0, 0, [], false, false, List.replicate 128 l⟩
def onNode (bufs : List NodeBuf) : Dev := { dev0 with nodes := [(0, [node])], chunks := [chunk 24 3], bufs := bufs }

/-- That layer at a decision of step 5 to commit (or skip), with `p` as every press. -/
def onDecided (y : Layer) (commit : Bool) (p : Press) : Dev :=
  { (onLayer y).setReg Reg.pressSsStep 5 with
    press := { (onLayer y).press with dec := some (5, commit), p := allPresses p, bsum := [(0, 7)], rel := [(0, 1)] } }
def inPassB (y : Layer) : Dev := [0, 1, 2, 3].foldl (fun d c => d.setPst c 4 0) (onDecided y true { Press.idle with cur := some 0 })
/-- In pass A on the layer, ready, of step 5, with the size of that step first in the queue. -/
def onPassA (y : Layer) (p : Press) : Dev :=
  { (onLayer y).setReg Reg.halStep 5 with
    hal := { Hal.idle with first := false },
    press := { (onLayer y).press with ready := [(0, 1)], readyQ := [0], p := allPresses p, ssq := [(5, 0x3F800000), (6, 0)] } }
/-- Region 0 is the proof's slot 0 at 0x10000, region 1 slot 1 at 0x20000, region 2 the mirror's, two units at 0x30000: every path may write. -/
def withRegions (d : Dev) : Dev :=
  [0, 1, 2].foldl (fun d r =>
    let d := (d.setFld (Reg.holdRgnBase r) F.holdRgnBaseBase (r + 1)).setFld (Reg.holdRgnSize r) F.holdRgnSizeSize (if r = 2 then 2 else 1)
    let a := Reg.holdRgnAttr r
    (((d.setFlag a F.holdRgnAttrValid true).setFld a F.holdRgnAttrKind r).setFld a F.holdRgnAttrRead 0xFF).setFld a F.holdRgnAttrWrite 0xFF) d
/-- The record of step 5 is under way. -/
def onRecording : Dev :=
  { withRegions onJob with press := { PressS.idle with dec := some (5, true), recWait := true }, hal := { Hal.idle with holding := true } }

/-- Port 3 up on eight lanes, with its spare; `l` is its link layer. -/
def onPort (l : LinkP) : Dev :=
  ((((dev0.setFld (Reg.lnkStatus 3) F.lnkStatusUp 1).setFld (Reg.lnkStatus 3) F.lnkStatusState 2).setFlag (Reg.lnkStatus 3) F.lnkStatusSpareOk
    true).setReg (Reg.lnkPlevel 3) 1).setLink 3 l
/-- The port down, before training. -/
def onDown : Dev := dev0.setReg (Reg.lnkPlevel 3) 1
/-- A training in which everything succeeds, and the peer supports level 1 over FEC mode 0. -/
def trained : Training := ⟨true, 0, 0, true, true, true, true, 3, 1, 5, 9, 2⟩
def sending (pools : Sparse (List Byte)) : LinkP := { LinkP.idle with pools := pools, replay := [], seq := 4095 }
/-- A flit of pool `p` and SEQ `q`, without and with a body of packets. -/
def flitOf (p q : Nat) (body : List Byte) : List Byte := LinkP.idle.flit p q body

/-- The bosun is ready, the host link up, the job state `j`; `onHostJob` with a job that runs step 5. -/
def bootedTo (j : Nat) (d : Dev) : Dev :=
  ((d.setFlag Reg.bosBootStatus F.bosBootStatusBosunReady true).setFlag Reg.hstStatus F.hstStatusUp true).setFld Reg.hstJob F.hstJobState j
def onHost (j : Nat) : Dev := bootedTo j dev0
def onHostJob (j : Nat) : Dev := (bootedTo j onJob).setReg Reg.halStep 5
def ringCmd : CmdHdr := ⟨.ring, 3, false, 7⟩
def mailCmd : CmdHdr := ⟨.mailbox, 0, true, 8⟩
/-- An entry of opcode `op` that waits in the ring, is in hand there, or is in hand in the mailbox. -/
def entry (q : CmdHdr) (op : Nat) : HostEntry := hostCmd q op []
def waitingFor (d : Dev) (op : Nat) : Dev := { d with host := { d.host with waiting := [entry ringCmd op] } }
def inHand (d : Dev) (op : Nat) : Dev := { d with host := { d.host with cur := some (entry ringCmd op) } }
def inMailbox (d : Dev) (op : Nat) : Dev := { d with host := { d.host with mbCur := some (entry mailCmd op) } }

/-- A debug authorisation over nonce 5 for scope 3 by the factory's signer, in the host's buffer at 0x1000. -/
def authBytes : List Byte := toBytes 4 authMagic ++ toBytes 8 0 ++ toBytes 16 5 ++ [3, 1]
def onNonce : Dev := { (onHost 1).store 0x1000 authBytes with bos := { dev0.bos with nonce := some 5 } }
/-- A boot in which everything is sound, or whose manifest is not. -/
def bootIn (manifest : Bool) : BootIn := ⟨0, manifest, true, false, true, true, true, true, true, 0, [], [], true, 0⟩
/-- Powered, running, with the boot ROM's digest taken. -/
def onRails (d : Dev) : Dev := { d with pins := ⟨true, true, true, true⟩, bos := { d.bos with romDigest := true } }

/-! ## The queue and the whole machine, issue, scalar instructions, control -/

theorem test_reset_inv : State.reset.Inv := by decide +kernel

theorem witness_CanonicalAlways : goesTo (step ⟨[.nopInstruction issCt], onCt⟩) (isDev (onCt.retired issCt false)) = true := by decide +kernel

theorem witness_WellFormedGoes : (Instr.nopInstruction issCt).wf = true := by decide

theorem witness_OnlyFault : step ⟨[.nopInstruction ⟨0, 1, 0, false⟩], dev0⟩ = .fault (.noSuchCore 0 1) := rfl

theorem witness_IdleStep :
    let d := { dev0 with bos := { dev0.bos with tb := true } }
    d.bos.tb = true ∧ d.pwr.stopped = false := by decide +kernel

theorem witness_OnlyRunningIssues : coreExists issCt.slot issCt.core = true ∧ (st dev0).Inv ∧ (dev0.at_ issCt).run ≠ .running
    ∧ Instr.add issCt 1 2 3 ∈ scalarForms issCt 1 2 3 := by decide +kernel

theorem witness_GuardSquashes : Issues onCt issOff 0x01 false ∧ ((onCt.at_ issOff).guard issOff).getLsbD 0 = false
    ∧ (1 : R5).val < 8 ∧ Instr.add issOff 1 2 3 ∈ scalarForms issOff 1 2 3 := ⟨issues_of (by decide +kernel), by decide +kernel⟩

/-- A CT refuses the matrix and special-function classes, a VT and an MT the descriptor class. -/
theorem witness_ClassRefused : coreExists issCt.slot issCt.core = true ∧ (onCt.at_ issCt).run = .running
    ∧ slotIsMt issCt.slot = false ∧ slotIsVt issCt.slot = false ∧ slotIsCt issVt.slot = false ∧ (onVt.at_ issVt).run = .running
    ∧ onCt.spelled issCt = true ∧ onVt.spelled issVt = true := by
  decide +kernel

/-- Outside a job's faults the store has no errors: any fetch is sound. -/
theorem witness_ClassRefused_sound (n : Nat) : onCt.readStore issCt.slot (onCt.at_ issCt).pc n 0 = (onCt, true) := by
  have h : onCt.ecc = [] := by decide +kernel
  simp [Dev.readStore, Dev.noteCe, Dev.noteCeAt, Dev.ceOf, Dev.eccAll, h]

/-- A zeroed store; a word of class 0x05 with FN 0x0B, of which there is none. -/
def onZeros : Dev := { onCt with mem := [] }
def onNoFn : Dev := onCt.store (tileBase 23 + 0x100) [0x0A, 0, 0, 0x16]

theorem witness_IllegalWords (d : Dev) (_ : d = onZeros ∨ d = onNoFn) : coreExists issCt.slot issCt.core = true ∧ (d.at_ issCt).run = .running
    ∧ (d.at_ issCt).stalled = none ∧ d.readStore issCt.slot (d.at_ issCt).pc 4 0 = (d, true) ∧ (d.tile issCt.slot).image.loaded = true
    ∧ Instr.add issCt 1 2 3 ∈ scalarForms issCt 1 2 3
    ∧ decodeInsn issCt.slot issCt.core (d.insnWord issCt.slot 0x100) (d.insnWord issCt.slot 0x104) = none := by
  rcases ‹_ ∨ _› with h | h <;> subst h <;> decide +kernel
theorem witness_IllegalWords_zero : onZeros.insnWord issCt.slot (onZeros.at_ issCt).pc = 0 := by decide +kernel

/-- R135, R139: LONG 0, CLASS 1, PG 0, PN 1, D 5, A 1, B 2, FN 1 is sub s5, s1, s2 under the negated guard. -/
theorem test_sub_word : decodeInsn 23 0 (0b0000001_00010_00001_00101_1_000_00001_0#32) 0 = some (.sub ⟨23, 0, 0, true⟩ 5 1 2) := by decide +kernel
/-- R141: a long ld64 of layout I has IMM8 0 and its offset in the high word. -/
theorem test_ld64_word : decodeInsn 0 0 (0b00000000_0110_00010_00011_0_000_00110_1#32) 8 = some (.ld64 ⟨0, 0, 0, false⟩ 3 2 (.long 8))
    ∧ decodeInsn 0 0 (0b00000001_0110_00010_00011_0_000_00110_1#32) 8 = none := by decide +kernel

theorem witness_WordsSpell : (0 = 0 ∨ 0x17 ≤ 0 ∧ 0 < 32) ∧ (0x17 = 0 ∨ 0x17 ≤ 0x17 ∧ 0x17 < 32) ∧ 0x7F < 128
    ∧ 0x16 ∈ [1, 3, 4, 5, 7, 9, 0xC, 0xD, 0x10, 0x11, 0x12, 0x13, 0x14, 0x15, 0x16] ∧ 0xF ∈ [0xA, 0xE, 0xF] := by decide

theorem witness_IllegalForms : coreExists issCt.slot issCt.core = true ∧ (onCt.at_ issCt).run = .running
    ∧ onCt.readStore issCt.slot (onCt.at_ issCt).pc 4 0 = (onCt, true) ∧ 8 ≤ (8 : R5).val
    ∧ Instr.cmpeq issCt 8 1 2 ∈ compareForms issCt 8 1 2 := by decide +kernel

theorem witness_ProgramFault : onCt.reg (Reg.tileProgFault 23) = 0 := by decide +kernel

theorem witness_ScalarResults : Ready onCt issCt 0x01 false [1, 2, 3] [] ∧ onCt.on issCt := ⟨ready_of (by decide +kernel), by decide +kernel⟩

theorem witness_CompareResults : Ready onCt issCt 0x01 false [1, 2] [] ∧ onCt.on issCt ∧ (7 : R5).val < 8 :=
  ⟨ready_of (by decide +kernel), by decide +kernel⟩

theorem witness_ImmediateResults : Ready onCt issCt 0x02 (immLong (.long 5)) [1, 2] [] ∧ Ready onCt issCt 0x02 (immLong (.short 5)) [1, 2] []
    ∧ onCt.on issCt := ⟨ready_of (by decide +kernel), ready_of (by decide +kernel), by decide +kernel⟩

theorem witness_CompareImmediateResults : Ready onCt issCt 0x02 (immLong (.short 5)) [1] [] ∧ onCt.on issCt ∧ (7 : R5).val < 8 :=
  ⟨ready_of (by decide +kernel), by decide +kernel⟩

theorem witness_PredicateResults : Ready onCt issCt 0x05 false [] [] ∧ onCt.on issCt ∧ (7 : R5).val < 8 :=
  ⟨ready_of (by decide +kernel), by decide +kernel⟩

theorem witness_Branches : onCt.on issCt ∧ Ready onCt issCt 0x03 false [] [] ∧ Ready onCt issCt 0x04 false [31] []
    ∧ Ready onCt issCt 0x05 false [3] [] := ⟨by decide +kernel, ready_of (by decide +kernel), ready_of (by decide +kernel), ready_of (by decide +kernel)⟩

/-- brk: outside debug mode and in it. -/
theorem witness_ControlResults : onCt.on issCt ∧ Ready onCt issCt 0x05 false [] [] ∧ Ready onCt issCt 0x16 false [1] []
    ∧ Ready onCt issCt 0x16 false [] [] ∧ onCt.debugOpen 2 = false :=
  ⟨by decide +kernel, ready_of (by decide +kernel), ready_of (by decide +kernel), ready_of (by decide +kernel), by decide +kernel⟩

def onCtDebug : Dev := (onCt.setFlag Reg.bosSec F.bosSecDebug true).setFld Reg.bosSec F.bosSecScope 0xF

theorem witness_ControlResults_debug : onCtDebug.on issCt ∧ Ready onCtDebug issCt 0x16 false [] [] ∧ onCtDebug.debugOpen 2 = true :=
  ⟨by decide +kernel, ready_of (by decide +kernel), by decide +kernel⟩

theorem witness_SpecialRegisters : Ready onCt issCt 0x05 false [5] [] ∧ onCt.on issCt := ⟨ready_of (by decide +kernel), by decide +kernel⟩

/-- R139: 7 + (−3) = 4. -/
theorem test_add : goesTo (exec (.add issCt 5 1 2) (st onCt)) (isDev ((onCt.putS issCt 5 4).retired issCt false)) = true := by decide +kernel
/-- R127: a write to s0 is discarded. -/
theorem test_add_s0 : goesTo (exec (.add issCt 0 1 2) (st onCt)) (isDev (onCt.retired issCt false)) = true := by decide +kernel

/-! ## Local, vector and global memory; vector instructions; the units of a VT -/

/-- Of LocalLoads and LocalStores. -/
theorem witness_LocalMemory : Ready onCt issCt 0x06 (immLong (.long 0)) [2, 4] [] ∧ onCt.on issCt ∧ onCt.ecc = []
    ∧ (let a := (addrOf (.long 0) ((onCt.at_ issCt).sreg 4) 8).toNat
       a + 8 ≤ 0x60000 ∧ a % 8 = 0 ∧ onCt.readStore issCt.slot a 8 (1 + issCt.core.val) = (onCt, true)
        ∧ (onCt.tile issCt.slot).image.codeEnd ≤ a ∧ onCt.mayWrite issCt.slot a 8 0 = true) := ⟨ready_of (by decide +kernel), by decide +kernel⟩

/-- The last 8 bytes of the store. -/
theorem witness_LocalMemory_top :
    (let a := (addrOf (.long 0x5FDF8#32) ((onCt.at_ issCt).sreg 4) 8).toNat
     a + 8 = 0x60000 ∧ a % 8 = 0 ∧ onCt.readStore issCt.slot a 8 (1 + issCt.core.val) = (onCt, true)
      ∧ onCt.mayWrite issCt.slot a 8 0 = true) := by decide +kernel

/-- Past the end, misaligned, and below the code's end. -/
theorem witness_LocalAddressFaults : Ready onCt issCt 0x06 (immLong (.long 0)) [2, 4] [] ∧ onCt.on issCt
    ∧ 0x60000 < (addrOf (.long 0x5FE00#32) ((onCt.at_ issCt).sreg 4) 1).toNat + 1
    ∧ (addrOf (.long 1) ((onCt.at_ issCt).sreg 4) 8).toNat % 8 ≠ 0
    ∧ (addrOf (.short 0) ((onCt.at_ issCt).sreg 3) 8).toNat < (onCt.tile issCt.slot).image.codeEnd := ⟨ready_of (by decide +kernel), by decide +kernel⟩

theorem witness_VectorMemory : onVt.onV issVt ∧ onVt.ecc = [] ∧ (onVt.at_ issVt).guard issVt = BitVec.allOnes 128
    ∧ Ready onVt issVt 0x0B (immLong (.short 0)) [4] [2] ∧ Ready onVt issVt 0x0B (immLong (.short 0)) [4] [2, 2 + 1] ∧ (2 : R5).val % 2 = 0
    ∧ (let a := (addrOf (.short 0) ((onVt.at_ issVt).sreg 4) 64).toNat
       a + 512 ≤ 0x60000 ∧ a % 64 = 0 ∧ (onVt.tile issVt.slot).image.codeEnd ≤ a ∧ onVt.mayWrite issVt.slot a 512 0 = true) :=
  ⟨by decide +kernel, by decide +kernel, by decide +kernel, ready_of (by decide +kernel), ready_of (by decide +kernel), by decide +kernel⟩

/-- A CT's core with s5 at yard 0's case memory, whose first bytes are 1, 2, 3, 4. -/
def onCtGlobal : Dev := (onCt.modCore 23 0 (fun k => { k with s := [(1, 7#64), (5, BitVec.ofNat 64 caseLo)] })).store caseLo [1, 2, 3, 4]

theorem witness_GlobalAccess : onCtGlobal.on issCt ∧ Ready onCtGlobal issCt 7 false [1, 5] [] ∧ Ready onCtGlobal issCt 7 false [1, 5, 2] []
    ∧ Ready onCtGlobal issCt 7 false [5] [1] ∧ (onCtGlobal.at_ issCt).loads.length < 8 ∧ (onCtGlobal.at_ issCt).stores.length < 32
    ∧ (let x := (onCtGlobal.at_ issCt).sreg 5
       x.toNat / 2 ^ 61 = 0 ∧ onCtGlobal.isLocal x.toNat = true ∧ gaAddr x.toNat = x.toNat % 2 ^ 48 ∧ x.toNat % 2 ^ 48 % 64 = 0
        ∧ inCtl (x.toNat % 2 ^ 48) = false
        ∧ (onCtGlobal.memRead (.tile 23) caseLo 4).2 = some [1, 2, 3, 4] ∧ (onCtGlobal.memGadd (.tile 23) caseLo 4 7).2 = some 0x04030201) :=
  ⟨by decide +kernel, ready_of (by decide +kernel), ready_of (by decide +kernel), ready_of (by decide +kernel), by decide +kernel⟩

/-- Byte 0x100 of device 5, which port 3 reaches. -/
def onCtAway : Dev :=
  ((onCt.setFlag (Reg.lnkStatus 3) F.lnkStatusUp true).setReg (Reg.lnkMap 1) 0x1F1F031F).modCore 23 0 (fun k =>
    { k with s := [(5, BitVec.ofNat 64 (2 ^ 60 + 5 * 2 ^ 48 + 0x100))] })

theorem witness_GlobalAccess_away : onCtAway.on issCt ∧ Ready onCtAway issCt 7 false [1, 5] []
    ∧ (let x := (onCtAway.at_ issCt).sreg 5
       x.toNat / 2 ^ 61 = 0 ∧ onCtAway.isLocal x.toNat = false ∧ gaAddr x.toNat % 4 = 0 ∧ inCtl (gaAddr x.toNat) = false
        ∧ (onCtAway.remoteVia 0 0 (gaDev x.toNat) 1 (gaAddr x.toNat) (.read 4)).2 = true) :=
  ⟨by decide +kernel, ready_of (by decide +kernel), by decide +kernel⟩

def access (ok : Bool) : GAcc := ⟨0, 0x80, 7, 0, BitVec.ofNat 64 caseLo, 4, false, false, 3, [1, 2, 3, 4, 0, 0, 0, 0], ok, false⟩
def onCtWaiting (ok : Bool) : Dev := onCt.modCore 23 0 (fun k => { k with loads := [access ok], stores := [access ok] })

theorem witness_GlobalCompletion : ∀ ok : Bool, coreExists 23 0 = true ∧ Remote.data [] false ≠ .err
    ∧ (onCtWaiting ok).isLocal (access ok).addr.toNat = true ∧ ((onCtWaiting ok).core 23 0).loads[0]? = some (access ok)
    ∧ ((onCtWaiting ok).core 23 0).stores[0]? = some (access ok) := by decide +kernel

/-- BF16, 16-bit integers, and FP32 in pairs. -/
theorem witness_VectorArithmetic : onVt.onV issVt ∧ Ready onVt issVt 8 false [] (regsFor 0 [6, 2, 4]) ∧ Ready onVt issVt 8 false [] (regsFor 2 [6, 2, 4])
    ∧ Ready onVt issVt 8 false [] (regsFor 3 [6, 2, 4]) ∧ Ready onVt issVt 8 false [] (regsFor 3 [6, 2, 0])
    ∧ (6 : R5).val % 2 = 0 ∧ (2 : R5).val % 2 = 0 ∧ (4 : R5).val % 2 = 0 :=
  ⟨by decide +kernel, ready_of (by decide +kernel), ready_of (by decide +kernel), ready_of (by decide +kernel), ready_of (by decide +kernel), by decide⟩

theorem witness_VectorRounding : onVt.onV issVt ∧ (4 : R5).val % 2 = 0 ∧ Ready onVt issVt 8 true [] [6, 2, 3, 4, 4 + 1]
    ∧ Ready onVt issVt 8 false [] [6, 2, 3] := ⟨by decide +kernel, by decide, ready_of (by decide +kernel), ready_of (by decide +kernel)⟩

theorem witness_VectorCompareMove : onVt.onV issVt ∧ Ready onVt issVt 9 false [] (regsFor 3 [2, 4]) ∧ Ready onVt issVt 9 false [] (regsFor 3 [6, 2, 4])
    ∧ Ready onVt issVt 9 false [] (regsFor 3 [6, 2]) ∧ Ready onVt issVt 9 false [2] (regsFor 3 [6]) ∧ Ready onVt issVt 9 false [6, 4] [2]
    ∧ Ready onVt issVt 9 false [2, 4] [6] ∧ (6 : R5).val < 8 ∧ (6 : R5).val % 2 = 0 :=
  ⟨by decide +kernel, ready_of (by decide +kernel), ready_of (by decide +kernel), ready_of (by decide +kernel), ready_of (by decide +kernel),
    ready_of (by decide +kernel), ready_of (by decide +kernel), by decide⟩

/-- The raw-draw points 0x200 and 0x2FF, and 0x1FF and 0x300 beside them. -/
theorem witness_VectorConvert : onVt.onV issVt ∧ Ready onVt issVt 0x0A true [] [2, 2 + 1, 6] ∧ Ready onVt issVt 0x0A true [] [6, 6 + 1, 2, 2 + 1]
    ∧ (2 : R5).val % 2 = 0 ∧ (6 : R5).val % 2 = 0 ∧ 0x200 ≤ (0x00010200#32).toNat % 2 ^ 16 ∧ (0x000102FF#32).toNat % 2 ^ 16 ≤ 0x2FF
    ∧ (0x000101FF#32).toNat % 2 ^ 16 < 0x200 ∧ 0x2FF < (0x00010300#32).toNat % 2 ^ 16 :=
  ⟨by decide +kernel, ready_of (by decide +kernel), ready_of (by decide +kernel), by decide⟩

theorem witness_UnitQueues : onVt.onV issVt ∧ onVt.on issVt ∧ Ready onVt issVt 0x0C false [] [3, 2] ∧ Ready onVt issVt 0x0D false [3] [2]
    ∧ Ready onVt issVt 0x0E true [2, 4] [] ∧ quantLegal 0 0 = true ∧ quantLegal 1 0 = true ∧ (onVt.tile 17).sfu.length < 4 :=
  ⟨by decide +kernel, by decide +kernel, ready_of (by decide +kernel), ready_of (by decide +kernel), ready_of (by decide +kernel), by decide +kernel⟩

def queued : VEnt := ⟨0, BitVec.allOnes 128, 6, 0, 0, 0x3F80#2048, true, false, 0, 0x100⟩

/-- The three queues full: the instruction waits. -/
theorem witness_UnitQueues_full :
    let t := onVt.modTile 17 (fun t => { t with sfu := List.replicate 4 queued, red := List.replicate 4 queued, qnt := List.replicate 4 queued })
    t.onV issVt ∧ t.on issVt ∧ ¬ (t.tile 17).sfu.length < 4 ∧ ¬ (t.tile 17).red.length < 4 ∧ ¬ (t.tile 17).qnt.length < 4 := by decide +kernel

/-- A row merge of no rows: the quantiser ends at once. -/
theorem witness_UnitResults :
    let t := onVt.modTile 17 (fun t => { t with sfu := [queued], red := [queued] })
    (t.tile 17).sfu = queued :: [] ∧ (t.tile 17).red = queued :: [] ∧ queued.vec = true := by decide +kernel

theorem witness_UnitResults_quantiser : (onVtGalleys.tile 17).qnt = quantising :: [] ∧ quantising.b = 1
    ∧ ∃ d, onVtGalleys.quantRow 17 quantising = .done d := ⟨by decide +kernel, rfl, _, rfl⟩

/-! ## The matrix tile -/

/-- The six kinds with a legal encoding, counts in range (a count of 0 for mload is not), with room and without. -/
theorem witness_MatrixQueues : Ready onMt issMt 0x0F true [] [] ∧ onMt.on issMt
    ∧ matrixLegal 0 (mFields 3 1 48) = true ∧ matrixLegal 1 (mFields 0 0 0) = true ∧ matrixLegal 2 (mFields 3 1 1) = true
    ∧ matrixLegal 3 { mFields 3 1 0 with arr := 2 } = true ∧ matrixLegal 4 (mFields 0 0 48) = true ∧ matrixLegal 5 (mFields 0 0 0) = true
    ∧ countOk 0 (mFields 3 1 48) = true ∧ countOk 0 (mFields 3 1 0) = false ∧ (onMt.tile 0).arrQ 0 < 4
    ∧ ¬ ((onMtQueue 1 (List.replicate 4 (mEnt 1 (mFields 0 0 0) false))).tile 0).arrQ 0 < 4 := ⟨ready_of (by decide +kernel), by decide +kernel⟩

theorem witness_MatrixQueues_close : Ready onMt issMt 0x0F true [1, 3] [] ∧ onMt.on issMt
    ∧ matrixLegal 4 { mFields 0 0 48 with sa := 1, sb := 3 } = true := ⟨ready_of (by decide +kernel), by decide +kernel⟩

theorem witness_MatrixWaits : onMt.on issMt ∧ Ready onMt issMt 0x0F true [4] [] ∧ matrixLegal 6 { mFields 0 0 0 with sa := 4 } = true
    ∧ ((onMt.at_ issMt).sreg 4).toNat + 32 ≤ 0x60000 ∧ ((onMt.at_ issMt).sreg 4).toNat % 32 = 0
    ∧ onMt.readStore issMt.slot ((onMt.at_ issMt).sreg 4).toNat 32 (1 + issMt.core.val) = (onMt, true)
    ∧ (¬ ∃ e ∈ (onMt.tile 0).mq, e.mop = 4 ∧ e.f.ep = 0) ∧ Ready onMt issMt 0x0F true [] [] ∧ matrixLegal 7 (mFields 0 0 0) = true :=
  ⟨by decide +kernel, ready_of (by decide +kernel), by decide +kernel, by decide +kernel, by decide +kernel, by decide +kernel, by decide +kernel,
    ready_of (by decide +kernel), by decide +kernel⟩

/-- A close queued that uses the epilogue. -/
theorem witness_MatrixWaits_close : ∃ e ∈ ((onMtQueue 1 [mEnt 4 (mFields 0 0 48) false]).tile 0).mq, e.mop = 4 ∧ e.f.ep = 0 := by decide +kernel

/-- Alone in the queue; and behind an instruction that shares its group. -/
theorem witness_MatrixStarts : ((onMtQueue 48 [mEnt 0 (mFields 3 1 48) false]).tile 0).mq[0]? = some (mEnt 0 (mFields 3 1 48) false)
    ∧ (mEnt 0 (mFields 3 1 48) false).begun = false ∧ ((onMtQueue 48 []).galley 0 3).init = true ∧ ((onMtQueue 48 []).galley 0 3).cons = 1
    ∧ (mEnt 4 (mFields 0 0 48) false).span ((onMtQueue 48 []).tile 0) = 1
    ∧ ((onMtQueue 48 []).tile 0).group 0 0 = Group.closed ∧ Group.closed.st ≠ .open_
    ∧ (∀ w ∈ ([] : List MEnt), w.shares ((onMtQueue 48 []).tile 0) (mEnt 0 (mFields 3 1 48) false) = false)
    ∧ (mEnt 1 (mFields 0 0 0) true).shares ((onMtQueue 48 []).tile 0) (mEnt 1 (mFields 0 0 0) false) = true := by decide +kernel

theorem witness_MatrixCompletes :
    let d := onMtQueue 48 [mEnt 0 (mFields 3 1 2) true]
    (d.tile 0).mq[0]? = some (mEnt 0 (mFields 3 1 2) true) ∧ (mEnt 0 (mFields 3 1 2) true).begun = true ∧ d.ecc = []
    ∧ d.frozen 0 = false ∧ (d.galley 0 3).init = true ∧ (d.galley 0 3).cons = 1 ∧ 0 < (d.galley 0 3).nfull := by decide +kernel

theorem witness_MatrixAccumulates :
    let e := mEnt 2 (mFields 3 1 1) true
    let d := onMtQueue 1 [e]
    (d.tile 0).mq[0]? = some e ∧ e.begun = true ∧ e.mop = 2 ∧ e.f.flag = false ∧ e.f.count = 1 ∧ e.row = 0 ∧ d.ecc = []
    ∧ d.frozen 0 = false ∧ (d.galley 0 3).init = true ∧ (d.galley 0 3).cons = 1 ∧ 0 < (d.galley 0 3).nfull := by decide +kernel

/-! ## Galleys, steal queues, descriptor engines -/

/-- The program at both sides in turn: slots filled, none filled, none free. -/
theorem witness_GalleyOperations :
    let d := fun x => onCt.setGalley 23 5 x
    onCt.on issCt ∧ ((d (gal 0x400 1 0 4 2)).galley 23 5).init = true ∧ ((d (gal 0x400 1 4 0 2)).galley 23 5).cons = 0
    ∧ 0 < ((d (gal 0x400 1 4 0 2)).galley 23 5).nfull ∧ ((d (gal 0x400 1 4 0 0)).galley 23 5).nfull = 0
    ∧ ((d (gal 0x400 1 0 4 1)).galley 23 5).prod = 0 ∧ 0 < ((d (gal 0x400 1 0 4 1)).galley 23 5).free
    ∧ ((d (gal 0x400 1 0 4 2)).galley 23 5).free = 0 := by decide +kernel

theorem witness_GalleyOperations_ready : ∀ x ∈ [gal 0x400 1 0 4 2, gal 0x400 1 4 0 2], Ready (onCt.setGalley 23 5 x) issCt 0x10 false [6] []
    ∧ Ready (onCt.setGalley 23 5 x) issCt 0x10 false [] [] ∧ (onCt.setGalley 23 5 x).on issCt := by
  intro x hx
  simp only [List.mem_cons, List.not_mem_nil, or_false] at hx
  rcases hx with rfl | rfl <;> exact ⟨ready_of (by decide +kernel), ready_of (by decide +kernel), by decide +kernel⟩

def onCtGset (bs : List Byte) : Dev := onCt.store (tileBase 23 + 0x200) bs

theorem witness_GalleySettingAndFaults :
    let d := onCtGset galleyBytes
    d.on issCt ∧ Ready d issCt 0x10 false [4] [] ∧ ((d.at_ issCt).sreg 4).toNat + 16 ≤ 0x60000 ∧ ((d.at_ issCt).sreg 4).toNat % 16 = 0
    ∧ d.readStore 23 0x200 16 1 = (d, true) ∧ (d.galley 23 5).init = false
    ∧ (∃ y, galleyOf (d.bytes (tileBase 23 + 0x200) 16) = some y ∧ d.galleyValid 23 5 y = true)
    ∧ galleyOf (onCt.bytes (tileBase 23 + 0x200) 16) = none ∧ Ready d issCt 0x10 false [6] [] :=
  ⟨by decide +kernel, ready_of (by decide +kernel), by decide +kernel, by decide +kernel, by decide +kernel, by decide +kernel,
    ⟨_, rfl, by decide +kernel⟩, by decide +kernel, ready_of (by decide +kernel)⟩

/-- In use: a side that waits, a slot held; filled slots alone are no use; the galley queued for the arrays; a side held by them. -/
theorem witness_GalleySettingAndFaults_busy : { gal 0x400 1 0 4 1 with nacq := 1 }.busy = true ∧ { gal 0x400 1 0 4 0 with cstall := true }.busy = true ∧ (gal 0x400 1 0 4 2).busy = false
    ∧ (onMtQueue 48 [mEnt 0 (mFields 3 1 48) false]).galleyQueued 0 3 = true ∧ (gal 0x400 1 0 4 0).cons ≠ 0 ∧ (gal 0x400 1 4 0 0).prod ≠ 0 := by
  decide +kernel

theorem witness_StealPosts :
    let d := onCtPosting
    d.on issCt ∧ Ready d issCt 0x12 false [] [] ∧ Ready d issCt 0x12 false [4] [] ∧ (d.yard 0).recs.length < 64 ∧ d.sqClosed 0 = false
    ∧ ((d.at_ issCt).sreg 4).toNat + 256 ≤ 0x60000 ∧ ((d.at_ issCt).sreg 4).toNat % 64 = 0 ∧ d.readStore 23 0x200 256 1 = (d, true)
    ∧ (let r : QRec := ⟨(d.yard 0).freeEntry, d.bytes (tileBase 23 + 0x200) 256⟩
       r.slot < d.fld (Reg.yardSqSlotCount 0) F.yardSqSlotCountCount ∧ (d.yard 0).slotsUsed.contains r.slot = false ∧ d.recordOk 0 r = true) :=
  ⟨by decide +kernel, ready_of (by decide +kernel), ready_of (by decide +kernel), by decide +kernel⟩

/-- Nothing to take, in an open yard and in one that is closed; a queue of 64; a closed queue. -/
theorem witness_StealPosts_stake : onMt.on issMt ∧ Ready onMt issMt 0x11 false [6] [] ∧ onMt.heldCount 0 < 2
    ∧ onMt.findTask 0 (onMt.logical 0) = none ∧ onMt.allClosed 0 = true
    ∧ (onMt.setFlag (Reg.yardSqState 0) F.yardSqStateClosed false).allClosed 0 = false
    ∧ 64 ≤ ((onCt.modYard 0 (fun y => { y with recs := List.replicate 64 (record 0x7FF 0) })).yard 0).recs.length
    ∧ (onCtPosting.setFlag (Reg.yardSqState 0) F.yardSqStateClosed true).sqClosed 0 = true := ⟨by decide +kernel, ready_of (by decide +kernel), by decide +kernel⟩

theorem witness_StealTakes : onMtTaking.on issMt ∧ Ready onMtTaking issMt 0x11 false [6] [] ∧ onMtTaking.heldCount 0 < 2
    ∧ onMtTaking.findTask 0 (onMtTaking.logical 0) = some (0, record 0x7FF 0) ∧ onMtTaking.freeChan 0 = some 0
    ∧ onMtTaking.fld (Reg.tileSqLand 0) F.tileSqLandAddr + 64 * b2n (onMtTaking.freeArea 0) + 64 ≤ 0x60000
    ∧ (onMtTaking.tile 0).image.codeEnd ≤ onMtTaking.fld (Reg.tileSqLand 0) F.tileSqLandAddr + 64 * b2n (onMtTaking.freeArea 0)
    ∧ onMtTaking.mayWrite 0 (onMtTaking.fld (Reg.tileSqLand 0) F.tileSqLandAddr + 64 * b2n (onMtTaking.freeArea 0)) 64 0 = true :=
  ⟨by decide +kernel, ready_of (by decide +kernel), by decide +kernel⟩

/-- A landing left in the code region. -/
theorem witness_StealTakes_code :
    let d := onMtTaking.setReg (Reg.tileSqLand 0) 0x1C0
    Ready d issMt 0x11 false [6] [] ∧ d.heldCount 0 < 2 ∧ d.findTask 0 (d.logical 0) = some (0, record 0x7FF 0) ∧ d.freeChan 0 = some 0
    ∧ ¬ ((d.tile 0).image.codeEnd ≤ d.fld (Reg.tileSqLand 0) F.tileSqLandAddr + 64 * b2n (d.freeArea 0)) :=
  ⟨ready_of (by decide +kernel), by decide +kernel⟩

/-- Two tasks held; and a stake.w that waits. -/
theorem witness_StealTakes_others :
    2 ≤ (onMtTaking.modTile 0 (fun t => { t with held := [⟨1, 0, 0, false, 3⟩, ⟨2, 0, 0, true, 4⟩] })).heldCount 0
    ∧ (let d := onMtTaking.modCore 0 0 (fun k => { k with run := .stalled, stalled := some (.stakeW issMt 6) })
       d.on issMt ∧ (d.at_ issMt).run = .stalled ∧ (d.at_ issMt).stalled = some (.stakeW issMt 6)
       ∧ d.findTask 0 (d.logical 0) = some (0, record 0x7FF 0)) := by decide +kernel

theorem witness_TasksRun :
    let d := onMt.modTile 0 (fun t => { t with landing := [⟨⟨7, 0, 2, true, 4⟩, 0x1040, (record 0x7FF 0).bytes, false, 0, 6⟩] })
    (d.tile 0).landing = [⟨⟨7, 0, 2, true, 4⟩, 0x1040, (record 0x7FF 0).bytes, false, 0, 6⟩] ∧ (record 0x7FF 0).bytes.length = 256 ∧ d.ecc = [] := by
  decide +kernel

theorem witness_TasksRun_sdone :
    let d := onMtTask false []
    Ready d issMt 0x11 false [1] [] ∧ d.on issMt
    ∧ (d.tile 0).held.find? (fun x => x.handle == (d.at_ issMt).sreg 1) = some ⟨7, 0, 2, true, 4⟩ ∧ d.chan 0 4 = some (fillChannel false []) :=
  ⟨ready_of (by decide +kernel), by decide +kernel⟩

/-- The channel's descriptor issues a request of 64 bytes and completes it; a channel that is done. -/
theorem witness_TasksRun_channel :
    let d := onMtTask false [fillDesc]
    let o := d.descIssue fillDesc
    d.chan 0 4 = some (fillChannel false [fillDesc]) ∧ (fillChannel false [fillDesc]).stopped = false ∧ d.descGalley fillDesc = true
    ∧ (match o.1.descComplete (.desc 23) o.2 (o.2.out.length - 1) (.data [] false) with | .ok _ _ => true | _ => false) = true
    ∧ (fillChannel true []).sdone = true ∧ (fillChannel true []).stopped = false ∧ ∀ r ∈ (fillChannel true []).descs, r.finished = true :=
  by decide +kernel

theorem witness_DescriptorEngines :
    let d := onCtDesc
    d.on issCt ∧ Ready d issCt 0x13 false [4] [] ∧ Ready d issCt 0x13 false [6] [] ∧ ((d.tile 23).engine 1).q.length < 16
    ∧ ((d.at_ issCt).sreg 4).toNat + 32 ≤ 0x60000 ∧ ((d.at_ issCt).sreg 4).toNat % 32 = 0 ∧ d.readStore 23 0x200 32 1 = (d, true)
    ∧ descShape (descOf (d.bytes (tileBase 23 + 0x200) 32)) = true ∧ d.descGalley (descOf (d.bytes (tileBase 23 + 0x200) 32)) = true :=
  ⟨by decide +kernel, ready_of (by decide +kernel), ready_of (by decide +kernel), by decide +kernel⟩

/-- The head issues its one request; the request outstanding completes. -/
theorem witness_DescriptorEngines_head :
    let run := { plainDesc with row := 1, out := [(0, 0, 64)] }
    let d := onCtEngine run
    let o := d.memRead (.desc 23) (gaAddr plainDesc.src) 64
    ((onCtEngine plainDesc).tile 23).engine 1 = { Engine.idle with q := [plainDesc] } ∧ plainDesc.srcGal = false ∧ plainDesc.dstGal = false
    ∧ plainDesc.row < plainDesc.rows ∧ plainDesc.out.length < 64 ∧ (d.tile 23).engine 1 = { Engine.idle with q := [run] }
    ∧ run.out[0]? = some (0, 0, 64) ∧ run.zero = false ∧ Remote.data [] false ≠ .err ∧ d.isLocal run.src = true ∧ o.1.isLocal run.dst = true
    ∧ o.2 = some (List.replicate 64 0) ∧ (o.1.memWrite (.desc 23) (gaAddr run.dst) (List.replicate 64 0)).2 = true := by decide +kernel

/-! ## The halyard, waits, aborts -/

def noPeers : PeerArr := ⟨false, 0, 0, none, 0, 0⟩

/-- Ready to arrive, arrived already, work outstanding, synced; a barrier the tile is no member of. -/
theorem witness_BarrierInstructions : onJob.on issCt ∧ Ready onJob issCt 0x14 false [] [] ∧ onJob.mayArrive 23 1 = true
    ∧ (onJob.at_ issCt).hasArrived 1 = false ∧ (onJob.at_ issCt).synced = false ∧ onJob.arrivalReady 23 1 = true
    ∧ onJob.mayArrive 23 3 = false
    ∧ ((onJob.modCore 23 0 (fun k => { k with arrived := 2, synced := true })).at_ issCt).hasArrived 1 = true
    ∧ (onJob.modTile 23 (fun t => { t with sfu := [quantising] })).arrivalReady 23 1 = false := ⟨by decide +kernel, ready_of (by decide +kernel), by decide +kernel⟩

/-- The other cores halted; and one of them running. -/
theorem witness_Arrivals : (onJob.tile 23).arrived.getLsbD 1 = false
    ∧ (∀ c, c < 4 → c ≠ 0 → (onJob.core 23 c).run = .halted ∨ (onJob.core 23 c).hasArrived 1 = true)
    ∧ (∃ c, c < 4 ∧ c ≠ 0 ∧ ((onJob.modCore 23 1 (fun _ => coreAt100)).core 23 c).run ≠ .halted
      ∧ ((onJob.modCore 23 1 (fun _ => coreAt100)).core 23 c).hasArrived 1 = false) := ⟨by decide +kernel, by decide +kernel, 1, by decide +kernel⟩

theorem witness_HalyardInstructions :
    let n := { (onAsked 0).modCore 23 0 (fun k => { k with s := [(1, 0)] }) with hal := Hal.idle }
    let d := (onLayer layer0).modTile 23 (fun t => { t with decs := [(7, true)] })
    onJob.on issCt ∧ onJob.multi = false ∧ Ready onJob issCt 0x14 false [1] [] ∧ Ready onJob issCt 0x14 false [6] [] ∧ Ready onJob issCt 0x14 false [6, 1] []
    ∧ ((onJob.at_ issCt).sreg 2).toNat / 2 ^ 56 = 0xFF ∧ ((onJob.at_ issCt).sreg 1).toNat / 2 ^ 56 ≠ 0xFF ∧ (∀ e ∈ onJob.hal.bcq, e.src ≠ some 23)
    ∧ onJob.stepCt = some 23 ∧ n.nextStep = (0 : Word) ∧ ((n.at_ issCt).sreg 1).setWidth 32 = n.nextStep ∧ (onJob.at_ issCt).bq = []
    ∧ (onLayer layer0).press.layer (((onJob.at_ issCt).sreg 0).toNat % 2 ^ 16) = some layer0 ∧ layer0.chCount ≠ 0 ∧ 0 < layer0.relExpect
    ∧ (d.tile 23).decs.find? (fun e => e.1 == ((onJob.at_ issCt).sreg 1).setWidth 32) = some (7, true) :=
  ⟨by decide +kernel, by decide +kernel, ready_of (by decide +kernel), ready_of (by decide +kernel), ready_of (by decide +kernel), by decide +kernel⟩

/-- The yard's barrier and the device's; every member there, with and without bit 6; not there yet. -/
theorem witness_BarrierReleases : ∀ b ∈ ([1, 2] : List Bar),
    let ps := fun (d : Dev) => d.membersOf b (if d.barScope b = 1 then (List.range 24).map (fun i => 24 * 0 + i) else d.tiles.map (·.1))
    (onJob.barScope b = 1 ∨ onJob.barScope b = 2) ∧ b.val ≠ onJob.relBar ∧ b.val ≠ onJob.decBar ∧ b.val ≠ onJob.comBar ∧ onJob.hal.aborting = false
    ∧ ps onJob = [23] ∧ (onJob.tile 23).arrived.getLsbD b = false
    ∧ ps (onArrived b 0x45) = [23] ∧ ((onArrived b 0x45).tile 23).arrived.getLsbD b = true
    ∧ (reducedValue (onArrived b 0x45).flagMode ((onArrived b 0x45).tileFlags b [23])).getLsbD 6 = true
    ∧ (reducedValue (onArrived b 5).flagMode ((onArrived b 5).tileFlags b [23])).getLsbD 6 = false := by decide +kernel

theorem witness_StepReleases :
    let d := onAsked 0
    let ps := d.membersOf d.relBar (d.tiles.map (·.1))
    d.multi = false ∧ d.barScope d.relBar = 3 ∧ d.runningJob = true ∧ d.hal.aborting = false ∧ d.press.prep = false ∧ d.host.stStart = none
    ∧ d.hal.hrel = some 0 ∧ (∀ p ∈ ps, (d.tile p).arrived.getLsbD d.relBar = true) ∧ ps ≠ [] ∧ d.hal.first = true ∧ d.stepAllowed 0 = true
    ∧ (reducedValue d.flagMode (d.tileFlags d.relBar ps)).getLsbD 6 = false := by decide +kernel

/-- A commit, an abort; a commit barrier complete; a decision that is not ready. -/
theorem witness_DecisionAndCommit : (onDeciding 0).decisionReady = true ∧ ((onDeciding 0).decisionFlags noPeers).getLsbD 6 = false
    ∧ ((onDeciding 0x40).decisionFlags noPeers).getLsbD 6 = true ∧ onJob.decisionReady = false ∧ onJob.multi = false
    ∧ (let m := (onDeciding 0).setReg Reg.halJobBoard 2
       m.decisionReady = true ∧ m.multi = true ∧ m.hal.sentArr.getLsbD m.decBar = false ∧ noPeers.arrived = false)
    ∧ (let d := onCommitting
       let ps := d.membersOf d.comBar (d.tiles.map (·.1))
       d.multi = false ∧ d.barScope d.comBar = 3 ∧ d.runningJob = true ∧ d.hal.aborting = false
        ∧ (∀ p ∈ ps, (d.tile p).arrived.getLsbD d.comBar = true) ∧ (∀ c, c < 4 → (d.pr c).comArr = true)
        ∧ (reducedValue d.flagMode (d.tileFlags d.comBar ps)).getLsbD 6 = false) := by decide +kernel

/-- A queue with room for one more, and a full one; nothing to deliver; a frame that fails. -/
theorem witness_BroadcastsAndFrames : (∀ n ∈ [15, 16], (onBroadcast n).hal.bcq = [⟨none, 9⟩] ∧ (onBroadcast n).stepCt = some 23
      ∧ ((onBroadcast n).core 23 0).run = .running ∧ ((onBroadcast n).core 23 0).bq.length = n)
    ∧ (onBroadcast 15).multi = false ∧ ((onBroadcast 15).setReg Reg.halJobBoard 2).multi = true ∧ onJob.multi = false
    ∧ onJob.hal.bcq = [] ∧ onJob.flag Reg.halFault F.halFaultValid = false ∧ onJob.jst ≠ 7 ∧ onJob.jst ≠ 8 ∧ ¬ (8 < (8 : Fin 80).val ∧ (8 : Fin 80).val < 16)
    := by decide +kernel

theorem witness_ResumesAndLimits :
    let d := onStalled (.hwait issCt 1)
    let g := (onStalled (.gacq issCt 6 5)).setGalley 23 5 { gal 0x400 1 0 4 0 with cstall := true }
    let x := onJob.modTile 23 (fun t => { t with xcur := some ⟨0, [⟨3, 0, 0, 0, 0⟩], 1⟩ })
    coreExists 23 0 = true ∧ (d.at_ issCt).run = .stalled ∧ (d.at_ issCt).stalled = some (.hwait issCt 1) ∧ d.jst ≠ 5 ∧ (onJob.at_ issCt).run ≠ .stalled
    ∧ (g.galley 23 5).init = true ∧ (g.galley 23 5).cstall = true ∧ (x.tile 23).xcur = some ⟨0, [⟨3, 0, 0, 0, 0⟩], 1⟩
    ∧ (let a := onStalled (.add issCt 5 1 2)
       a.on issCt ∧ (a.at_ issCt).run = .stalled ∧ a.unresolved 23 0 = false ∧ ([5, 1, 2].any fun r => (a.busyS 23 0).contains r) = false)
    ∧ d.on issCt ∧ d.unresolved 23 0 = false ∧ ((d.modCore 23 0 (fun k => { k with woken := 2 })).at_ issCt).woken.getLsbD 1 = true
    ∧ x.flag (Reg.tileXchFault 23) F.tileXchFaultValid = false ∧ (onJob.tile 23).xcur = none := by decide +kernel

/-- A notice that aborts, one at the limit of replays, one that is held; another device's abort. -/
theorem witness_AbortsAndReplay :
    let d := onAbort false
    let l := (d.setFld Reg.devFaultCfg F.devFaultCfgReplayLimit 2).setFld Reg.devReplays F.devReplaysConsec 2
    d.runningJob = true ∧ d.hal.aborting = false ∧ d.hal.restoreStep = noStep ∧ d.hal.notices = [⟨1, 2, 3⟩] ∧ d.hal.holding = false
    ∧ d.limitReached = false ∧ l.limitReached = true ∧ l.jst ≠ 7 ∧ l.jst ≠ 8 ∧ (onAbort true).hal.holding = true ∧ (onAbort true).hal.heldAbort = none
    ∧ d.multi = false ∧ (d.setReg Reg.halJobBoard 2).multi = true ∧ (d.setReg Reg.halJobBoard 2).limitReached = false := by decide +kernel

/-- No notice; one outside a job, one while an abort lasts; another device's abort then. -/
theorem witness_NoticesTaken :
    let o := { onAbort false with hal := { (onAbort false).hal with aborting := true } }
    onJob.hal.notices = [] ∧ ((onAbort false).setFld Reg.hstJob F.hstJobState 1).runningJob = false
    ∧ o.hal.notices = [⟨1, 2, 3⟩] ∧ o.runningJob = true ∧ o.hal.holding = false ∧ o.hal.aborting = true ∧ o.limitReached = false
    ∧ (let m := o.setReg Reg.halJobBoard 2
       m.multi = true ∧ m.runningJob = true ∧ m.hal.aborting = true) := by decide +kernel

theorem witness_ReplayRestores : onJob.hal.aborting = false ∧ (let d := { onJob with hal := { Hal.idle with aborting := true } }
    d.hal.aborting = true ∧ d.runningJob = true ∧ d.enginesBusy = false ∧ d.imagesBad = none) := by decide +kernel

/-! ## The exchange, the mesh, the memories, the hold -/

/-- The phase named and not named, room in the queue and none, an idle engine and a busy one, a phase to start. -/
theorem witness_ExchangePhases :
    let d := fun q cur => (onExchange q cur).modCore 0 0 (fun k => { k with s := [(1, 7)] })
    let named := fun (d : Dev) => (List.range (d.tile 0).phases.length).find? (fun i => phNum ((d.tile 0).xhead i) == ((d.at_ issMt).sreg 1).toNat % 2 ^ 16)
    (d [] none).on issMt ∧ Ready (d [] none) issMt 0x15 false [1] [] ∧ Ready (d [] none) issMt 0x15 false [] [] ∧ Ready (d [] none) issMt 0x15 false [6] []
    ∧ named (d [] none) = some 0 ∧ named ((d [] none).modCore 0 0 (fun k => { k with s := [(1, 8)] })) = none
    ∧ 2 ≤ ((d [0, 0] (some (phase 0 1))).tile 0).xq.length ∧ ((d [0] none).tile 0).xcur = none ∧ ((d [0] none).tile 0).xq = [0]
    ∧ 0 < phCount (((d [0] none).tile 0).xhead 0) :=
  ⟨by decide +kernel, ready_of (by decide +kernel), ready_of (by decide +kernel), ready_of (by decide +kernel), by decide +kernel⟩

theorem witness_ExchangeUnits :
    let t := (onExchange [] (some (phase 0 1))).tile 0
    let r := onReceiving
    let g := r.galley 0 2
    t.active 0 = some ⟨0, 0, 1, 0, 0⟩ ∧ t.active 2 = some ⟨2, 0, 1, 0, 0⟩ ∧ (onExchange [] (some (phase 0 1))).ecc = []
    ∧ xeOp (t.xentry 2) = 1 ∧ xeRemote (t.xentry 2) = true
    ∧ xeOp (t.xentry 0) = 1 ∧ xeSrcMem (t.xentry 0) = true ∧ xeRemote (t.xentry 0) = false
    ∧ (onExchange [] (some (phase 0 1))).slotOf (xePeer (t.xentry 0)) = some 1 ∧ 0 < xeUnits (t.xentry 0) ∧ xeUnits (t.xentry 0) = 3
    ∧ ((onExchange [] (some (phase 3 3))).tile 0).active 0 = some ⟨0, 3, 3, 0, 0⟩ ∧ ((onExchange [] (some (phase 1 1))).tile 0).active 0 = some ⟨0, 1, 1, 0, 0⟩
    ∧ (r.tile 0).active 1 = some ⟨1, 0, 0, 1, 0⟩ ∧ xeOp (t.xentry 1) = 2 ∧ xeRemote (t.xentry 1) = true
    ∧ takeUnit 0 (xeTag (t.xentry 1)) (r.senderOf (t.xentry 1)) (64 * xeF (t.xentry 1) 2 16 12) r.units = some (⟨0, 9, farSrc 5, 0, List.replicate 64 8⟩, [])
    ∧ r.frozen 0 = false ∧ g.init = true ∧ g.prod = 4 ∧ 64 * g.units = 64 ∧ 0 < g.nslots - g.nres - g.nfull - g.nacq
    ∧ r.mayWrite 0 (g.base + (g.head + g.nres) % g.nslots * (64 * g.units)) 64 1 = true := by decide +kernel

/-- Along the row, along the column, at the yard; a failed router; corners and an inner router gone silent. -/
theorem witness_MeshRouting : (∀ e ∈ ([(9, 12), (9, 25), (9, 9)] : List (Nat × Nat)),
      ((onRouter e.1 e.2).yard e.1).pkts.filter (fun q => q.vc == 0) = [packet e.2] ∧ (packet e.2).rset = 0 ∧ destYard (packet e.2).dest < 64
      ∧ (packet e.2).vc = 0 ∧ (onRouter e.1 e.2).routerFailed e.1 = false ∧ (onRouter e.1 e.2).routerFailed 10 = false
      ∧ (onRouter e.1 e.2).routerFailed 17 = false) ∧ destYard (packet 12).dest ≠ 9 ∧ destYard (packet 25).dest ≠ 9 ∧ (packet 9).dest = 9
    ∧ ((onRouter 9 12).setFlag (Reg.yardRtrStatus 9) F.yardRtrStatusFailed true).routerFailed 9 = true
    ∧ (onRouter 9 12).routeOf 0 9 12 = some dirE ∧ neighbour 9 dirE = some 10 ∧ onJob.jobLoaded = true
    ∧ dev0.jst ≠ 7 ∧ dev0.jst ≠ 8 ∧ dev0.routerFailed 0 = false ∧ dev0.routerFailed 63 = false := by decide +kernel

theorem witness_ReductionNodes :
    let d := onNode [⟨0, 0, 25, chunk 25 4⟩]
    (onNode []).chunks[0]? = some (chunk 24 3) ∧ (chunk 24 3).pos = .router 0 24 ∧ (onNode []).nodesOf 0 = [node] ∧ neRid node = (chunk 24 3).rid
    ∧ neInputs node = [24, 25] ∧ (onNode []).bufs = [] ∧ 0 < neF node 2 20 8 ∧ d.bufs = [⟨0, 0, 25, chunk 25 4⟩] ∧ (chunk 25 4).q = (chunk 24 3).q
    ∧ ((onNode []).chunks.take 0).any (chunk 24 3).sameFlow = false ∧ ([chunk 24 5].any (chunk 24 3).sameFlow) = true
    ∧ (onNode []).routerFailed 0 = false ∧ Dev.nodesOf { onNode [] with nodes := [] } 0 = []
    ∧ (onNode []).routeOf { chunk 24 3 with dest := 2 }.rset 0 { chunk 24 3 with dest := 2 }.dest = some dirE ∧ neighbour 0 dirE = some 1 ∧ (onNode []).routerFailed 1 = false
    ∧ (chunk 24 3).rop = 2 ∧ neOut node < 24 := by decide +kernel

/-- First and last lines of a store and of a slice. -/
theorem witness_ScrubsAndWritebacks : dev0.ecc = [] ∧ dev0.wb = [] ∧ (∀ e ∈ [(0, 0), (3071, 0x5FFFF)], 128 * e.1 < 0x60000 ∧ 128 * e.1 ≤ e.2 ∧ e.2 < 128 * e.1 + 128)
    ∧ (∀ e ∈ [(0, 63), (0x7FFF, 0x1FFFFF)], 64 * e.1 < 0x200000 ∧ 64 * e.1 ≤ e.2 ∧ e.2 < 64 * e.1 + 64)
    ∧ dev0.flag (Reg.tileEccStatus 5) F.tileEccStatusUe = false ∧ dev0.flag (Reg.yardCaseEcc 3) F.yardCaseEccUe = false := by decide +kernel

/-- An owner, one that is not in a running job, two masters never granted. -/
theorem witness_CaseBeats :
    let owner := fun (d : Dev) => bitsAt (d.reg (Reg.yardSliceOwner 3 0)) 0 8
    dev0.ecc = [] ∧ (List.replicate 64 9 : List Byte).length = 64 ∧ dev0.yardFurled 3 = false ∧ owner (dev0.setReg (Reg.yardSliceOwner 3 0) 5) = 5
    ∧ owner onJob ≠ 5 ∧ onJob.runningJob = true ∧ (∀ e ∈ (dev0.yard 3).last, e.1 ≠ 0)
    ∧ (dev0.yard 3).cycle = [] ∧ (dev0.yard 3).lost = [] := by decide +kernel

theorem witness_HoldAccesses :
    let rd : HoldReqS := ⟨false, 0, .read 0x200 64 0, none, false⟩
    let wr : HoldReqS := ⟨false, 0, .write 0x200 (List.replicate 64 7), none, false⟩
    0x200 + 64 ≤ 0x8000000000 ∧ 0x200 / 256 % 4 = 2 ∧ 0x200 / 256 = (0x200 + 64 - 1) / 256 ∧ dev0.ecc = []
    ∧ dev0.flag (Reg.holdStatus 0) F.holdStatusClearing = false ∧ dev0.rgnOf 2 = none ∧ (withRegions dev0).rgnOf 2 = some 2
    ∧ (0x200 + 64 ≤ (withRegions dev0).mirrorAt) ∧ dev0.retainedClosed 0x200 64 = false
    ∧ dev0.regionOk (.fabric 0) 0x200 64 false = true ∧ onJob.regionOk (.fabric 0) 0x200 64 false = false
    ∧ ((dev0.setCtl 2 { HoldC.idle with q := [rd] }).ctl 2).q = [rd] ∧ ((dev0.setCtl 2 { HoldC.idle with q := [wr] }).ctl 2).q = [wr]
    ∧ dev0.flag (Reg.holdEccUe 2) F.holdEccUeUe = false ∧ (0x7FFFFFFFC0 + 64 = 0x8000000000 ∧ 0x7FFFFFFFC0 / 256 % 4 = 3) := by decide +kernel

theorem witness_HoldMaintenance : onJob.jobLoaded = true ∧ 64 * 0x1FFFFFFFF < 0x8000000000 ∧ 64 * 0x1FFFFFFFF / 256 % 4 = 3 ∧ (onJob.ctl 3).q = []
    ∧ onJob.flag (Reg.holdEccUe 3) F.holdEccUeUe = false ∧ dev0.jobLoaded = false ∧ (dev0.ctl 3).refreshed = [] := by decide +kernel

/-! ## Control space, presses, proof, mirror -/

/-- Before a job starts and after; bit 31 written 0 and 1; an offset without a register, at both ends of the space. -/
theorem witness_RegisterWrites : dev0.started = false ∧ onJob.started = true ∧ (0x80000000#32).getLsbD 31 = true ∧ (0x7FFFFFFF#32).getLsbD 31 = false
    ∧ (∀ off ∈ [0x4000, 0x1FFFFFC], regAt off = none ∧ off % 4 = 0 ∧ off < 0x2000000) := by decide +kernel

/-- A captured half and none; a held half and none. -/
theorem witness_RegisterPairs :
    let d := fun c : Cap => { dev0 with caps := [c] }
    (dev0.capOf .bosun Reg.clkTbLoadLo).hi = none ∧ (dev0.capOf .bosun Reg.clkTbLoadLo).held = none
    ∧ ((d ⟨.bosun, Reg.clkTbLoadLo, some 7, none⟩).capOf .bosun Reg.clkTbLoadLo).hi = some 7
    ∧ ((d ⟨.bosun, Reg.clkTbLoadLo, none, some 7⟩).capOf .bosun Reg.clkTbLoadLo).held = some 7 := by decide +kernel

/-- Who may write the registers that the tiles' programs drive the presses by. -/
theorem witness_maySet : ∀ r ∈ [Reg.pressReady, Reg.pressStepTag, Reg.pressCopyIn, Reg.pressMirrorCtl],
    Dev.maySet .host r = true ∧ Dev.maySet (.tile 23 0) r = true := by decide +kernel

theorem witness_GuardedRegisters : slotIsMt 0 = true ∧ dev0.debugOpen 1 = false
    ∧ ((dev0.setFlag Reg.bosSec F.bosSecDebug true).setFld Reg.bosSec F.bosSecScope 2).debugOpen 1 = true
    ∧ (∀ b, b < 16 → bitsAt (0xAAAAAAAA#32).toNat (2 * b) 2 ≠ 3) ∧ (∀ b, b < 16 → bitsAt (0xFFFFFFFF#32).toNat (2 * b) 2 = 3) := by decide +kernel

/-- The layer made ready, a press that starts it, one that ends it, and its sums combined. -/
theorem witness_PressPassA :
    let r := (onLayer layer0).setReg Reg.pressLtCount 1
    let a := onPassA layer0 Press.idle
    let e := [0, 1, 2, 3].foldl (fun d c => d.setPst c 2 0) (onPassA layer0 { Press.idle with cur := some 0 })
    let s := onPassA layer0 { Press.idle with acc := [(0, (List.replicate 8 0, false))] }
    r.press.layer 0 = some layer0 ∧ (0x1000#32).toNat % 4096 = 0 ∧ 0 < r.reg Reg.pressLtCount ∧ layer0.frozen = false ∧ 1 < layer0.readyExpect
    ∧ a.press.readyQ.find? (fun l => !(a.pr 1).aDone.contains l) = some 0 ∧ a.runningJob = true ∧ a.hal.aborting = false ∧ a.press.prep = false
    ∧ (a.pr 1).cur = none ∧ a.press.dec = none ∧ a.pst 1 ≠ 6
    ∧ (e.pr 1).cur = some 0 ∧ e.pst 1 = 2 ∧ e.runningJob = true ∧ e.ecc = []
    ∧ s.started = true ∧ layer0.shardsM1 = 0 ∧ layer0.shardPos = 0 ∧ layer0.chCount ≠ 0 ∧ (s.accOf 0 (s.ruleOf layer0).progA).isSome = true := by decide +kernel

/-- Sizes that are refused and taken; a latch; an arrival. -/
theorem witness_StepSizesAndArrival :
    let d := onPassA layer0 { Press.idle with aDone := [0] }
    let a := { d.setReg Reg.pressSsStep 5 with press := { d.press with comb := [(0, ⟨List.replicate 8 0, false, 0, 0, 0⟩)] } }
    negOrNonfinite 0xBF800000#32 = true ∧ negOrNonfinite 0x7F800000#32 = true ∧ negOrNonfinite 0x80000000#32 = false ∧ d.press.ssq.length < 4
    ∧ d.wantsSize = true ∧ d.press.ssq = [(d.step, 0x3F800000), (6, 0)] ∧ a.wantsSize = false
    ∧ a.runningJob = true ∧ a.hal.aborting = false ∧ a.press.prep = false ∧ a.hal.first = false ∧ a.hal.decGiven = false ∧ (a.pr 1).decArr = false
    ∧ a.pst 1 ≠ 6 ∧ a.endedA 1 = true ∧ (∀ l ∈ a.press.sharded, (lookup a.press.comb l).isSome = true) ∧ a.latched = true := by decide +kernel

/-- A device without a shard, counts below, at and above REL_EXPECT, a layer that ends, a channel, a spoil. -/
theorem witness_PressPassB :
    let d := onDecided layer0 true Press.idle
    let y := { layer0 with wcFmt := 15 }
    d.press.layer 0 = some layer0 ∧ d.press.dec = some (5, true) ∧ d.runningJob = true ∧ d.hal.aborting = false ∧ d.pst 1 ≠ 6
    ∧ d.nextB 1 = some 0 ∧ (d.pr 1).cur = none ∧ d.reg Reg.pressSsStep = (5 : Word).toNat ∧ d.press.spoilWait = false ∧ layer0.chCount ≠ 0
    ∧ d.relOf 5 0 = 0 ∧ 0 < layer0.relExpect ∧ layer0.relExpect < d.relOf 5 0 + 3
    ∧ Dev.relOf { d with press := { d.press with relOld := [(0, 2)] } } 5 0 = layer0.relExpect
    ∧ ((inPassB y).pr 1).cur = some 0 ∧ (inPassB y).pst 1 = 4 ∧ lookup (inPassB y).press.bsum 0 = some 7 ∧ y.hasCopy = false
    ∧ layer0.hasCopy = true ∧ (Sparse.get (fun _ => 0) (inPassB layer0).press.regen 0).testBit 0 = false
    ∧ (∀ k, k < 4 → ((inPassB layer0).pr k).cur = some 0 ∧ (inPassB layer0).pst k = 4)
    ∧ (onDecided { layer0 with chCount := 0 } true Press.idle).nextB 1 = some 0 := by decide +kernel

/-- A layer that ends, its record in slot 1's region. -/
theorem witness_PressPassB_write :
    let d := withRegions (inPassB { layer0 with wcFmt := 15 })
    pressMayWrite d (d.recAt d.altAt 0 1) 256 ∧ (d.pr 1).cur = some 0 ∧ d.pst 1 = 4 ∧ lookup d.press.bsum 0 = some 7 := by
  unfold pressMayWrite; decide +kernel

/-- A skip; a commit with a layer to do, and one with every layer done and two controllers' scale entries. -/
def onWork : Dev :=
  let k := withRegions (onDecided { layer0 with wcFmt := 15 } true { Press.idle with bDone := [0] })
  { k with job := { k.job with scaleCount := 10, scaleAt := 0x18000 } }

/-- The ten scale entries lie in regions that a press may write. -/
theorem witness_PressCommitWork_write : onWork.ecc = [] ∧ ∀ i, i < 10 → pressMayWrite onWork (onWork.job.scaleAt + 64 * i) 64
    ∧ pressMayWrite onWork (onWork.scaleSlotAt onWork.altAt i) 64 := by
  unfold pressMayWrite; decide +kernel

theorem witness_PressCommitWork :
    let y := { layer0 with wcFmt := 15 }
    let d := onWork
    d.press.layer 0 = some y ∧ d.runningJob = true ∧ d.hal.aborting = false ∧ (d.pr 1).worked = false ∧ (d.pr 1).cur = none ∧ d.pst 1 ≠ 6
    ∧ (onDecided y false Press.idle).press.dec = some (5, false) ∧ (∃ i ∈ (onDecided y true Press.idle).press.unfrozen, ((onDecided y true Press.idle).pr 1).bDone.contains i = false)
    ∧ d.press.dec = some (5, true) ∧ (∀ i ∈ d.press.unfrozen, (d.pr 1).bDone.contains i = true) ∧ d.press.layers = [y] ∧ y.frozen = false ∧ y.hasCopy = false
    ∧ d.press.spoilWait = false ∧ d.job.scaleAt + 64 * d.job.scaleCount ≤ d.scaleSlotAt d.altAt 0 ∧ ctlOf (d.scaleSlotAt d.altAt 4) = 1 := by decide +kernel

/-- A record that its region admits, with the completion ring full; one that it does not wait for; notices for the step and for another. -/
theorem witness_CommitRecords :
    let d := onRecording
    let a := d.recCopyAt (recSeq (d.stepRecord 5 true) % 2)
    let n := (onJob.setReg Reg.halDecStep 5).setReg Reg.pressProofJobstep 4
    d.runningJob = true ∧ d.hal.aborting = false ∧ d.press.dec = some (5, true) ∧ d.press.recWait = true ∧ d.regionOk .press a 64 true = true
    ∧ d.multi = false ∧ d.hal.lastStep = none ∧ (5 : Word) ≠ 0xFFFFFFFE#32 ∧ d.hal.heldStep = none ∧ d.hal.holding = true ∧ d.hal.heldAbort = none
    ∧ d.jst ≠ 7 ∧ d.jst ≠ 8 ∧ (d.setReg Reg.hstCplHead 1).cplFull = true ∧ onJob.press.recWait = false
    ∧ (5 : Word) = w32 (n.reg Reg.halDecStep) ∧ (5 : Word) ≠ w32 (n.reg Reg.pressProofJobstep) ∧ n.hal.recorded.contains 9 = false
    ∧ n.hal.holding = false := by decide +kernel

/-- A region for the mirror that its path may write, heads of each kind, and the last bytes of its image. -/
theorem witness_Mirrors :
    let d := withRegions onJob
    d.rgnOf 2 = some 2 ∧ d.rgnBase 2 = 0x30000 ∧ d.rgnBytes 2 = 0x20000 ∧ d.ecc = [] ∧ (∀ c, c < 4 → (d.ctl c).q = []) ∧ d.flag (Reg.holdStatus 0) F.holdStatusClearing = false
    ∧ d.retainedClosed 0x30000 64 = false ∧ d.regionOk .mirror 0x30000 64 true = true ∧ d.retainedClosed 0x4FFC0 64 = false
    ∧ d.regionOk .mirror 0x4FFC0 64 true = true ∧ (∀ k ∈ ([1, 2, 3] : List Byte), (k :: List.replicate 63 3).length = 64 ∧ natAt (k :: List.replicate 63 3) 0 1 = k.toNat)
    ∧ d.fld Reg.pressMirrorHeld F.pressMirrorHeldState ≠ 1 := by decide +kernel

/-! ## Links and the host's port -/

/-- A port that carries and one that does not; a resend; a pool chosen; a full replay buffer; nothing to send. -/
theorem witness_FlitsSent :
    let l := sending [(0, [1, 2, 3, 4, 5, 6, 7, 8]), (3, [5])]
    dev0.carrying 3 = false ∧ (onPort l).carrying 3 = true ∧ ((onPort l).link 3).resend = [] ∧ ((onPort l).link 3).replay.length < 256
    ∧ l.ready 0 = true ∧ l.lastHal = false ∧ ((onPort l).link 3).choose = some 0 ∧ ({ l with lastHal := true } : LinkP).choose = some 3
    ∧ ((onPort { l with resend := [[1, 2]] }).link 3).resend = [[1, 2]] ∧ ((onPort LinkP.idle).link 3).choose = none
    ∧ 256 ≤ ((onPort { l with replay := List.replicate 256 [] }).link 3).replay.length := by decide +kernel

/-- 252 bytes whose stored CRC is `w`. -/
def crcFlit (b : List Byte) (w : Word) : List Byte := b ++ toBytes 4 w.toNat
theorem crcFlit_crc (b : List Byte) (w : Word) (h : b.length = 252) :
    natAt (crcFlit b w) 252 4 = w.toNat ∧ (crcFlit b w).take 252 = b ∧ (crcFlit b w).length = 256 := by
  have r : List.range 4 = [0, 1, 2, 3] := by decide
  refine ⟨?_, ?_, ?_⟩
  · have hd : (crcFlit b w).drop 252 = toBytes 4 w.toNat := by rw [crcFlit, ← h, List.drop_left]
    rw [natAt, hd]
    have hw := w.isLt
    simp [toBytes, r, ofBytes]
    omega
  · rw [crcFlit, ← h, List.take_left]
  · simp [crcFlit, h, toBytes]
/-- The first 252 bytes of a flit of pool `p` and SEQ `q`. -/
def headOf (p q : Nat) : List Byte := toBytes 4 (p + 8 * q + 4095 * 2 ^ 15) ++ List.replicate 248 0
theorem headOf_length (p q : Nat) : (headOf p q).length = 252 := by
  rw [headOf, List.length_append, List.length_replicate, toBytes, List.length_map, List.length_range]
def goodFlit (p q : Nat) : List Byte := crcFlit (headOf p q) (crc32 (headOf p q))
def badFlit : List Byte := crcFlit (headOf 2 0) (crc32 (headOf 2 0) + 1)

/-- Every flit whose CRC agrees is good; one with another CRC is not. -/
theorem witness_FlitsReceived_crc : (∀ p q, (goodFlit p q).length = 256 ∧ natAt (goodFlit p q) 252 4 = (crc32 ((goodFlit p q).take 252)).toNat)
    ∧ badFlit.length = 256 ∧ natAt badFlit 252 4 ≠ (crc32 (badFlit.take 252)).toNat := by
  refine ⟨fun p q => ?_, ?_⟩
  · obtain ⟨a, b, c⟩ := crcFlit_crc (headOf p q) (crc32 (headOf p q)) (headOf_length p q)
    exact ⟨c, by rw [goodFlit, a, b]⟩
  · obtain ⟨a, b, c⟩ := crcFlit_crc (headOf 2 0) (crc32 (headOf 2 0) + 1) (headOf_length 2 0)
    refine ⟨c, ?_⟩
    rw [badFlit, a, b]
    generalize crc32 (headOf 2 0) = x
    bv_omega

/-- The next flit, one out of order, one of a reserved pool, and one that fails its CRC. -/
theorem witness_FlitsReceived :
    let l := (onPort LinkP.idle).link 3
    (onPort LinkP.idle).carrying 3 = true ∧ l.fails = 0 ∧ l.awaiting = false
    ∧ ((onPort { LinkP.idle with awaiting := true }).link 3).awaiting = true ∧ flitSeq badFlit = l.expect ∧
    ((onPort { LinkP.idle with fails := 7 }).link 3).fails = 7
    ∧ flitPool badFlit = 2 ∧ flitAckt (goodFlit 2 0) = 0 ∧ flitPool (goodFlit 2 0) = 2 ∧ flitSeq (goodFlit 2 0) = l.expect
    ∧ l.freedOf 2 < poolFlits 2 ∧ flitSeq (goodFlit 2 1) ≠ l.expect ∧ flitAckt (goodFlit 5 0) = 0
    ∧ flitPool (goodFlit 5 0) = 5 ∧ flitPool (goodFlit 6 0) = 6 := by decide +kernel

theorem witness_CreditsAndAcks :
    let d := onPort { LinkP.idle with freed := [(1, 3)], cwIn := [(1, [true, true, false]), (2, [false, true])] }
    d.flag (Reg.lnkStatus 3) F.lnkStatusUp = true ∧ (∃ p ∈ List.range 5, (d.link 3).freedOf p - (if p = 3 then min ((d.link 3).freedOf 3) (d.heldChunks 3) else 0) ≠ 0)
    ∧ (∀ p ∈ List.range 5, ((onPort LinkP.idle).link 3).freedOf p = 0) ∧ dev0.flag (Reg.lnkStatus 3) F.lnkStatusUp = false
    ∧ (Sparse.get (fun _ => []) (d.link 3).cwIn 1).head? = some true ∧ (Sparse.get (fun _ => []) (d.link 3).cwIn 2).head? ≠ some true := by decide +kernel

/-- A port that may train and the outcomes of its training, a fast retrain, a retry, a time-out. -/
theorem witness_LinkTraining :
    let r := (onPort LinkP.idle).setFld (Reg.lnkStatus 3) F.lnkStatusState 3
    let d := onDown.settleStrikes 3
    onDown.lnkState 3 ≠ 2 ∧ onDown.lnkState 3 ≠ 4 ∧ onDown.mayTrain 3 = true ∧ trained.signal = true ∧ ({ trained with signal := false } : Training).signal = false
    ∧ 2 ≤ countLanes (orNat (3 : BitVec 9).toNat (d.manifestLanes 3)) ∧ trained.eqFailed = 0 ∧ trained.berFailed = 0 ∧ d.manifestLanes 3 = 0
    ∧ trained.skewOk = true ∧ trained.reply = true ∧ (d.meetPeer 3 trained).fecMode 3 trained = some 1 ∧ (d.meetPeer 3 trained).linkLevel 3 trained = some 1
    ∧ (onPort LinkP.idle).lnkState 3 = 2 ∧ r.lnkState 3 = 3 ∧ (r.fecMode 3 trained).isSome = true ∧ (r.linkLevel 3 trained).isSome = true
    ∧ countLanes (orNat (orNat (r.fld (Reg.lnkLanes 3) F.lnkLanesFailed) (r.fld (Reg.lnkLanes 3) F.lnkLanesStruck)) trained.berFailed.toNat) < 2
    ∧ (onDown.setFld (Reg.lnkStatus 3) F.lnkStatusDownCause 1).fld (Reg.lnkStatus 3) F.lnkStatusDownCause = 1
    ∧ onDown.flag (Reg.lnkStatus 3) F.lnkStatusUp = false := by decide +kernel

theorem witness_LinkControls :
    let d := onPort LinkP.idle
    let off := onDown.setFlag (Reg.lnkCfg 3) F.lnkCfgEnable false
    d.mayTrain 3 = true ∧ off.mayTrain 3 = false ∧ d.flag (Reg.lnkCfg 3) F.lnkCfgEnable = true ∧ (2#32).getLsbD 0 = false
    ∧ off.flag (Reg.lnkCfg 3) F.lnkCfgEnable = false ∧ (3#32).getLsbD 0 = true ∧ (off.link 3).edgeDead = false ∧ d.lnkState 3 = 2 ∧ (3#32).getLsbD 1 = true
    ∧ d.fld (Reg.lnkLanes 3) F.lnkLanesFailed = 0 ∧ d.fld (Reg.lnkLanes 3) F.lnkLanesStruck = 0 ∧ d.flag (Reg.lnkStatus 3) F.lnkStatusSpareOk = true
    ∧ (d.setFld (Reg.lnkLanes 3) F.lnkLanesStruck 5).fld (Reg.lnkLanes 3) F.lnkLanesStruck ≠ 0 := by decide +kernel

/-- Margins at their limits and past them; swaps; a loss of lock with a spare, without one, and in wide mode. -/
theorem witness_LaneHealth :
    let d := onPort { LinkP.idle with retry := some 7, calNext := 3 }
    d.lnkState 3 = 2 ∧ d.flag (Reg.lnkCfg 3) F.lnkCfgCalEn = true ∧ d.spareOk 3 = true
    ∧ (d.activeLanes 3).find? (fun i => decide ((d.link 3).calNext ≤ i)) = some 3 ∧ d.belowMargin 3 12 1024 = false ∧ d.belowMargin 3 11 0 = true
    ∧ (let e := onPort { LinkP.idle with calNext := 9 }
       e.lnkState 3 = 2 ∧ e.flag (Reg.lnkCfg 3) F.lnkCfgCalEn = true ∧ e.spareOk 3 = true ∧ (e.link 3).calNext = 9
        ∧ e.fld (Reg.lnkLanes 3) F.lnkLanesSpare < 9 ∧ e.belowMargin 3 12 0 = false)
    ∧ d.belowMargin 3 12 1025 = true ∧ d.fld (Reg.lnkLanes 3) F.lnkLanesSpare ≠ 7 ∧ (d.link 3).retry = some 7 ∧ ((onPort LinkP.idle).link 3).retry = none
    ∧ d.carrying 3 = true ∧ d.laneActive 3 7 = true ∧ d.laneActive 3 8 = false ∧ (d.setFlag (Reg.lnkStatus 3) F.lnkStatusSpareOk false).spareOk 3 = false
    ∧ (d.setFld (Reg.lnkStatus 3) F.lnkStatusState 4).lnkState 3 = 4 ∧ (d.setFld (Reg.lnkStatus 3) F.lnkStatusState 4).laneActive 3 8 = true := by decide +kernel

/-- Requests to the hold, a tile store, case memory and control space, with the port up and down. -/
theorem witness_HostPortRequests :
    let d := onHost 1
    dev0.flag Reg.hstStatus F.hstStatusUp = false ∧ d.flag Reg.hstStatus F.hstStatusUp = true ∧ inCtl 0x40 = false ∧ d.hostMay 0x40 8 = true
    ∧ (d.memRead .host 0x40 8).2 = some (List.replicate 8 0) ∧ (d.memWrite .host 0x40 [1, 2]).2 = true ∧ d.hostMay 0x40 2 = true
    ∧ (d.memGadd .host 0x40 8 5).2 = some 0 ∧ placeOf (tileBase 5 + 8) 8 = .store 5 ∧ placeOf (caseBase 3) 8 = .case_ 3 ∧ inCtl (tileBase 5) = false
    ∧ inCtl (caseBase 3) = false ∧ d.debugOpen 0 = false ∧ inCtl ctlLo = true ∧ (d.memRead .host 0x1FFFFFFFFFF 8).2 = none := by decide +kernel

/-- A ring of 64 with one new entry; a tail at its size; a mailbox free and busy; commands that wait. -/
theorem witness_RingsAndMailbox :
    let r := (onHost 1).setFld Reg.hstCmdSize F.hstCmdSizeCmdLog2 6
    let m := { onHost 1 with host := { HostS.idle with mbWaiting := some (entry mailCmd 2) } }
    let w := waitingFor (onHost 1) 2
    dev0.flag Reg.bosBootStatus F.bosBootStatusBosunReady = false ∧ r.flag Reg.bosBootStatus F.bosBootStatusBosunReady = true ∧ r.cmdSize = 64
    ∧ r.cmdSize ≤ bitsAt (64#32).toNat 0 12 ∧ bitsAt (1#32).toNat 0 12 < r.cmdSize ∧ r.clearing = false ∧ r.cmdPending 1 = 1 ∧ r.cmdPending r.cmdTail = 0
    ∧ r.eccFirst (r.cmdBase + 64 * r.cmdHead) 64 = none ∧ r.flag Reg.bosMbStatus F.bosMbStatusBusy = false
    ∧ (r.setFlag Reg.bosMbStatus F.bosMbStatusBusy true).flag Reg.bosMbStatus F.bosMbStatusBusy = true
    ∧ w.host.waiting = [entry ringCmd 2] ∧ w.host.cur = none ∧ w.host.mbWaiting = none ∧ w.clearing = false
    ∧ m.host.mbWaiting = some (entry mailCmd 2) ∧ m.host.mbCur = none ∧ r.host.waiting = [] := by decide +kernel

theorem witness_Completions :
    let staged := fun d : Dev => (List.range 8).map (fun i => w32 (d.reg (Reg.hstCplStage i)))
    let m := ((inHand (onHostJob 4) 0x15).setReg (Reg.hstCplStage 0) 0x15).setReg (Reg.hstCplStage 1) 7
    let h := { onHost 1 with host := { HostS.idle with holdoff := [(0, true), (3, false)] } }
    (onHost 1).host.mbCur = none ∧ (onHost 1).host.cur = none ∧ (inMailbox (onHost 2) 0x10).host.mbCur = some (entry mailCmd 0x10)
    ∧ (inMailbox (onHost 2) 0x10).jst = JobSt.loading ∧ (entry mailCmd 0x11).opcode = 0x11 ∧ (inMailbox (onHostJob 4) 0x11).jst = JobSt.running
    ∧ (inMailbox (onHost 7) 0x11).jst = JobSt.failed ∧ (inHand (onHost 7) 0x15).host.cur = some (entry ringCmd 0x15)
    ∧ (inHand (onHostJob 4) 0x15).jst ≠ JobSt.failed ∧ Dev.maySet (.tile 23 0) Reg.hstCplPush = true ∧ Dev.maySet (.tile 0 0) Reg.hstCplPush = false
    ∧ endsMsg (staged m) (entry ringCmd 0x15) = true ∧ m.host.mbCur = none ∧ h.host.holdoff.any (fun e => e.1 == 0 && e.2) = true
    ∧ h.host.holdoff.any (fun e => e.1 == 3 && e.2) = false ∧ mailCmd.src = CmdSrc.mailbox := by decide +kernel

/-- Misses below and at the third window; a full ring; the device's own heartbeat. -/
theorem witness_Heartbeats :
    let b := fun n => ((onHostJob 4).setFlag Reg.hstStatus F.hstStatusHbActive true).setFld Reg.hstStatus F.hstStatusMisses n
    let f := { (onHostJob 4).setReg Reg.hstCplHead 1 with host := { HostS.idle with cplWait := [[1]] } }
    (onHost 1).flag Reg.hstStatus F.hstStatusHbActive = false ∧ (b 1).flag Reg.hstStatus F.hstStatusHbActive = true
    ∧ (b 1).fld Reg.hstStatus F.hstStatusMisses = 1 ∧ (b 2).fld Reg.hstStatus F.hstStatusMisses = 2 ∧ (b 2).flag Reg.hstStatus F.hstStatusHostLost = false
    ∧ (b 2).jst = JobSt.running ∧ (b 2).step ≠ noStep ∧ f.cplFull = true ∧ f.host.cplWait ≠ [] ∧ (onHost 1).cplFull = false
    ∧ (onHost 1).flag Reg.hstStatus F.hstStatusUp = true ∧ ((onHost 1).setReg Reg.hstHbAddrLo 0x1000).reg64 Reg.hstHbAddrLo Reg.hstHbAddrHi ≠ 0
    ∧ (onHost 1).reg64 Reg.hstHbAddrLo Reg.hstHbAddrHi = 0 := by decide +kernel

/-! ## Jobs, firmware, owner, tests -/

theorem witness_QueryCommands : (onHost 1).flag Reg.bosBootStatus F.bosBootStatusBosunReady = true ∧ (onHost 1).hasSlots = false
    ∧ (onHost 1).mirrorHeld = none ∧ (onHost 1).jst ≠ JobSt.boot ∧ (onHost 0).jst = JobSt.boot
    ∧ dev0.flag Reg.bosBootStatus F.bosBootStatusBosunReady = false ∧ mailCmd.src = .mailbox := by decide +kernel

/-- A loaded job on a device whose hold, tree and numerics are sound. -/
def onReady : Dev :=
  (((ctls.foldl (fun d c => d.setFld (Reg.holdStatus c) F.holdStatusChanOk 0xFFFF) (onHost 3)).setFlag Reg.halStatus F.halStatusTreeOk true).setFlag
    Reg.devNumerics F.devNumericsSrSelftest true)

/-- The states in which each is taken, waits or is refused. -/
theorem witness_LoadAndStart :
    let w := { onHost 1 with host := { HostS.idle with loadWait := some (entry mailCmd 0x10) } }
    (∀ q ∈ [ringCmd, mailCmd], (onHost 1).takes q ∧ (onHost 3).takes q ∧ (onHost 4).takes q ∧ (onHost 8).takes q) ∧ (onHost 1).jst = JobSt.idle
    ∧ (onHost 4).jst = JobSt.running ∧ (onHost 8).jst = JobSt.clearing ∧ mailCmd.src = .mailbox ∧ (onHost 3).jst = JobSt.loaded ∧ onReady.mayStart = true ∧ onReady.jst = JobSt.loaded ∧ onReady.takes ringCmd
    ∧ (onHost 1).host.loadWait = none ∧ w.host.loadWait = some (entry mailCmd 0x10) ∧ w.jst = JobSt.idle := by decide +kernel

theorem witness_EndAndKill :
    let r := { onHostJob 4 with press := { PressS.idle with recWait := true } }
    (onHost 3).takes ringCmd ∧ (onHost 3).pwr.stopped = false ∧ (onHost 3).jst = JobSt.loaded ∧ (onHost 5).jst = JobSt.held ∧ (onHost 7).jst = JobSt.failed
    ∧ r.takes ringCmd ∧ r.jst = JobSt.running ∧ r.press.recWait = true ∧ r.hal.lastStep = none ∧ (onHost 6).jst = JobSt.draining
    ∧ (onHost 8).flag Reg.bosBootStatus F.bosBootStatusBosunReady = true ∧ (onHost 8).pwr.stopped = false ∧ (onHost 8).jst = JobSt.clearing
    ∧ (onHost 1).takes ringCmd ∧ (onHost 1).jst = JobSt.idle ∧ (onHost 3).flag Reg.bosBootStatus F.bosBootStatusBosunReady = true := by decide +kernel

/-- A job held on the device whose host was lost, with a heartbeat since. -/
def onLost : Dev :=
  { (onHostJob 5).setFlag Reg.hstStatus F.hstStatusHostLost true with
    hal := { Hal.idle with heldStep := some 5 }, host := { HostS.idle with beatSinceLost := true } }

theorem witness_HoldAndResume : onLost.takes ringCmd ∧ onLost.jst = JobSt.held ∧ onLost.flag Reg.hstStatus F.hstStatusHostLost = true
    ∧ onLost.hal.heldDev.toNat = onLost.ownDev ∧ onLost.host.beatSinceLost = true ∧ (onHostJob 5).host.beatSinceLost = false
    ∧ (onHostJob 4).jst = JobSt.running ∧ (onHostJob 4).takes ringCmd ∧ (onHost 1).jst ≠ JobSt.running ∧ (onHost 1).takes ringCmd
    ∧ (List.replicate 56 (1 : Byte)).length ≤ 56 ∧ 56 < (List.replicate 57 (1 : Byte)).length := by decide +kernel

theorem witness_JobClears :
    let c := (bootedTo 8 onJob).setFlag (Reg.holdStatus 0) F.holdStatusClearing true
    let r := (onHostJob 8).setCtl 2 { HoldC.idle with retire := [5, 6] }
    c.jst = JobSt.clearing ∧ c.flag (Reg.holdStatus 0) F.holdStatusClearing = true ∧ (onHost 1).jst ≠ JobSt.clearing
    ∧ r.jst = JobSt.clearing ∧ r.flag (Reg.holdStatus 0) F.holdStatusClearing = false ∧ (r.ctl 2).retire = [5, 6] ∧ (dev0.ctl 2).retire = [] := by decide +kernel

/-- A token that is not the recorded one; a START that waits for the mirror's image. -/
theorem witness_ProofMovement :
    let s := { onHostJob 4 with host := { HostS.idle with stStart := some (entry ringCmd 0x11) } }
    (onHost 4).takes ringCmd ∧ (onHost 4).jst ≠ JobSt.idle ∧ (onHost 1).takes ringCmd ∧ (onHost 1).jst = JobSt.idle
    ∧ (onHost 1).bos.retained.any (fun r => r.digest == Config.sha512 (toBytes 32 9)) = false
    ∧ (onHost 1).host.stStart = none ∧ s.host.stStart = some (entry ringCmd 0x11) ∧ s.jst = JobSt.running
    ∧ s.mirrorFits (hostCmd ringCmd 0x11 (toBytes 4 5)) [] [] = false := by decide +kernel

/-- The recorded token, whatever its digest. -/
theorem witness_ProofMovement_token :
    let d := { onHost 1 with bos := { dev0.bos with retained := some ⟨Config.sha512 (toBytes 32 9), []⟩ } }
    d.bos.retained.any (fun r => r.digest == Config.sha512 (toBytes 32 9)) = true := by simp

theorem witness_FirmwareCommands :
    let d := onHost 1
    let v := { d with bos := { d.bos with fwB := fwFactory } }
    let r := { dev0 with bos := { dev0.bos with recovery := true, fwA := fwNone } }
    d.takes ringCmd ∧ d.jst ≠ JobSt.boot ∧ d.jst = JobSt.idle ∧ (1#32).toNat % 4096 ≠ 0 ∧ 2 ^ 20 < (0x100001#32).toNat
    ∧ (0x1000#32).toNat % 4096 = 0 ∧ (64#32).toNat ≤ 2 ^ 20 ∧ (0x1000#32).toNat + (64#32).toNat ≤ slotBytes
    ∧ (d.bufRead 0x2000 64).2 = some (List.replicate 64 0) ∧ (v.verifyB ⟨true, true⟩).bValid = true ∧ (v.verifyB ⟨true, false⟩).bValid = false
    ∧ (onHost 4).takes ringCmd ∧ (onHost 4).jst = JobSt.running ∧ d.bos.recovery = false ∧ r.bos.recovery = true
    ∧ fwValid r.bos.fwA r.bos.man.minSvn = false ∧ fwValid fwFactory r.bos.man.minSvn = true ∧ (bootIn true).manifestOk = true
    ∧ r.bos.man.stepping.toNat = r.fld Reg.devIdent F.devIdentStepping
    ∧ (d.bufWrite 0x2000 (List.replicate 64 7)).2 = true ∧ (bootIn true).steppingOk = true ∧ (bootIn true).railsOk = true ∧ (bootIn true).boundsOk = true := by decide +kernel

/-- An owner and none, with a nonce and without; an authorisation that verifies, and one that does not. -/
theorem witness_OwnerAndDebug :
    let d := onNonce
    let b := (d.bufRead 0x1000 576).2.getD []
    d.takes ringCmd ∧ d.jst = JobSt.idle ∧ (onHost 4).jst ≠ JobSt.idle ∧ (onHost 4).takes ringCmd ∧ d.bos.man.owner = none ∧ d.bos.nonce.isSome = true
    ∧ ((d.bufRead 0x1000 requestBytes).2).isSome = true ∧ ((d.bufRead 0x1000 576).2).isSome = true ∧ (d.bufRead 0x1000 576).1.authOk b true = true
    ∧ (d.bufRead 0x1000 576).1.authOk b false = false ∧ (d.bufRead 0x1000 576).1.jst = JobSt.idle ∧ d.flag Reg.bosSec F.bosSecDebug = false
    ∧ d.pwr.stopped = false ∧ (d.setFlag Reg.bosSec F.bosSecDebug true).flag Reg.bosSec F.bosSecDebug = true ∧ (onHost 9).jst = JobSt.debug
    ∧ (onHost 9).takes ringCmd := by decide +kernel

theorem witness_AttestationAndReads : (onHost 1).flag Reg.bosBootStatus F.bosBootStatusBosunReady = true
    ∧ dev0.flag Reg.bosBootStatus F.bosBootStatusBosunReady = false ∧ (onHost 1).takes ringCmd ∧ (onHost 1).jst ≠ JobSt.boot
    ∧ ((onHost 1).bufRead 0x1000 16).2 = some (List.replicate 16 0) ∧ 65536 < (0x10001#32).toNat ∧ (0x10000#32).toNat ≤ 65536
    ∧ ((onHost 1).bufWrite 0x1000 []).2 = true ∧ ((onHost 1).bufWrite 0x1000 (List.replicate 600 0)).2 = true
    ∧ ((onHost 1).bufWrite 0x8000000000 [1]).2 = false
    ∧ (onHost 1).bos.log = [] ∧ (onHost 1).bos.pinned = [] ∧ { dev0 with bos := { dev0.bos with halted := true } }.bos.halted = true
    ∧ dev0.bos.halted = false ∧ (onHost 7).jst = JobSt.failed := by decide +kernel

/-- A test that runs, waits with one place left, and is refused; none under way; a round, deferred; a slot under test; a sample of ages. -/
theorem witness_SelfTests :
    let q := fun n j => { onHost j with bos := { dev0.bos with btq := List.replicate n (3, 3) } }
    let c := { onHost 1 with bos := { dev0.bos with btCur := some (2, 5, none), spare := [88], tb := true } }
    (onHost 8).takes ringCmd ∧ (onHost 8).jst = JobSt.clearing ∧ (onHost 0).jst = JobSt.boot ∧ (onHost 1).takes ringCmd ∧ (onHost 1).jst = JobSt.idle
    ∧ testExists 3 4 = false ∧ testExists 3 3 = true ∧ testExists 3 255 = true ∧ (onHost 1).bos.btCur = none
    ∧ (q 7 4).takes ringCmd ∧ (q 7 4).jst = JobSt.running ∧ (q 7 4).bos.btq.length < 8 ∧ 8 ≤ (q 8 4).bos.btq.length ∧ c.bos.btCur = some (2, 5, none)
    ∧ (onHost 1).bos.spare = [] ∧ (onHost 1).testDeferred = false ∧ ((onHost 1).setFld Reg.pwrStatus F.pwrStatusReef 2).testDeferred = true
    ∧ c.bos.spare.find? (fun x => x / 24 == (3 : Yard).val) = some 88 ∧ (onHost 1).bos.spare.find? (fun x => x / 24 == (3 : Yard).val) = none ∧ (List.replicate 75 (0 : BitVec 8)).length = 75 ∧ c.bos.tb = true
    ∧ c.pwr.stopped = false ∧ c.jobLoaded = false := by decide +kernel

theorem witness_SelfTests_running :
    let k := { onHostJob 4 with bos := { dev0.bos with btCur := some (3, 5, none) } }
    k.bos.btCur = some (3, 5, none) ∧ k.jobLoaded = true := by decide +kernel

/-! ## Boot, power, clock, temperature, test access; rules stated whole -/

theorem witness_BootAndReset :
    let n := { dev0 with bos := { dev0.bos with fwA := fwNone } }
    dev0.mayBoot = true ∧ ((bootIn true).manifestOk = true ∧ (bootIn true).steppingOk = true ∧ (bootIn true).railsOk = true ∧ (bootIn true).boundsOk = true)
    ∧ dev0.bos.man.stepping.toNat = dev0.fld Reg.devIdent F.devIdentStepping ∧ (0xA0 : Byte).toNat ≠ dev0.fld Reg.devIdent F.devIdentStepping
    ∧ fwValid dev0.bos.fwA dev0.bos.man.minSvn = true ∧ n.mayBoot = true ∧ fwValid n.bos.fwA n.bos.man.minSvn = false
    ∧ fwValid n.bos.fwB n.bos.man.minSvn = false ∧ (bootIn false).manifestOk = false ∧ (onRails dev0).mayBoot = false ∧ dev0.pins.vaux = true
    ∧ { dev0 with pins := ⟨false, false, false, false⟩ }.pins.vaux = false := by decide +kernel

/-- A trip with and without a repair under way, its recovery; 115 °C and the degree below. -/
theorem witness_BrownoutsAndTrips :
    let d := onRails (onHostJob 4)
    let o := { d with pwr := { Power.idle with brownout := true } }
    (d.pins.vaux = true ∧ d.bos.romDigest = true ∧ d.pwr.brownout = false ∧ d.pwr.thermtrip = false) ∧ dev0.bos.romDigest = false
    ∧ (d.setFlag (Reg.holdStatus 1) F.holdStatusRepairing true).refreshAtRisk = true ∧ dev0.pins.rstN = false ∧ d.pins.rstN = true
    ∧ o.pwr.brownout = true ∧ o.pins.rstN = true ∧ o.bos.man.stepping = 0xB0#8 ∧ fwValid o.bos.fwA o.bos.man.minSvn = true ∧ (bootIn true).manifestOk = true
    ∧ (bootIn true).steppingOk = true ∧ (bootIn true).railsOk = true ∧ (bootIn true).boundsOk = true
    ∧ 115 ≤ (115 : BitVec 8).toInt ∧ (114 : BitVec 8).toInt < 115 := by decide +kernel

def onPower (p : Power) : Dev := { onHostJob 4 with pwr := p, bos := { dev0.bos with tb := true } }

/-- The warning and the recovery levels and the millivolt below each. -/
theorem witness_SupplyDips :
    let h := (onPower { Power.idle with supply := true }).setFlag Reg.pwrStatus F.pwrStatusHold true
    (1709 : BitVec 12).toNat < mvWarning ∧ mvWarning ≤ (1710 : BitVec 12).toNat ∧ (1739 : BitVec 12).toNat < mvRecovery ∧ mvRecovery ≤ (1740 : BitVec 12).toNat
    ∧ (onPower { Power.idle with warn := true }).pwr.warn = true ∧ (onPower { Power.idle with warn := true }).pwr.dip = false
    ∧ (onPower { Power.idle with warn := true }).pwr.brownout = false ∧ Power.idle.warn = false
    ∧ (onPower { Power.idle with warn := true, dip := true }).pwr.dip = true ∧ h.flag Reg.pwrStatus F.pwrStatusHold = true ∧ h.pwr.dip = false
    ∧ h.pwr.lvl = 0 ∧ h.pwr.therm = 0 ∧ hasDroop 0 = true ∧ hasDroop 73 = true ∧ hasDroop 64 = false ∧ hasDroop 75 = false := by decide +kernel

theorem witness_ClockAndTimebase :
    let l := onPower { Power.idle with refLost := true }
    let t := onPower Power.idle
    let n := { onHost 1 with bos := { dev0.bos with tb := true } }
    (onHostJob 4).pwr.refLost = false ∧ (onHostJob 4).jst = JobSt.running ∧ l.pwr.refLost = true ∧ l.pwr.stopped = false ∧ t.bos.tb = true
    ∧ t.pwr.stopped = false ∧ t.alignArmed = false ∧ (n.setFlag Reg.clkTbCfg F.clkTbCfgAlign true).alignArmed = true ∧ n.bos.tb = true ∧ n.pwr.stopped = false ∧ (onHost 1).bos.tb = false
    ∧ (1#32).getLsbD 0 = true ∧ (onHost 1).jobLoaded = false ∧ t.jobLoaded = true := by decide +kernel

/-- Windows above, at and well below the limits. -/
theorem witness_PowerLoop :
    let d := fun n => onPower { Power.idle with samples := [n], lvl := 1, quiet := 9 }
    let high := fun (d : Dev) => d.fld Reg.pwrLimit F.pwrLimitPeakW * (d.pwr.samples.take 1000).length < sumOf (d.pwr.samples.take 1000)
      ∨ d.fld Reg.pwrLimit F.pwrLimitSustainedW * d.pwr.samples.length < sumOf d.pwr.samples
    let sus := fun d : Dev => d.fld Reg.pwrLimit F.pwrLimitSustainedW
    (d 1023).pwr.samples ≠ [] ∧ high (d 1023) ∧ ¬ high (d 100) ∧ ¬ high (d (sus dev0)) ∧ sumOf [100] + 40 ≤ sus (d 100)
    ∧ ¬ sumOf [sus dev0] + 40 ≤ sus (d (sus dev0)) ∧ (d 100).pwr.quiet = 9 ∧ 0 < (d 100).pwr.lvl
    ∧ (onPower { Power.idle with samples := [100], quiet := 8 }).pwr.quiet < 9 ∧ (onPower Power.idle).pwr.samples = [] ∧ (d 100).bos.tb = true
    ∧ (d 100).pwr.stopped = false ∧ (onHost 1).bos.tb = false := by decide +kernel

theorem witness_Temperatures :
    let p := onPower { Power.idle with therm := 2, thermPeakNow := 85 }
    (List.replicate 96 (105 : BitVec 8)).length = 96 ∧ (List.replicate 95 (105 : BitVec 8)).length ≠ 96
    ∧ dev0.thermAt 1 ≤ (hottest ((List.replicate 96 (105 : BitVec 8)).map (fun b => b.toInt))).2
    ∧ 105 ≤ (hottest ((List.replicate 96 (105 : BitVec 8)).map (fun b => b.toInt))).2
    ∧ (hottest ((List.replicate 96 (20 : BitVec 8)).map (fun b => b.toInt))).2 < dev0.thermAt 1
    ∧ Power.idle.thermPeakNow ≤ dev0.thermAt 1 - 3 ∧ p.pwr.therm ≤ 3
    ∧ { p with pwr := { p.pwr with thermPeakNow := p.thermAt 2 } }.thermAt 2 - 3 < p.thermAt 2 := by decide +kernel

theorem witness_TestAccess : (dev0.pins.vaux = true ∧ dev0.pins.vinCore = true) ∧ ¬ ({ dev0 with pins := ⟨false, false, true, false⟩ }.pins.vinCore = true) := by
  decide +kernel

/-- The lanes and places at the ends of the ranges, and both corners of the square of VIN_CORE. -/
theorem witness_BallMap : (0 < 4 ∧ 8 < 9) ∧ (2 < 5 ∧ 3 < (if 2 = 2 then 4 else 9)) ∧ (4 < 5 ∧ 8 < (if 4 = 2 then 4 else 9)) ∧ (20 ≤ 20 ∧ 75 ≤ 75) := by
  decide

/-- The worked examples of R479: P5_TX3_P is ball 34.93, P5_RX3_P 34.90, HP_TX2_N 02.44. -/
theorem test_lane_balls : ballNet 34 93 = .lane (some 5) 3 true true ∧ ballNet 34 90 = .lane (some 5) 3 false true
    ∧ ballNet 2 44 = .lane none 2 true false := by decide +kernel

theorem witness_FlagContributions :
    let d := onAsked 0
    (∀ p ∈ d.membersOf d.relBar (d.tiles.map (·.1)), (d.tile p).arrived.getLsbD d.relBar = true) ∧ d.inService 23 = true ∧ (d.tile 23).image.loaded = true
    ∧ d.multi = false ∧ d.barScope d.relBar = 3 ∧ d.runningJob = true ∧ d.hal.aborting = false ∧ d.press.prep = false ∧ d.host.stStart = none
    ∧ d.hal.hrel = some 0 ∧ d.hal.first = true ∧ d.stepAllowed 0 = true ∧ (onJob.tile 23).arrived.getLsbD 1 = false
    ∧ onJob.arrivalReady 23 1 = true := by decide +kernel

/-- An open queue, a closed one, one with all 64 places taken, and takers that find a record and none. -/
theorem witness_QueueStates :
    let d := onCtPosting
    let c := d.setFlag (Reg.yardSqState 0) F.yardSqStateClosed true
    let f := d.modYard 0 (fun y => { y with recs := List.replicate 64 (record 0x7FF 0) })
    d.on issCt ∧ Ready d issCt 0x12 false [] [] ∧ Ready d issCt 0x12 false [4] [] ∧ d.sqClosed 0 = false ∧ c.sqClosed 0 = true ∧ f.sqClosed 0 = false
    ∧ 64 ≤ (f.yard 0).recs.length ∧ (d.yard 0).recs.length < 64 ∧ d.readStore 23 0x200 256 1 = (d, true)
    ∧ Ready onMtTaking issMt 0x11 false [6] [] ∧ onMtTaking.heldCount 0 < 2 ∧ onMtTaking.findTask 0 (onMtTaking.logical 0) = some (0, record 0x7FF 0)
    ∧ onMtTaking.freeChan 0 = some 0
    ∧ (onMtTaking.tile 0).image.codeEnd ≤ onMtTaking.fld (Reg.tileSqLand 0) F.tileSqLandAddr + 64 * b2n (onMtTaking.freeArea 0)
    ∧ onMt.findTask 0 (onMt.logical 0) = none ∧ onMt.allClosed 0 = true :=
  ⟨by decide +kernel, ready_of (by decide +kernel), ready_of (by decide +kernel), by decide +kernel, by decide +kernel, by decide +kernel, by decide +kernel,
    by decide +kernel, by decide +kernel, ready_of (by decide +kernel), by decide +kernel⟩

theorem witness_WaveOpening : ∀ m ∈ [Master.host, .bosun, .tile 22 0, .tile 47 1, .remote 3], ∀ c, m ≠ .tile 23 c := by decide +kernel

theorem witness_UncorrectableCodewords : (onPort LinkP.idle).carrying 3 = true ∧ badFlit.length = 256
    ∧ natAt badFlit 252 4 ≠ (crc32 (badFlit.take 252)).toNat := ⟨by decide +kernel, witness_FlitsReceived_crc.2⟩

/-- The peer that R368 expects at port 3 of position 0 (3 xor … is 4), and another. -/
theorem witness_WiringMismatch :
    let d := onDown.settleStrikes 3
    onDown.lnkState 3 ≠ 2 ∧ onDown.lnkState 3 ≠ 4 ∧ onDown.mayTrain 3 = true ∧ trained.signal = true ∧ trained.eqFailed = 0 ∧ trained.berFailed = 0
    ∧ d.manifestLanes 3 = 0 ∧ trained.skewOk = true ∧ trained.reply = true ∧ (d.meetPeer 3 trained).fecMode 3 trained = some 1
    ∧ (d.meetPeer 3 trained).linkLevel 3 trained = some 1
    ∧ trained.peerPos.toNat ≠ Nat.xor (d.fld Reg.devBoard F.devBoardBoardPos) 4
    ∧ ({ trained with peerPos := 4 } : Training).peerPos.toNat = Nat.xor (d.fld Reg.devBoard F.devBoardBoardPos) 4 := by decide +kernel

theorem witness_Resumption : onLost.takes ringCmd ∧ onLost.jst = JobSt.held ∧ onLost.pwr.stopped = false
    ∧ onLost.flag Reg.hstStatus F.hstStatusHostLost = true ∧ onLost.hal.heldDev.toNat = onLost.ownDev ∧ onLost.host.beatSinceLost = true
    ∧ (onLost.setReg Reg.halJobBoard 3).multi = true ∧ (onHostJob 5).takes ringCmd ∧ (onHostJob 5).host.beatSinceLost = false := by decide +kernel

/-! ## Ill-formed commands -/

/-- A second core of an MT, and of a VT. -/
theorem test_wf_core : (Instr.add ⟨0, 1, 0, false⟩ 1 2 3).wf = false ∧ (Instr.vmov ⟨17, 3, 0, false⟩ 1 2 0).wf = false
    ∧ (Instr.issueResume 0 2).wf = false ∧ (Instr.add ⟨23, 3, 0, false⟩ 1 2 3).wf = true := by decide
/-- A master that is no core. -/
theorem test_wf_master : (Instr.doorbell (.tile 0 1) 0).wf = false ∧ (Instr.doorbell (.tile 47 1) 0).wf = true := by decide
/-- An offset past the end of control space. -/
theorem test_wf_offset : (Instr.registerWrite .bosun 0x2000000 0).wf = false ∧ (Instr.pairLoRead .host 0x2000000).wf = false
    ∧ (Instr.registerWrite .bosun 0x1FFFFFC 0).wf = true := by decide
/-- A flit of 255 bytes. -/
theorem test_wf_flit : (Instr.flitReceive 0 (List.replicate 255 0) true none).wf = false := by decide +kernel
/-- A case write longer than a beat. -/
theorem test_wf_beat : (Instr.caseSliceBeat 0 0 [⟨0, 0, some (List.replicate 65 0)⟩]).wf = false := by decide +kernel
/-- A mirror head that is no burst. -/
theorem test_wf_head : (Instr.mirrorHeadOpening []).wf = false ∧ (Instr.mirrorHeadComplete (List.replicate 65 0)).wf = false
    ∧ (Instr.mirrorHeadSpoiled [3]).wf = false := by decide +kernel
/-- A message longer than its entry. -/
theorem test_wf_message : (Instr.hostmsg ⟨.ring, 0, false, 0⟩ (List.replicate 57 0)).wf = false := by decide +kernel

end Sys2Proof.Tests
end

namespace Sys2Proof.Machine

/-! # The idle step and the state at reset -/

/-! ## 64-bit counts -/

theorem Dev.reg64_setReg64 (d : Dev) {lo hi : Nat} (v : Nat) (h : lo ≠ hi) : (d.setReg64 lo hi v).reg64 lo hi = v % 2 ^ 64 := by
  unfold Dev.reg64 Dev.setReg64
  rw [Dev.reg_setReg_same, Dev.reg_setReg_other _ _ h, Dev.reg_setReg_same]
  omega

theorem Dev.reg64_canon (d : Dev) (lo hi : Nat) : d.canon.reg64 lo hi = d.reg64 lo hi := by
  unfold Dev.reg64; rw [Dev.reg_canon, Dev.reg_canon]

/-! ## One step on an empty queue -/

/-- All that the idle step can do: count the timebase, or nothing. -/
theorem Dev.tick_cases (d : Dev) :
    (d.bos.tb = true ∧ d.pwr.stopped = false ∧ d.tick = d.inc64 Reg.clkTbLo Reg.clkTbHi 1)
      ∨ (¬ (d.bos.tb = true ∧ d.pwr.stopped = false) ∧ d.tick = d) := by
  unfold Dev.tick
  cases d.bos.tb <;> cases d.pwr.stopped <;> simp

theorem Dev.timebase_tick (d : Dev) (htb : d.bos.tb = true) (hrun : d.pwr.stopped = false) :
    d.tick.reg64 Reg.clkTbLo Reg.clkTbHi = (d.reg64 Reg.clkTbLo Reg.clkTbHi + 1) % 2 ^ 64 := by
  obtain ⟨-, -, e⟩ | ⟨hn, -⟩ := d.tick_cases
  · rw [e]; exact Dev.reg64_setReg64 d _ (by decide)
  · exact absurd ⟨htb, hrun⟩ hn

theorem idleStep : Parts.IdleStep := by
  intro d
  refine ⟨d.tick.canon, rfl, ?_⟩
  simp only [Dev.byte_canon, Dev.canon_tiles, Dev.canon_yards, Dev.canon_links, Dev.canon_job, Dev.canon_press, Dev.canon_hal,
    Dev.canon_host, Dev.canon_out, Dev.reg64_canon]
  have count := d.timebase_tick
  obtain ⟨-, -, e⟩ | ⟨-, e⟩ := d.tick_cases <;> (rw [e] at count ⊢; simpa using count)

theorem resetCanonical : Parts.ResetCanonical := ⟨⟨rfl, rfl⟩, rfl, rfl, rfl, rfl⟩

/-- Settles O2: the idle step is at most one count of the timebase; the state at reset lists no memory and no register. -/
theorem resetAndIdle : Obligations.ResetAndIdle := ⟨idleStep, resetCanonical⟩

/-! # Control space (R6 to R9, R27, R28, R132) -/

/-! ## Bits of a word -/

theorem bitsAt_mod (v : Nat) {lsb w k : Nat} (h : lsb + w ≤ k) : bitsAt (v % 2 ^ k) lsb w = bitsAt v lsb w := by
  unfold bitsAt
  obtain ⟨j, rfl⟩ := Nat.exists_eq_add_of_le h
  rw [← Nat.mod_mul_right_div_self, ← Nat.mod_mul_right_div_self (m := v), ← Nat.pow_add, Nat.pow_add 2 (lsb + w) j,
    Nat.mod_mul_right_mod]

theorem bitsAt_one (v lsb : Nat) : bitsAt v lsb 1 = b2n (v.testBit lsb) := by
  unfold bitsAt b2n
  rw [Nat.pow_one, ← Nat.toNat_testBit]
  cases v.testBit lsb <;> rfl

theorem b2n_eq_one (b : Bool) : (b2n b == 1) = b := by cases b <;> rfl

/-- Putting a field's own value changes nothing. -/
theorem putBits_own (v lsb w : Nat) : putBits v lsb w (bitsAt v lsb w) = v := by
  have hle : bitsAt v lsb w * 2 ^ lsb ≤ v := by
    unfold bitsAt
    exact Nat.le_trans (Nat.mul_le_mul_right _ (Nat.mod_le _ _)) (Nat.div_mul_le_self _ _)
  unfold putBits
  rw [Nat.mod_eq_of_lt (bitsAt_lt v lsb w)]
  omega

/-- A field as wide as the word replaces the word. -/
theorem putBits_word {v : Nat} (hv : v < 2 ^ 32) (x : Nat) : putBits v 0 32 x = x % 2 ^ 32 := by
  rw [putBits_decomp]
  omega

theorem w32_word (v : Nat) : w32 (Nat.land v (2 ^ 32 - 1)) = w32 v := by
  apply BitVec.eq_of_toNat_eq
  rw [show Nat.land v (2 ^ 32 - 1) = v % 2 ^ 32 from Nat.and_two_pow_sub_one_eq_mod v 32]
  simp [w32]

theorem lor_low_lt {x n : Nat} (hx : x < 2 ^ 32) : Nat.lor x (n % 2 ^ 16) < 2 ^ 32 :=
  Nat.or_lt_two_pow hx (Nat.lt_trans (Nat.mod_lt n (Nat.two_pow_pos 16)) (by decide))

/-- The two-bit fields of a number, put together again, are its low bits. -/
theorem ofBits2_fields (n v : Nat) : ofBits2 ((List.range n).map (fun b => bitsAt v (2 * b) 2)) = v % 4 ^ n := by
  induction n generalizing v with
  | zero => rw [Nat.pow_zero, Nat.mod_one]; rfl
  | succ n ih =>
    have shift : ∀ b, bitsAt v (2 * (b + 1)) 2 = bitsAt (v / 4) (2 * b) 2 := fun b => by
      unfold bitsAt
      rw [Nat.div_div_eq_div_mul, show 2 * (b + 1) = 2 + 2 * b by omega, Nat.pow_add]
    calc ofBits2 ((List.range (n + 1)).map (fun b => bitsAt v (2 * b) 2))
        = bitsAt v 0 2 % 4 + 4 * ofBits2 ((List.range n).map (fun b => bitsAt (v / 4) (2 * b) 2)) := by
          simp only [List.range_succ_eq_map, List.map_cons, List.map_map, Function.comp_def, Nat.succ_eq_add_one, shift]; rfl
      _ = v % 4 + 4 * (v / 4 % 4 ^ n) := by rw [ih]; simp [bitsAt]
      _ = v % 4 ^ (n + 1) := by rw [Nat.pow_succ', Nat.mod_mul]

/-! ## Registers -/

theorem Dev.fld_setReg_same (d : Dev) (off v : Nat) (f : Fld) (hf : f.lsb + f.width ≤ 32) :
    (d.setReg off v).fld off f = bitsAt v f.lsb f.width := by
  unfold Dev.fld
  rw [Dev.reg_setReg_same, bitsAt_mod v hf]

theorem Dev.fld_setFld_apart (d : Dev) (off : Nat) {f g : Fld} (x : Nat) (hg : g.lsb + g.width ≤ 32)
    (h : f.lsb + f.width ≤ g.lsb ∨ g.lsb + g.width ≤ f.lsb) : (d.setFld off f x).fld off g = d.fld off g := by
  unfold Dev.setFld
  rw [Dev.fld_setReg_same _ _ _ _ hg]
  obtain h | h := h
  · exact bitsAt_putBits_above _ _ _ _ h
  · exact bitsAt_putBits_below _ _ _ _ h

theorem Dev.flag_eq_testBit (d : Dev) (off k : Nat) : d.flag off ⟨k, 1⟩ = (d.reg off).testBit k := by
  unfold Dev.flag Dev.fld
  rw [bitsAt_one]
  cases (d.reg off).testBit k <;> rfl

/-- A register given the word of a register holds it. -/
theorem Dev.reg_setReg_reg (d e : Dev) (off i : Nat) : (d.setReg off (e.reg i)).reg off = e.reg i := by
  rw [Dev.reg_setReg_same, Nat.mod_eq_of_lt (e.reg_lt i)]

/-- A word written to a register reads back. -/
theorem Dev.reg_setReg_word (d : Dev) (off : Nat) (v : Word) : (d.setReg off v.toNat).reg off = v.toNat := by
  rw [Dev.reg_setReg_same, Nat.mod_eq_of_lt v.isLt]

@[simp] theorem Dev.fld_send (d : Dev) (x : Msg) (off : Nat) (f : Fld) : (d.send x).fld off f = d.fld off f := by
  unfold Dev.fld; rw [Dev.reg_send]

@[simp] theorem Dev.flag_send (d : Dev) (x : Msg) (off : Nat) (f : Fld) : (d.send x).flag off f = d.flag off f := by
  unfold Dev.flag; rw [Dev.fld_send]

theorem Dev.send_out (d : Dev) (x : Msg) : (d.send x).out = d.out ++ [x] := rfl

/-! ## The logbook: an entry takes a number, and no register but its own changes

Goals about a logbook event are rewritten step by step (`rw`): left to unfold `logEv`, the kernel counts down the ring's 65280. -/

section Logbook
variable (d : Dev) (cls block inst kind : Nat) (data : List Word) (first : Bool)

theorem Dev.reg_setReg64_other {lo hi i : Nat} (v : Nat) (hlo : i ≠ lo) (hhi : i ≠ hi) : (d.setReg64 lo hi v).reg i = d.reg i := by
  unfold Dev.setReg64
  rw [Dev.reg_setReg_other _ _ hhi, Dev.reg_setReg_other _ _ hlo]

theorem Dev.reg_showLog {i : Nat} (hi : i < Reg.bosLogNewestLo ∨ Reg.bosLogOldestHi < i) : d.showLog.reg i = d.reg i := by
  have apart : i ≠ Reg.bosLogNewestLo ∧ i ≠ Reg.bosLogNewestHi ∧ i ≠ Reg.bosLogOldestLo ∧ i ≠ Reg.bosLogOldestHi := by
    unfold Reg.bosLogNewestLo Reg.bosLogNewestHi Reg.bosLogOldestLo Reg.bosLogOldestHi blockBase at *
    omega
  obtain ⟨h1, h2, h3, h4⟩ := apart
  unfold Dev.showLog
  rw [Dev.reg_setReg64_other _ _ h3 h4, Dev.reg_setReg64_other _ _ h1 h2]

@[simp] theorem Dev.showLog_out : d.showLog.out = d.out := by unfold Dev.showLog; rw [Dev.setReg64_out, Dev.setReg64_out]
@[simp] theorem Dev.showLog_job : d.showLog.job = d.job := by unfold Dev.showLog; rw [Dev.setReg64_job, Dev.setReg64_job]
@[simp] theorem Dev.showLog_mem : d.showLog.mem = d.mem := by unfold Dev.showLog; rw [Dev.setReg64_mem, Dev.setReg64_mem]
@[simp] theorem Dev.showLog_bos : d.showLog.bos = d.bos := by unfold Dev.showLog; rw [Dev.setReg64_bos, Dev.setReg64_bos]

/-- All that a logbook event can do: a corrected event may fall into an entry that stands already; any other becomes an entry with
the next number, shown in the logbook's registers (R438, R439). -/
theorem Dev.logEv_cases : (cls = 1 ∧ ∃ b : Bosun, d.logEv cls block inst kind data first = { d with bos := b })
    ∨ ∃ b : Bosun, b.seq = d.bos.seq + 1 ∧ d.logEv cls block inst kind data first = { d with bos := b }.showLog := by
  unfold Dev.logEv
  split
  · next h => exact .inl ⟨h.1, _, rfl⟩
  · exact .inr ⟨_, rfl, rfl⟩

theorem Dev.reg_logEv {i : Nat} (hi : i < Reg.bosLogNewestLo ∨ Reg.bosLogOldestHi < i) :
    (d.logEv cls block inst kind data first).reg i = d.reg i := by
  obtain ⟨-, b, e⟩ | ⟨b, -, e⟩ := d.logEv_cases cls block inst kind data first <;> rw [e]
  · rfl
  · exact Dev.reg_showLog _ hi

@[simp] theorem Dev.logEv_out : (d.logEv cls block inst kind data first).out = d.out := by
  obtain ⟨-, b, e⟩ | ⟨b, -, e⟩ := d.logEv_cases cls block inst kind data first <;> simp [e]

@[simp] theorem Dev.started_logEv : (d.logEv cls block inst kind data first).started = d.started := by
  obtain ⟨-, b, e⟩ | ⟨b, -, e⟩ := d.logEv_cases cls block inst kind data first <;> simp [e, Dev.started]

@[simp] theorem Dev.byte_logEv (a : Nat) : (d.logEv cls block inst kind data first).byte a = d.byte a := by
  obtain ⟨-, b, e⟩ | ⟨b, -, e⟩ := d.logEv_cases cls block inst kind data first <;> simp [e, Dev.byte]

theorem Dev.logEv_seq (h : cls ≠ 1) : (d.logEv cls block inst kind data first).bos.seq = d.bos.seq + 1 := by
  obtain ⟨h1, -⟩ | ⟨b, hb, e⟩ := d.logEv_cases cls block inst kind data first
  · exact absurd h1 h
  · rw [e, Dev.showLog_bos, hb]

end Logbook

/-! ## Where the registers stand (R28) -/

theorem blockBase_yard (y : Nat) : blockBase .yard y = 0x1000000 + y * 0x40000 + 0x30000 := rfl
theorem blockBase_tile (p : Nat) : blockBase .tile p = 0x1000000 + p / 24 * 0x40000 + p % 24 * 0x2000 := rfl
theorem bosLogOldestHi_eq : Reg.bosLogOldestHi = 0x10014c := rfl

/-- Every register of a yard stands at a word of control space, above the logbook's registers. -/
theorem yardReg_bounds (y : Yard) {o : Nat} (ho : o < 0x10000) (h4 : o % 4 = 0) :
    (blockBase .yard y + o) % 4 = 0 ∧ blockBase .yard y + o < 0x2000000 ∧ Reg.bosLogOldestHi < blockBase .yard y + o := by
  have := y.isLt
  rw [blockBase_yard, bosLogOldestHi_eq]
  omega

/-- Every register of a tile stands at a word of control space, above the logbook's registers. -/
theorem tileReg_bounds (p : Slot) {o : Nat} (ho : o < 0x2000) (h4 : o % 4 = 0) :
    (blockBase .tile p + o) % 4 = 0 ∧ blockBase .tile p + o < 0x2000000 ∧ Reg.bosLogOldestHi < blockBase .tile p + o := by
  have := p.isLt
  rw [blockBase_tile, bosLogOldestHi_eq]
  omega

theorem windowOf_tile {p o : Nat} (hp : p < 1536) (ho : o < 0x2000) : windowOf (blockBase .tile p + o) = some (.tile, p, o) := by
  rw [blockBase_tile]
  unfold windowOf
  rw [if_neg (by omega), if_neg (by omega), if_neg (by omega), if_neg (by omega), if_neg (by omega), if_neg (by omega),
    if_neg (by omega), if_pos (by omega)]
  have hin : (0x1000000 + p / 24 * 0x40000 + p % 24 * 0x2000 + o) % 0x40000 = p % 24 * 0x2000 + o := by omega
  have hyard : (0x1000000 + p / 24 * 0x40000 + p % 24 * 0x2000 + o - 0x1000000) / 0x40000 = p / 24 := by omega
  simp only [hin, hyard]
  have hslot : 24 * (p / 24) + (p % 24 * 0x2000 + o) / 0x2000 = p := by omega
  have hoff : (p % 24 * 0x2000 + o) % 0x2000 = o := by omega
  rw [if_pos (by omega), hslot, hoff]

theorem windowOf_yard {y o : Nat} (hy : y < 64) (ho : o < 0x10000) : windowOf (blockBase .yard y + o) = some (.yard, y, o) := by
  rw [blockBase_yard]
  unfold windowOf
  rw [if_neg (by omega), if_neg (by omega), if_neg (by omega), if_neg (by omega), if_neg (by omega), if_neg (by omega),
    if_neg (by omega), if_pos (by omega)]
  have hin : (0x1000000 + y * 0x40000 + 0x30000 + o) % 0x40000 = 0x30000 + o := by omega
  have hyard : (0x1000000 + y * 0x40000 + 0x30000 + o - 0x1000000) / 0x40000 = y := by omega
  simp only [hin, hyard]
  rw [if_neg (by omega), Nat.add_sub_cancel_left]

/-- A register is found in its window by its row. -/
theorem regAt_of_row {off inst o : Nat} {b : Block} {d : RegDef} (hw : windowOf off = some (b, inst, o))
    (hd : (blockRegs b).find? (fun d => regCovers d o && inScope d.scope inst) = some d) :
    regAt off = some ⟨d, inst, (o - d.off) / d.stride⟩ := by
  unfold regAt
  simp only [hw, hd]

theorem regAt_hstIrqData : regAt Reg.hstIrqData = some ⟨⟨.hstIrqData, .hst, 0x58, 1, 4, .all, [⟨0, 32, .rw, 0⟩]⟩, 0, 0⟩ := rfl
theorem regAt_halDec : regAt Reg.halDec = some ⟨⟨.halDec, .hal, 0x8, 1, 4, .all, [⟨0, 2, .ro, 0⟩]⟩, 0, 0⟩ := rfl
theorem regAt_clkTbLoadLo : regAt Reg.clkTbLoadLo = some ⟨⟨.clkTbLoadLo, .pwr, 0x138, 1, 4, .all, [⟨0, 32, .rw, 0⟩]⟩, 0, 0⟩ := rfl
theorem regAt_clkTbLoadHi : regAt Reg.clkTbLoadHi = some ⟨⟨.clkTbLoadHi, .pwr, 0x13c, 1, 4, .all, [⟨0, 32, .rw, 0⟩]⟩, 0, 0⟩ := rfl

theorem regAt_yardSqVictim (y : Yard) :
    regAt (Reg.yardSqVictim y) = some ⟨⟨.yardSqVictim, .yard, 0x408, 1, 4, .all, [⟨0, 32, .rwl, 0⟩]⟩, y, 0⟩ :=
  regAt_of_row (windowOf_yard y.isLt (by decide)) rfl

theorem regAt_yardSliceCtl (y : Yard) : regAt (Reg.yardSliceCtl y)
    = some ⟨⟨.yardSliceCtl, .yard, 0x140, 1, 4, .all, [⟨0, 4, .rw, 0⟩, ⟨4, 1, .w1s, 0⟩]⟩, y, 0⟩ :=
  regAt_of_row (windowOf_yard y.isLt (by decide)) rfl

theorem regAt_yardSqWaveOpen (y : Yard) :
    regAt (Reg.yardSqWaveOpen y) = some ⟨⟨.yardSqWaveOpen, .yard, 0x420, 1, 4, .all, [⟨0, 16, .w1s, 0⟩]⟩, y, 0⟩ :=
  regAt_of_row (windowOf_yard y.isLt (by decide)) rfl

theorem regAt_tileBankNext (p : Slot) :
    regAt (Reg.tileBankNext p) = some ⟨⟨.tileBankNext, .tile, 0x504, 1, 4, .all, [⟨0, 32, .rw, 0⟩]⟩, p, 0⟩ :=
  regAt_of_row (windowOf_tile p.isLt (by decide)) rfl

theorem regAt_tileProgFault (p : Slot) : regAt (Reg.tileProgFault p) = some ⟨⟨.tileProgFault, .tile, 0x10, 1, 4, .all,
    [⟨0, 4, .ro, 0⟩, ⟨4, 2, .ro, 0⟩, ⟨6, 5, .ro, 0⟩, ⟨11, 7, .ro, 0⟩, ⟨30, 1, .ro, 0⟩, ⟨31, 1, .w1c, 0⟩]⟩, p, 0⟩ :=
  regAt_of_row (windowOf_tile p.isLt (by decide)) rfl

theorem regAt_tileMtDbgdata (p : Slot) (hmt : slotIsMt p = true) :
    regAt (Reg.tileMtDbgdata p) = some ⟨⟨.tileMtDbgdata, .tile, 0x184, 1, 4, .mt, [⟨0, 32, .ro, 0⟩]⟩, p, 0⟩ := by
  refine regAt_of_row (windowOf_tile p.isLt (by decide)) ?_
  simp [blockRegs, regsTile, regsTile0, regCovers, inScope, hmt]

/-! ## Captured and held halves (R7) -/

section Capture
variable (d : Dev) (c : Cap) (m : Master) (off : Nat)

@[simp] theorem Dev.reg_putCap (i : Nat) : (d.putCap c).reg i = d.reg i := rfl
@[simp] theorem Dev.putCap_out : (d.putCap c).out = d.out := rfl
@[simp] theorem Dev.capOf_send (x : Msg) : (d.send x).capOf m off = d.capOf m off := rfl
@[simp] theorem Dev.capOf_canon : d.canon.capOf m off = d.capOf m off := rfl
@[simp] theorem Dev.capOf_setReg (r v : Nat) : (d.setReg r v).capOf m off = d.capOf m off := rfl

/-- What a master has for a pair is its own, for that pair. -/
theorem Dev.capOf_key : (d.capOf m off).m = m ∧ (d.capOf m off).off = off := by
  unfold Dev.capOf
  cases h : d.caps.find? (fun c => c.m == m && c.off == off) with
  | none => exact ⟨rfl, rfl⟩
  | some c => simpa using List.find?_some h

/-- What was put for a master's pair is what it has. -/
theorem Dev.capOf_putCap (hm : c.m = m) (ho : c.off = off) : (d.putCap c).capOf m off = c := by
  subst hm ho
  have gone : (d.caps.filter (fun e => !(e.m == c.m && e.off == c.off))).find? (fun e => e.m == c.m && e.off == c.off) = none := by
    rw [List.find?_eq_none]
    intro e he h
    have kept := (List.mem_filter.mp he).2
    simp only [h, Bool.not_true, Bool.false_eq_true] at kept
  unfold Dev.capOf Dev.putCap
  split
  · next h =>
    obtain ⟨cm, co, hi, held⟩ := c
    simp only [Bool.and_eq_true, Option.isNone_iff_eq_none] at h
    rw [gone, h.1, h.2]
    rfl
  · simp only [List.find?_append, gone]
    simp

@[simp] theorem Dev.capOf_putCap_hi (x : Option Word) :
    (d.putCap { d.capOf m off with hi := x }).capOf m off = { d.capOf m off with hi := x } :=
  Dev.capOf_putCap d _ m off (d.capOf_key m off).1 (d.capOf_key m off).2

@[simp] theorem Dev.capOf_putCap_held (x : Option Word) :
    (d.putCap { d.capOf m off with held := x }).capOf m off = { d.capOf m off with held := x } :=
  Dev.capOf_putCap d _ m off (d.capOf_key m off).1 (d.capOf_key m off).2

end Capture

/-! ## Reads -/

/-- A readable register that counts no time shows its word. -/
theorem Dev.peek_word (d : Dev) (off : Nat) {r : RegAt} (ht : timingReg r.d.name = false) (hw : writeOnly r.d.fields = 0) :
    d.peek off r = (d, w32 (d.shown off r)) := by
  unfold Dev.peek
  rw [ht, hw, Nat.sub_zero, w32_word]
  rfl

/-- A read of control space answers with what the register's rules give. -/
theorem onDev_ctlRead {s : State} {m : Master} {off : Nat} (h4 : off % 4 = 0) (hlt : off < 0x2000000) {d : Dev} {v : Word}
    (h : s.dev.ctlRead m off = (d, some v)) : onDev (ctlReadCmd m off) s = answer s (d.send (.regData true v)) := by
  unfold onDev answer ctlReadCmd
  simp only [h4, hlt, and_self, if_true, h]
  rfl

/-- A read of a lower half captures the upper one (R7). -/
theorem Dev.ctlRead_lo {d : Dev} {m : Master} {off : Nat} {r rh : RegAt} {lo hi : Word} (hr : regAt off = some r)
    (hrh : regAt (off + 4) = some rh) (hm : Dev.mayReg m off = true) (hdbg : r.d.name ≠ .tileMtDbgdata) (hl : isLo r.d.name = true)
    (hlo : d.peek off r = (d, lo)) (hhi : d.peek (off + 4) rh = (d, hi)) :
    d.ctlRead m off = (d.putCap { d.capOf m off with hi := some hi }, some lo) := by
  unfold Dev.ctlRead
  simp only [hr, hm, hdbg, hl, hrh, hlo, hhi, Bool.not_true, Bool.false_eq_true, if_false, false_and, if_true]

/-- A read of an upper half delivers the captured one, once (R7). -/
theorem Dev.ctlRead_hi_captured {d : Dev} {m : Master} {off : Nat} {r : RegAt} {v : Word} (hr : regAt off = some r)
    (hm : Dev.mayReg m off = true) (hdbg : r.d.name ≠ .tileMtDbgdata) (hl : isLo r.d.name = false) (hh : isHi r.d.name = true)
    (hc : (d.capOf m (off - 4)).hi = some v) :
    d.ctlRead m off = (d.putCap { d.capOf m (off - 4) with hi := none }, some v) := by
  unfold Dev.ctlRead
  simp only [hr, hm, hdbg, hl, hh, hc, Bool.not_true, Bool.false_eq_true, if_false, false_and, if_true]

/-- With nothing captured it delivers the register. -/
theorem Dev.ctlRead_hi_plain {d : Dev} {m : Master} {off : Nat} {r : RegAt} {hi : Word} (hr : regAt off = some r)
    (hm : Dev.mayReg m off = true) (hdbg : r.d.name ≠ .tileMtDbgdata) (hl : isLo r.d.name = false) (hh : isHi r.d.name = true)
    (hc : (d.capOf m (off - 4)).hi = none) (hp : d.peek off r = (d, hi)) : d.ctlRead m off = (d, some hi) := by
  unfold Dev.ctlRead
  simp only [hr, hm, hdbg, hl, hh, hc, hp, Bool.not_true, Bool.false_eq_true, if_false, false_and, if_true]

section Read
variable {d : Dev} {m : Master} {off : Nat} {r : RegAt}

/-- Out of debug mode TILE_MT_DBGDATA reads 0, and the read is logged. -/
theorem Dev.ctlRead_debugClosed (hr : regAt off = some r) (hm : Dev.mayReg m off = true) (hn : r.d.name = .tileMtDbgdata)
    (hd : d.debugOpen 1 = false) : d.ctlRead m off = (d.logEv 0 1 r.inst 0 [w32 off], some 0) := by
  unfold Dev.ctlRead
  simp only [hr, hm, hn, hd, Bool.not_true, Bool.not_false, Bool.false_eq_true, if_false, and_self, if_true]

/-- A register of 32 bits reads what it shows. -/
theorem Dev.ctlRead_single (hr : regAt off = some r) (hm : Dev.mayReg m off = true)
    (hd : r.d.name = .tileMtDbgdata → d.debugOpen 1 = true) (hl : isLo r.d.name = false) (hh : isHi r.d.name = false) :
    d.ctlRead m off = ((d.peek off r).1, some (d.peek off r).2) := by
  have readable : ¬ (r.d.name = .tileMtDbgdata ∧ (!d.debugOpen 1) = true) := fun ⟨hn, hc⟩ => by rw [hd hn] at hc; cases hc
  unfold Dev.ctlRead
  simp only [hr, hm, hl, hh, readable, Bool.not_true, Bool.false_eq_true, if_false]

theorem Dev.shown_dbgdata (d : Dev) (off : Nat) {r : RegAt} (hn : r.d.name = .tileMtDbgdata) (hd : d.debugOpen 1 = true) :
    d.shown off r = d.dbgData r.inst := by
  unfold Dev.shown
  simp only [hn, hd, if_true]

end Read

/-! ## Writes -/

/-- A write of control space answers whether its master may make it. -/
theorem onDev_ctlWrite {s : State} {m : Master} {off : Nat} {v : Word} (h4 : off % 4 = 0) (hlt : off < 0x2000000) {d : Dev}
    {ok : Bool} (h : s.dev.ctlWrite m off v = (d, ok)) : onDev (ctlWriteCmd m off v) s = answer s (d.send (.regData ok 0)) := by
  unfold onDev answer ctlWriteCmd
  simp only [h4, hlt, and_self, if_true, h]

section Write
variable {d : Dev} {m : Master} {off : Nat} {r : RegAt} {v : Word}

/-- A write that its master may not make is an access error (R27, R29, R132). -/
theorem Dev.ctlWrite_denied (hr : regAt off = some r) (hm : Dev.maySet m off = false) (hw : r.d.name ≠ .yardSqWaveOpen) :
    d.ctlWrite m off v = (d, false) := by
  unfold Dev.ctlWrite
  simp [hr, hm, hw]

theorem Dev.ctlWrite_unpopulated (hr : regAt off = none) : d.ctlWrite m off v = (d.logUnpopulated (ctlLo + off), false) := by
  unfold Dev.ctlWrite
  rw [hr]

/-- A write that its master may make to a register of 32 bits. -/
theorem Dev.ctlWrite_single (hr : regAt off = some r) (hm : Dev.maySet m off = true) (hl : isLo r.d.name = false)
    (hh : isHi r.d.name = false) : d.ctlWrite m off v = d.write1 m off r v := by
  unfold Dev.ctlWrite
  simp [hr, hm, hl, hh]

/-- A write of an upper half is held (R7). -/
theorem Dev.ctlWrite_hi (hr : regAt off = some r) (hm : Dev.maySet m off = true) (hh : isHi r.d.name = true) :
    d.ctlWrite m off v = (d.putCap { d.capOf m (off - 4) with held := some v }, true) := by
  unfold Dev.ctlWrite
  simp [hr, hm, hh]

/-- A write of a lower half takes the held upper half with it (R7). -/
theorem Dev.ctlWrite_lo_held {rh : RegAt} {h : Word} (hr : regAt off = some r) (hrh : regAt (off + 4) = some rh)
    (hm : Dev.maySet m off = true) (hl : isLo r.d.name = true) (hh : isHi r.d.name = false) (hc : (d.capOf m off).held = some h) :
    d.ctlWrite m off v
      = (((d.putCap { d.capOf m off with held := none }).put m (off + 4) rh h.toNat).put m off r v.toNat, true) := by
  unfold Dev.ctlWrite
  simp only [hr, hrh, hm, hl, hh, hc, Bool.not_true, Bool.false_and, Bool.false_eq_true, if_false, if_true]

/-- With no half held it is written alone. -/
theorem Dev.ctlWrite_lo_plain (hr : regAt off = some r) (hm : Dev.maySet m off = true) (hl : isLo r.d.name = true)
    (hh : isHi r.d.name = false) (hc : (d.capOf m off).held = none) :
    d.ctlWrite m off v = ((d.putCap { d.capOf m off with held := none }).put m off r v.toNat, true) := by
  unfold Dev.ctlWrite
  simp only [hr, hm, hl, hh, hc, Bool.not_true, Bool.false_and, Bool.false_eq_true, if_false, if_true]

/-- The write of a register without locked fields whose fields stand alone. -/
theorem Dev.put_plain (hlock : r.d.fields.any (fun f => f.acc == .rwl) = false) (halso : alsoClears r.d.name = none) (n : Nat) :
    d.put m off r n = d.setReg off (fieldsAfter r.d.fields d.started (d.reg off) n) := by
  unfold Dev.put
  simp only [hlock, halso, Bool.false_and, Bool.false_eq_true, if_false]

end Write

/-! ## What a register's fields become (R8) -/

section Fields
variable (fs : List RegField) (locked : Bool) (old v lsb w rst : Nat)

theorem fieldsAfter_nil : fieldsAfter [] locked old v = old := rfl
theorem fieldsAfter_rw : fieldsAfter (⟨lsb, w, .rw, rst⟩ :: fs) locked old v
    = fieldsAfter fs locked (putBits old lsb w (bitsAt v lsb w)) v := rfl
theorem fieldsAfter_ro : fieldsAfter (⟨lsb, w, .ro, rst⟩ :: fs) locked old v = fieldsAfter fs locked old v := rfl
theorem fieldsAfter_rwl : fieldsAfter (⟨lsb, w, .rwl, rst⟩ :: fs) locked old v
    = fieldsAfter fs locked (if locked then old else putBits old lsb w (bitsAt v lsb w)) v := rfl
theorem fieldsAfter_w1s : fieldsAfter (⟨lsb, w, .w1s, rst⟩ :: fs) locked old v
    = fieldsAfter fs locked (putBits old lsb w (Nat.lor (bitsAt old lsb w) (bitsAt v lsb w))) v := rfl
theorem fieldsAfter_w1c : fieldsAfter (⟨lsb, w, .w1c, rst⟩ :: fs) locked old v
    = fieldsAfter fs locked (putBits old lsb w (bitsAt old lsb w - Nat.land (bitsAt old lsb w) (bitsAt v lsb w))) v := rfl

end Fields

/-- A field as wide as the word, put from a word, is that word. -/
theorem putBits_bitsAt_word {old v : Nat} (ho : old < 2 ^ 32) (hv : v < 2 ^ 32) : putBits old 0 32 (bitsAt v 0 32) = v := by
  rw [putBits_word ho, bitsAt, Nat.pow_zero, Nat.div_one, Nat.mod_mod, Nat.mod_eq_of_lt hv]

/-- A whole word of access code RW takes the value written. -/
theorem Dev.put_rw_word {d : Dev} {m : Master} {off rst : Nat} {r : RegAt} (hf : r.d.fields = [⟨0, 32, .rw, rst⟩])
    (halso : alsoClears r.d.name = none) (v : Word) : d.put m off r v.toNat = d.setReg off v.toNat := by
  rw [Dev.put_plain (by rw [hf]; rfl) halso, hf, fieldsAfter_rw, fieldsAfter_nil, putBits_bitsAt_word (d.reg_lt off) v.isLt]

/-- A word of access code RWL: taken while no job is started, else kept and the write logged. -/
theorem Dev.put_rwl_word {d : Dev} {m : Master} {off rst : Nat} {r : RegAt} (hf : r.d.fields = [⟨0, 32, .rwl, rst⟩])
    (halso : alsoClears r.d.name = none) (v : Word) (hoff : off < Reg.bosLogNewestLo ∨ Reg.bosLogOldestHi < off) :
    d.put m off r v.toNat = if d.started then (d.logEv 0 9 0 1 [w32 off, w32 (masterCode m)]).setReg off (d.reg off)
      else d.setReg off v.toNat := by
  unfold Dev.put
  simp only [halso, hf, fieldsAfter_rwl, fieldsAfter_nil]
  cases hs : d.started
  · simp [hs, putBits_bitsAt_word (d.reg_lt off) v.isLt]
  · simp [hs, Dev.reg_logEv _ _ _ _ _ _ _ hoff]

/-! ## The commands of control space -/

section Commands
variable (m : Master) (off : Nat) (p : Slot) (y : Yard) (v : Word) (s : State)

theorem exec_registerWrite : exec (.registerWrite m off v) s = onDev (ctlWriteCmd m off v) s := rfl
theorem exec_pairLoRead : exec (.pairLoRead m off) s = onDev (ctlReadCmd m off) s := rfl
theorem exec_pairHiRead : exec (.pairHiRead m off) s = onDev (ctlReadCmd m off) s := rfl
theorem exec_pairHiWrite : exec (.pairHiWrite m off v) s = onDev (ctlWriteCmd m off v) s := rfl
theorem exec_pairLoWrite : exec (.pairLoWrite m off v) s = onDev (ctlWriteCmd m off v) s := rfl
theorem exec_dbgdataRead : exec (.dbgdataRead m p) s = onDev (ctlReadCmd m (Reg.tileMtDbgdata p)) s := rfl
theorem exec_tileBankNext : exec (.tileBankNext m p v) s = onDev (ctlWriteCmd m (Reg.tileBankNext p) v) s := rfl
theorem exec_yardSliceArm : exec (.yardSliceArm m y v) s = onDev (ctlWriteCmd m (Reg.yardSliceCtl y) v) s := rfl
theorem exec_yardSqWaveOpen : exec (.yardSqWaveOpen m y v) s = onDev (ctlWriteCmd m (Reg.yardSqWaveOpen y) v) s := rfl

end Commands

theorem Dev.maySet_host (off : Nat) : Dev.maySet .host off = true := rfl
theorem Dev.maySet_remote (r : BitVec 12) (off : Nat) : Dev.maySet (.remote r) off = false := rfl

theorem Dev.maySet_bosun {off : Nat} {r : RegAt} (hr : regAt off = some r) : Dev.maySet .bosun off = bosunWrites r := by
  unfold Dev.maySet
  rw [hr]
  rfl

/-- The master that core `c` of yard `y`'s CT is. -/
def ctMaster (y : Yard) (c : Fin 4) : Master := .tile ⟨24 * y.val + 23, by omega⟩ c

/-- A CT may write every register of its device (R132). -/
theorem Dev.maySet_ct (y : Yard) (c : Fin 4) (off : Nat) : Dev.maySet (ctMaster y c) off = true := by
  have ct : slotIsCt (24 * y.val + 23) = true := by simp [slotIsCt]
  simp [Dev.maySet, Dev.mayReg, ctMaster, ct]

/-! ## Writes by access code (R8) -/

theorem fieldsAfter_progFault (locked : Bool) (old v : Nat) :
    fieldsAfter [⟨0, 4, .ro, 0⟩, ⟨4, 2, .ro, 0⟩, ⟨6, 5, .ro, 0⟩, ⟨11, 7, .ro, 0⟩, ⟨30, 1, .ro, 0⟩, ⟨31, 1, .w1c, 0⟩] locked old v
      = if v.testBit 31 then putBits old 31 1 0 else old := by
  have none_cleared (x : Nat) : x - Nat.land x (b2n false) = x := congrArg (x - ·) (Nat.and_zero x)
  have cleared (b : Bool) : b2n b - Nat.land (b2n b) (b2n true) = 0 := by cases b <;> rfl
  rw [fieldsAfter_ro, fieldsAfter_ro, fieldsAfter_ro, fieldsAfter_ro, fieldsAfter_ro, fieldsAfter_w1c, fieldsAfter_nil, bitsAt_one v]
  cases v.testBit 31
  · rw [none_cleared, putBits_own, if_neg Bool.false_ne_true]
  · rw [bitsAt_one old, cleared, if_pos rfl]

/-- The write of a register with a bit that takes another one with it when it is cleared. -/
theorem Dev.put_also {d : Dev} {m : Master} {off : Nat} {r : RegAt} {n bit more : Nat}
    (hlock : r.d.fields.any (fun f => f.acc == .rwl) = false) (halso : alsoClears r.d.name = some (bit, more)) :
    d.put m off r n = if n.testBit bit then
        (d.setReg off (fieldsAfter r.d.fields d.started (d.reg off) n)).setFld off ⟨more, 1⟩ 0
      else d.setReg off (fieldsAfter r.d.fields d.started (d.reg off) n) := by
  unfold Dev.put
  simp only [hlock, halso, Bool.false_and, Bool.false_eq_true, if_false]
  rfl

section Writes
variable (s : State) (v : Word) (p : Slot) (y : Yard)

theorem write_irqData : exec (.registerWrite .host Reg.hstIrqData v) s
    = answer s ((s.dev.setReg Reg.hstIrqData v.toNat).send (.regData true 0)) := by
  rw [exec_registerWrite]
  refine onDev_ctlWrite (by decide) (by decide) ?_
  rw [Dev.ctlWrite_single regAt_hstIrqData rfl rfl rfl]
  exact congrArg (·, true) (Dev.put_rw_word rfl rfl v)

theorem write_sqVictim {m : Master} (hm : Dev.maySet m (Reg.yardSqVictim y) = true) :
    exec (.registerWrite m (Reg.yardSqVictim y) v) s = answer s ((if s.dev.started then
        (s.dev.logEv 0 9 0 1 [w32 (Reg.yardSqVictim y), w32 (masterCode m)]).setReg (Reg.yardSqVictim y) (s.dev.reg (Reg.yardSqVictim y))
      else s.dev.setReg (Reg.yardSqVictim y) v.toNat).send (.regData true 0)) := by
  obtain ⟨h4, hlt, hlog⟩ := yardReg_bounds y (o := 0x408) (by decide) rfl
  rw [exec_registerWrite]
  refine onDev_ctlWrite (off := Reg.yardSqVictim y) h4 hlt ?_
  rw [Dev.ctlWrite_single (regAt_yardSqVictim y) hm rfl rfl]
  exact congrArg (·, true) (Dev.put_rwl_word rfl rfl v (.inr hlog))

theorem write_halDec : exec (.registerWrite .host Reg.halDec v) s
    = answer s ((s.dev.setReg Reg.halDec (s.dev.reg Reg.halDec)).send (.regData true 0)) := by
  rw [exec_registerWrite]
  refine onDev_ctlWrite (by decide) (by decide) ?_
  rw [Dev.ctlWrite_single regAt_halDec rfl rfl rfl]
  exact congrArg (·, true) (Dev.put_plain rfl rfl v.toNat)

/-- TILE_PROG_FAULT: VALID written 1 clears VALID, and MORE with it (R8); written 0 it leaves the register. -/
theorem write_progFault : exec (.registerWrite .host (Reg.tileProgFault p) v) s
    = answer s ((if v.getLsbD 31 then
        (s.dev.setFlag (Reg.tileProgFault p) F.tileProgFaultValid false).setFlag (Reg.tileProgFault p) F.tileProgFaultMore false
      else s.dev.setReg (Reg.tileProgFault p) (s.dev.reg (Reg.tileProgFault p))).send (.regData true 0)) := by
  obtain ⟨h4, hlt, -⟩ := tileReg_bounds p (o := 0x10) (by decide) rfl
  rw [exec_registerWrite]
  refine onDev_ctlWrite (off := Reg.tileProgFault p) h4 hlt ?_
  rw [Dev.ctlWrite_single (regAt_tileProgFault p) rfl rfl rfl]
  refine congrArg (·, true) ?_
  rw [Dev.put_also rfl rfl, fieldsAfter_progFault]
  show (if v.getLsbD 31 = true then _ else _) = _
  cases hv : v.getLsbD 31
  · have hn : v.toNat.testBit 31 = false := hv
    simp only [hn, Bool.false_eq_true, if_false]
  · have hn : v.toNat.testBit 31 = true := hv
    simp only [hn, if_true]
    rfl

theorem write_unpopulated {off : Nat} (hn : regAt off = none) (h4 : off % 4 = 0) (hlt : off < 0x2000000) :
    exec (.registerWrite .host off v) s = answer s ((s.dev.logUnpopulated (ctlLo + off)).send (.regData false 0)) := by
  rw [exec_registerWrite]
  exact onDev_ctlWrite h4 hlt (Dev.ctlWrite_unpopulated hn)

theorem write_irqData_denied {m : Master} (hm : Dev.maySet m Reg.hstIrqData = false) :
    exec (.registerWrite m Reg.hstIrqData v) s = answer s (s.dev.send (.regData false 0)) := by
  rw [exec_registerWrite]
  exact onDev_ctlWrite (by decide) (by decide) (Dev.ctlWrite_denied regAt_hstIrqData hm (by decide))

end Writes

/-- VALID and MORE cleared leave the cause as it was. -/
theorem Dev.progFault_cleared (d : Dev) (off : Nat) :
    let e := (d.setFlag off F.tileProgFaultValid false).setFlag off F.tileProgFaultMore false
    e.flag off F.tileProgFaultValid = false ∧ e.flag off F.tileProgFaultMore = false
      ∧ e.fld off F.tileProgFaultCause = d.fld off F.tileProgFaultCause := by
  refine ⟨?_, Dev.flag_setFlag_same _ _ _ _ (by decide) (by decide), ?_⟩
  · unfold Dev.flag
    rw [Dev.setFlag, Dev.fld_setFld_apart _ _ _ (by decide) (.inl (by decide))]
    exact Dev.flag_setFlag_same _ _ _ _ (by decide) (by decide)
  · rw [Dev.setFlag, Dev.fld_setFld_apart _ _ _ (by decide) (.inr (by decide)),
      Dev.setFlag, Dev.fld_setFld_apart _ _ _ (by decide) (.inr (by decide))]

theorem registerWrites : Parts.RegisterWrites := by
  intro s p y v r off
  refine ⟨?rw, ?rwlOpen, ?rwlLocked, ?ro, ?w1c, ?w1cZero, ?unpopulated, ?bosunDenied, ?bosunRwl, ?remote⟩
  case rw =>
    refine ⟨_, write_irqData s v, ?_, ?_, fun i hi => ?_⟩
    · simp [Dev.reg_setReg_word]
    · simp [Dev.send_out]
    · simp [Dev.reg_setReg_other _ _ hi]
  case rwlOpen =>
    exact fun hs => ⟨_, write_sqVictim s v y (Dev.maySet_host _), by simp [hs, Dev.reg_setReg_word]⟩
  case rwlLocked =>
    refine fun hs => ⟨_, write_sqVictim s v y (Dev.maySet_host _), ?_, ?_⟩ <;> rw [if_pos hs]
    · rw [Dev.reg_canon, Dev.reg_send, Dev.reg_setReg_reg]
    · rw [Dev.canon_bos, Dev.send_bos, Dev.setReg_bos, Dev.logEv_seq _ _ _ _ _ _ _ (by decide)]
  case ro => exact ⟨_, write_halDec s v, by simp [Dev.reg_setReg_reg]⟩
  case w1c =>
    obtain ⟨valid, more, cause⟩ := s.dev.progFault_cleared (Reg.tileProgFault p)
    refine fun hv => ⟨_, write_progFault s v p, ?_, ?_, ?_⟩ <;> rw [if_pos hv]
    · rw [Dev.flag_canon, Dev.flag_send, valid]
    · rw [Dev.flag_canon, Dev.flag_send, more]
    · rw [Dev.fld_canon, Dev.fld_send, cause]
  case w1cZero =>
    exact fun hv => ⟨_, write_progFault s v p, by simp only [hv]; simp [Dev.reg_setReg_reg]⟩
  case unpopulated =>
    refine fun hn h4 hlt => ⟨_, write_unpopulated s v hn h4 hlt, ?_, ?_, fun a => ?_⟩
    · rw [Dev.canon_out, Dev.send_out, Dev.logUnpopulated, Dev.logEv_out]
    · rw [Dev.canon_bos, Dev.send_bos, Dev.logUnpopulated, Dev.logEv_seq _ _ _ _ _ _ _ (by decide)]
    · rw [Dev.byte_canon, Dev.byte_send, Dev.logUnpopulated, Dev.byte_logEv]
  case bosunDenied => exact write_irqData_denied s v (Dev.maySet_bosun regAt_hstIrqData)
  case bosunRwl =>
    exact fun hs => ⟨_, write_sqVictim s v y (Dev.maySet_bosun (regAt_yardSqVictim y)), by simp [hs, Dev.reg_setReg_word]⟩
  case remote => exact write_irqData_denied s v (Dev.maySet_remote r _)

/-! ## Register pairs (R7) -/

theorem peek_clkTbLoadLo (d : Dev) : d.peek Reg.clkTbLoadLo ⟨⟨.clkTbLoadLo, .pwr, 0x138, 1, 4, .all, [⟨0, 32, .rw, 0⟩]⟩, 0, 0⟩
    = (d, w32 (d.reg Reg.clkTbLoadLo)) := Dev.peek_word d _ rfl rfl
theorem peek_clkTbLoadHi (d : Dev) : d.peek Reg.clkTbLoadHi ⟨⟨.clkTbLoadHi, .pwr, 0x13c, 1, 4, .all, [⟨0, 32, .rw, 0⟩]⟩, 0, 0⟩
    = (d, w32 (d.reg Reg.clkTbLoadHi)) := Dev.peek_word d _ rfl rfl

theorem tbLoadLo_upper : Reg.clkTbLoadLo + 4 = Reg.clkTbLoadHi := rfl
theorem tbLoad_apart : Reg.clkTbLoadHi ≠ Reg.clkTbLoadLo := by decide

section Pair
variable (s : State) (v : Word)

theorem read_tbLoadLo : exec (.pairLoRead .host Reg.clkTbLoadLo) s
    = answer s ((s.dev.putCap { s.dev.capOf .host Reg.clkTbLoadLo with hi := some (w32 (s.dev.reg Reg.clkTbLoadHi)) }).send
        (.regData true (w32 (s.dev.reg Reg.clkTbLoadLo)))) := by
  rw [exec_pairLoRead]
  exact onDev_ctlRead (by decide) (by decide)
    (Dev.ctlRead_lo regAt_clkTbLoadLo regAt_clkTbLoadHi rfl (by decide) rfl (peek_clkTbLoadLo _) (peek_clkTbLoadHi _))

theorem read_tbLoadHi_captured (h : (s.dev.capOf .host Reg.clkTbLoadLo).hi = some v) : exec (.pairHiRead .host Reg.clkTbLoadHi) s
    = answer s ((s.dev.putCap { s.dev.capOf .host Reg.clkTbLoadLo with hi := none }).send (.regData true v)) := by
  rw [exec_pairHiRead]
  exact onDev_ctlRead (by decide) (by decide) (Dev.ctlRead_hi_captured regAt_clkTbLoadHi rfl (by decide) rfl rfl h)

theorem read_tbLoadHi_plain (h : (s.dev.capOf .host Reg.clkTbLoadLo).hi = none) : exec (.pairHiRead .host Reg.clkTbLoadHi) s
    = answer s (s.dev.send (.regData true (w32 (s.dev.reg Reg.clkTbLoadHi)))) := by
  rw [exec_pairHiRead]
  exact onDev_ctlRead (by decide) (by decide)
    (Dev.ctlRead_hi_plain regAt_clkTbLoadHi rfl (by decide) rfl rfl h (peek_clkTbLoadHi _))

theorem write_tbLoadHi : exec (.pairHiWrite .host Reg.clkTbLoadHi v) s
    = answer s ((s.dev.putCap { s.dev.capOf .host Reg.clkTbLoadLo with held := some v }).send (.regData true 0)) := by
  rw [exec_pairHiWrite]
  exact onDev_ctlWrite (by decide) (by decide) (Dev.ctlWrite_hi regAt_clkTbLoadHi rfl rfl)

theorem write_tbLoadLo_held {h : Word} (hh : (s.dev.capOf .host Reg.clkTbLoadLo).held = some h) :
    exec (.pairLoWrite .host Reg.clkTbLoadLo v) s
      = answer s ((((s.dev.putCap { s.dev.capOf .host Reg.clkTbLoadLo with held := none }).setReg Reg.clkTbLoadHi h.toNat).setReg
          Reg.clkTbLoadLo v.toNat).send (.regData true 0)) := by
  rw [exec_pairLoWrite]
  refine onDev_ctlWrite (by decide) (by decide) ?_
  rw [Dev.ctlWrite_lo_held regAt_clkTbLoadLo regAt_clkTbLoadHi rfl rfl rfl hh, tbLoadLo_upper, Dev.put_rw_word rfl rfl,
    Dev.put_rw_word rfl rfl]

theorem write_tbLoadLo_plain (hh : (s.dev.capOf .host Reg.clkTbLoadLo).held = none) :
    exec (.pairLoWrite .host Reg.clkTbLoadLo v) s
      = answer s (((s.dev.putCap { s.dev.capOf .host Reg.clkTbLoadLo with held := none }).setReg
          Reg.clkTbLoadLo v.toNat).send (.regData true 0)) := by
  rw [exec_pairLoWrite]
  refine onDev_ctlWrite (by decide) (by decide) ?_
  rw [Dev.ctlWrite_lo_plain regAt_clkTbLoadLo rfl rfl rfl hh]
  exact congrArg (·, true) (Dev.put_rw_word rfl rfl v)

end Pair

theorem registerPairs : Parts.RegisterPairs := by
  intro s v h
  refine ⟨?readLo, ?readCaptured, ?readPlain, ?writeHi, ?writeLoHeld, ?writeLoPlain⟩
  case readLo =>
    exact ⟨_, read_tbLoadLo s, by simp [Dev.send_out], by simp, by simp⟩
  case readCaptured =>
    exact fun hc => ⟨_, read_tbLoadHi_captured s v hc, by simp [Dev.send_out], by simp⟩
  case readPlain => exact fun hc => ⟨_, read_tbLoadHi_plain s hc, by simp [Dev.send_out]⟩
  case writeHi => exact ⟨_, write_tbLoadHi s v, by simp, by simp⟩
  case writeLoHeld =>
    refine fun hh => ⟨_, write_tbLoadLo_held s v hh, ?_, ?_, ?_⟩
    · simp [Dev.reg_setReg_word]
    · simp [Dev.reg_setReg_other _ _ tbLoad_apart, Dev.reg_setReg_word]
    · simp
  case writeLoPlain =>
    refine fun hh => ⟨_, write_tbLoadLo_plain s v hh, ?_, ?_⟩
    · simp [Dev.reg_setReg_word]
    · simp [Dev.reg_setReg_other _ _ tbLoad_apart]

/-! ## Registers with rules of their own (R92, R175, R198, R287) -/

/-! ### TILE_MT_DBGDATA (R92) -/

section Dbgdata
variable (s : State) (p : Slot)

theorem read_dbgdata_closed (hmt : slotIsMt p = true) (hd : s.dev.debugOpen 1 = false) : exec (.dbgdataRead .bosun p) s
    = answer s ((s.dev.logEv 0 1 p 0 [w32 (Reg.tileMtDbgdata p)]).send (.regData true 0)) := by
  obtain ⟨h4, hlt, -⟩ := tileReg_bounds p (o := 0x184) (by decide) rfl
  rw [exec_dbgdataRead]
  refine onDev_ctlRead (off := Reg.tileMtDbgdata p) h4 hlt ?_
  rw [Dev.ctlRead_debugClosed (regAt_tileMtDbgdata p hmt) rfl rfl hd]

theorem read_dbgdata_open (hmt : slotIsMt p = true) (hd : s.dev.debugOpen 1 = true) : exec (.dbgdataRead .bosun p) s
    = answer s (s.dev.send (.regData true (w32 (s.dev.dbgData p)))) := by
  obtain ⟨h4, hlt, -⟩ := tileReg_bounds p (o := 0x184) (by decide) rfl
  rw [exec_dbgdataRead]
  refine onDev_ctlRead (off := Reg.tileMtDbgdata p) h4 hlt ?_
  rw [Dev.ctlRead_single (regAt_tileMtDbgdata p hmt) rfl (fun _ => hd) rfl rfl, Dev.peek_word _ _ rfl rfl, Dev.shown_dbgdata _ _ rfl hd]

end Dbgdata

/-! ### TILE_BANK_NEXT (R175, R177) -/

/-- The owners that a write of TILE_BANK_NEXT leaves: its own fields, but the register's where it gives 3. -/
theorem Dev.reg_writeBankNext (d : Dev) (p : Slot) (v i : Nat) (hi : i < Reg.bosLogNewestLo ∨ Reg.bosLogOldestHi < i) :
    (d.writeBankNext p v).reg i = if i = Reg.tileBankNext p then
        ofBits2 ((List.range 16).map (fun b =>
          if bitsAt v (2 * b) 2 = 3 then bitsAt (d.reg (Reg.tileBankNext p)) (2 * b) 2 else bitsAt v (2 * b) 2)) % 2 ^ 32
      else d.reg i := by
  unfold Dev.writeBankNext
  rw [Dev.reg_setReg]
  split
  · rfl
  · split
    · rw [Dev.reg_logEv _ _ _ _ _ _ _ hi]
    · rfl

theorem bankOwner_ne_bankNext (p : Nat) : Reg.tileBankOwner p ≠ Reg.tileBankNext p := by
  unfold Reg.tileBankOwner Reg.tileBankNext; omega

theorem write_bankNext (s : State) (p : Slot) (v : Word) :
    exec (.tileBankNext .host p v) s = answer s ((s.dev.writeBankNext p v.toNat).send (.regData true 0)) := by
  obtain ⟨h4, hlt, -⟩ := tileReg_bounds p (o := 0x504) (by decide) rfl
  rw [exec_tileBankNext]
  refine onDev_ctlWrite (off := Reg.tileBankNext p) h4 hlt ?_
  rw [Dev.ctlWrite_single (regAt_tileBankNext p) rfl rfl rfl]
  rfl

/-- Sixteen owners that are the fields of one word are that word. -/
theorem ofBits2_word {f : Nat → Nat} {v : Nat} (hv : v < 2 ^ 32) (hf : ∀ b, b < 16 → f b = bitsAt v (2 * b) 2) :
    ofBits2 ((List.range 16).map f) % 2 ^ 32 = v := by
  rw [List.map_congr_left (fun b hb => hf b (List.mem_range.mp hb)), ofBits2_fields]
  omega

/-! ### YARD_SLICE_CTL (R198) -/

section Slice
variable (s : State) (y : Yard) (c : Fin 4) (v : Word)

theorem arm_slice {m : Master} (hm : Dev.maySet m (Reg.yardSliceCtl y) = true) (ha : mayArm m y = true) :
    exec (.yardSliceArm m y v) s = answer s ((s.dev.setReg (Reg.yardSliceCtl y)
      (putBits (putBits (s.dev.reg (Reg.yardSliceCtl y)) 0 4 (bitsAt v.toNat 0 4)) 4 1
        (Nat.lor (bitsAt (putBits (s.dev.reg (Reg.yardSliceCtl y)) 0 4 (bitsAt v.toNat 0 4)) 4 1) (bitsAt v.toNat 4 1)))).send
        (.regData true 0)) := by
  obtain ⟨h4, hlt, -⟩ := yardReg_bounds y (o := 0x140) (by decide) rfl
  rw [exec_yardSliceArm]
  refine onDev_ctlWrite (off := Reg.yardSliceCtl y) h4 hlt ?_
  rw [Dev.ctlWrite_single (regAt_yardSliceCtl y) hm rfl rfl]
  simp only [Dev.write1, ha, if_true]
  rw [Dev.put_plain rfl rfl, fieldsAfter_rw, fieldsAfter_w1s, fieldsAfter_nil]

/-- Another master's write of YARD_SLICE_CTL is an access error. -/
theorem arm_slice_denied {m : Master} (hm : Dev.maySet m (Reg.yardSliceCtl y) = true) (ha : mayArm m y = false) :
    exec (.yardSliceArm m y v) s = answer s (s.dev.send (.regData false 0)) := by
  obtain ⟨h4, hlt, -⟩ := yardReg_bounds y (o := 0x140) (by decide) rfl
  rw [exec_yardSliceArm]
  refine onDev_ctlWrite (off := Reg.yardSliceCtl y) h4 hlt ?_
  rw [Dev.ctlWrite_single (regAt_yardSliceCtl y) hm rfl rfl]
  simp only [Dev.write1, ha, Bool.false_eq_true, if_false]

/-- The barrier number of a slice register that was written. -/
theorem sliceCtl_barrier (old v more : Nat) : bitsAt (putBits (putBits old 0 4 (bitsAt v 0 4)) 4 1 more) 0 4 = v % 16 := by
  have low : bitsAt v 0 4 = v % 16 := congrArg (· % 16) (Nat.div_one v)
  rw [bitsAt_putBits_below _ _ _ _ (by decide), bitsAt_putBits_same, Nat.mod_eq_of_lt (bitsAt_lt v 0 4), low]

/-- ARM is set by a 1 written, and stays set under a 0. -/
theorem sliceCtl_arm (old v : Nat) :
    bitsAt (putBits (putBits old 0 4 (bitsAt v 0 4)) 4 1
      (Nat.lor (bitsAt (putBits old 0 4 (bitsAt v 0 4)) 4 1) (bitsAt v 4 1))) 4 1 = b2n (old.testBit 4 || v.testBit 4) := by
  rw [bitsAt_putBits_same, bitsAt_putBits_above _ _ _ _ (by decide), bitsAt_one, bitsAt_one]
  cases old.testBit 4 <;> cases v.testBit 4 <;> rfl

theorem mayArm_ct : mayArm (ctMaster y c) y = true := beq_self_eq_true (24 * y.val + 23)

end Slice

/-! ### YARD_SQ_WAVE_OPEN (R273, R287) -/

section Wave
variable (s : State) (y : Yard) (c : Fin 4) (v : Word)

theorem mayOpenWave_ct : mayOpenWave (ctMaster y c) y = true := beq_self_eq_true (24 * y.val + 23)

theorem waveOpen_lt {z y : Nat} (h : z < y) : Reg.yardSqWaveOpen z < Reg.yardSqWaveOpen y := by
  unfold Reg.yardSqWaveOpen
  rw [blockBase_yard, blockBase_yard]
  omega

/-- The yard that the logbook names for a refused write of its YARD_SQ_WAVE_OPEN is that yard. -/
theorem waveYard_found {n : Nat} (hn : n = 4) : (List.range 64).find? (fun z =>
    decide (Reg.yardSqWaveOpen y ≤ Reg.yardSqWaveOpen z) && decide (Reg.yardSqWaveOpen z + 4 ≤ Reg.yardSqWaveOpen y + n))
      = some y.val := by
  rw [List.find?_range_eq_some]
  refine ⟨?_, List.mem_range.mpr y.isLt, fun z hz => ?_⟩
  · rw [decide_eq_true (Nat.le_refl _), decide_eq_true (Nat.add_le_add_left (Nat.le_of_eq hn.symm) _), Bool.and_self]
  · rw [decide_eq_false (Nat.not_le.mpr (waveOpen_lt hz)), Bool.false_and, Bool.not_false]

theorem Dev.logWave_of_found (d : Dev) (m : Master) (off : Nat) (bs : List Byte) {z : Nat} (h : (List.range 64).find? (fun y =>
      decide (off ≤ Reg.yardSqWaveOpen y) && decide (Reg.yardSqWaveOpen y + 4 ≤ off + bs.length)) = some z) :
    d.logWave m off bs = d.logEv 0 2 z 1 [w32 (natAt bs (Reg.yardSqWaveOpen z - off) 4), w32 (masterCode m)] := by
  unfold Dev.logWave
  rw [h]

theorem Dev.logWave_word (d : Dev) (m : Master) (bs : List Byte) (hn : bs.length = 4) :
    d.logWave m (Reg.yardSqWaveOpen y) bs = d.logEv 0 2 y 1 [w32 (natAt bs 0 4), w32 (masterCode m)] := by
  rw [Dev.logWave_of_found d m _ bs (waveYard_found y hn), Nat.sub_self]

theorem open_wave {m : Master} (hm : Dev.maySet m (Reg.yardSqWaveOpen y) = true) (ho : mayOpenWave m y = true) :
    exec (.yardSqWaveOpen m y v) s = answer s ((s.dev.setReg (Reg.yardSqWaveOpen y)
      (Nat.lor (s.dev.reg (Reg.yardSqWaveOpen y)) (v.toNat % 2 ^ 16))).send (.regData true 0)) := by
  obtain ⟨h4, hlt, -⟩ := yardReg_bounds y (o := 0x420) (by decide) rfl
  rw [exec_yardSqWaveOpen]
  refine onDev_ctlWrite (off := Reg.yardSqWaveOpen y) h4 hlt ?_
  rw [Dev.ctlWrite_single (regAt_yardSqWaveOpen y) hm rfl rfl]
  simp only [Dev.write1, Dev.waveOpen, ho, if_true]

theorem open_wave_denied {m : Master} (hm : Dev.maySet m (Reg.yardSqWaveOpen y) = true) (ho : mayOpenWave m y = false) :
    exec (.yardSqWaveOpen m y v) s = answer s ((s.dev.logEv 0 2 y 1
      [w32 (natAt (toBytes 4 v.toNat) 0 4), w32 (masterCode m)]).send (.regData false 0)) := by
  obtain ⟨h4, hlt, -⟩ := yardReg_bounds y (o := 0x420) (by decide) rfl
  rw [exec_yardSqWaveOpen]
  refine onDev_ctlWrite (off := Reg.yardSqWaveOpen y) h4 hlt ?_
  rw [Dev.ctlWrite_single (regAt_yardSqWaveOpen y) hm rfl rfl]
  simp only [Dev.write1, Dev.waveOpen, ho, Bool.false_eq_true, if_false]
  rw [Dev.logWave_word y s.dev m _ (toBytes_length 4 _)]

end Wave

theorem guardedRegisters : Parts.GuardedRegisters := by
  intro s p y c v
  refine ⟨?dbgClosed, ?dbgOpen, ?banksGiven, ?banksKept, ?arm, ?armDenied, ?openWave, ?openDenied⟩
  case dbgClosed =>
    refine fun hmt hd => ⟨_, read_dbgdata_closed s p hmt hd, ?_, ?_⟩
    · rw [Dev.canon_out, Dev.send_out, Dev.logEv_out]
    · rw [Dev.canon_bos, Dev.send_bos, Dev.logEv_seq _ _ _ _ _ _ _ (by decide)]
  case dbgOpen => exact read_dbgdata_open s p
  case banksGiven =>
    obtain ⟨-, -, (hnext : _ < Reg.tileBankNext p)⟩ := tileReg_bounds p (o := 0x504) (by decide) rfl
    obtain ⟨-, -, (howner : _ < Reg.tileBankOwner p)⟩ := tileReg_bounds p (o := 0x500) (by decide) rfl
    refine fun given => ⟨_, write_bankNext s p v, ?_, ?_⟩ <;> rw [Dev.reg_canon, Dev.reg_send]
    · rw [Dev.reg_writeBankNext _ _ _ _ (.inr hnext), if_pos rfl]
      exact ofBits2_word v.isLt fun b hb => if_neg (given b hb)
    · rw [Dev.reg_writeBankNext _ _ _ _ (.inr howner), if_neg (bankOwner_ne_bankNext p)]
  case banksKept =>
    obtain ⟨-, -, (hnext : _ < Reg.tileBankNext p)⟩ := tileReg_bounds p (o := 0x504) (by decide) rfl
    refine fun kept => ⟨_, write_bankNext s p v, ?_⟩
    rw [Dev.reg_canon, Dev.reg_send, Dev.reg_writeBankNext _ _ _ _ (.inr hnext), if_pos rfl]
    exact ofBits2_word (s.dev.reg_lt _) fun b hb => if_pos (kept b hb)
  case arm =>
    refine ⟨_, arm_slice s y v (Dev.maySet_ct y c _) (mayArm_ct y c), ?_, ?_⟩
    · rw [Dev.fld_canon, Dev.fld_send, Dev.fld_setReg_same _ _ _ _ (by decide)]
      exact sliceCtl_barrier _ _ _
    · have armed (k : Nat) : s.dev.flag k F.yardSliceCtlArm = (s.dev.reg k).testBit 4 := s.dev.flag_eq_testBit k 4
      rw [Dev.flag_canon, Dev.flag_send, armed, Dev.flag, Dev.fld_setReg_same _ _ _ _ (by decide)]
      exact (congrArg (· == 1) (sliceCtl_arm _ _)).trans (b2n_eq_one _)
  case armDenied => exact arm_slice_denied s y v rfl rfl
  case openWave =>
    refine ⟨_, open_wave s y v (Dev.maySet_ct y c _) (mayOpenWave_ct y c), ?_⟩
    rw [Dev.reg_canon, Dev.reg_send, Dev.reg_setReg_same, Nat.mod_eq_of_lt (lor_low_lt (s.dev.reg_lt _))]
  case openDenied =>
    obtain ⟨-, -, (hlog : _ < Reg.yardSqWaveOpen y)⟩ := yardReg_bounds y (o := 0x420) (by decide) rfl
    refine ⟨_, open_wave_denied s y v rfl rfl, ?_, ?_, ?_⟩
    · rw [Dev.reg_canon, Dev.reg_send, Dev.reg_logEv _ _ _ _ _ _ _ (.inr hlog)]
    · rw [Dev.canon_bos, Dev.send_bos, Dev.logEv_seq _ _ _ _ _ _ _ (by decide)]
    · rw [Dev.canon_out, Dev.send_out, Dev.logEv_out]

/-- Settles O36: access codes, register pairs, and the registers with rules of their own. -/
theorem controlSpace : Obligations.ControlSpace := ⟨registerWrites, registerPairs, guardedRegisters⟩

end Sys2Proof.Machine

namespace Sys2Proof.Machine

/-! # The canonical form after every step (R5, R24) -/

/-- The four ways in which a command acts: a tile instruction on the core that issues it; one act on the whole device; one act
on an issue core; ISSUE_RESUME, which issues again the instruction that a core is stalled with (R134). `again` says what
ISSUE_RESUME makes of the command. -/
inductive Acts (c : Instr) : Prop where
  | tile (h : Iss) (e : Enc) (body : Dev → Core → Pred → Res) (run : exec c = tileInstr h c e body)
      (again : execTile c = tileInstr h c e body)
  | device (run : ∃ f, exec c = onDev f) (again : execTile c = onDev id)
  | core (slot core : Nat) (f : Dev → Dev) (run : exec c = onCore slot core f) (again : execTile c = onDev id)
  | resume (slot : Slot) (core : Fin 4) (run : exec c = execIssueResume slot core) (again : execTile c = onDev id)

theorem mirrorCmd_onDev (off : Nat) (bs : List Byte) (ok : Bool) : ∃ f, mirrorCmd off bs ok = onDev f := ⟨_, rfl⟩
theorem tapCmd_onDev (f : Tap → Tap) : ∃ g, tapCmd f = onDev g := ⟨_, rfl⟩

/-- Every command acts in one of the four ways. -/
theorem acts (c : Instr) : Acts c := by
  cases c with
  -- scalar instructions, predicates, branches, control
  | add | sub | and | or | xor | shl | shr | sra | mul | mulhu | min | max | minu | maxu | cmpeq | cmpne | cmplt | cmple | cmpltu
  | cmpleu | addi | andi | ori | xori | shli | shri | srai | movh | cmpeqi | cmpnei | cmplti | cmpltui | bra | call | jr
  | nopInstruction | halt | fence | srd | pand | por | pxor | pnot | pany | pall | brk | dmark
  -- local and global memory
  | ldU8 | ldS8 | ldU16 | ldS16 | ldU32 | ldS32 | ld64 | st8 | st16 | st32 | st64 | lxadd32 | lxadd64 | ldg32 | ldg64 | stg32
  | stg64 | gadd32 | gadd64 | vldg | vstg | vld16 | vld8 | vld4 | vldW | vst16 | vst8 | vst4 | vstW
  -- the vector unit
  | vadd | vsub | vmul | vfma | vmin | vmax | vabs | vneg | vcmpeq | vcmpne | vcmplt | vcmple | vcmpun | vsel | vmov | vbcast
  | vext | vins | vidx | vcvt | vquoin | vrcp | vrsqrt | vexp | vexp2 | vlog | vlog2 | vsigm | vtanh | vsilu | verf | vredSum
  | vredSumsq | vredMin | vredMax | vredAmax | qrow | qmerge
  -- the matrix unit
  | mload | mopen | mstream | mpair | mclose | mdrop | mepl | mwait
  -- galleys, stealing, descriptors, the halyard, the exchange
  | gset | gacq | gacqNb | grel | gres | gresNb | gcom | gstat | stake | stakeW | sdone | spost | sctlOpen | sctlClose | sctlDrain
  | dpost | dwait | dstat | hbar | hwait | hsync | hflagSet | hflagClr | hbc | hrx | hdec | hrel | hwcr | xgo | xwait | xstat =>
    exact .tile _ _ _ rfl rfl
  -- what reaches a core from outside
  | globalLoadResponse | postedWriteAck | stakeWPoll | stakeWLimit | halyardStallLimit => exact .core _ _ _ rfl rfl
  | issueResume slot core => exact .resume slot core rfl rfl
  -- the whole device: two families with an act of their own, then the rest; with `exec` unfolded the arm shows its act
  | mirrorHeadOpening | mirrorHeadComplete | mirrorHeadSpoiled | mirrorImageWrite =>
    refine .device ?_ rfl
    unfold exec
    exact mirrorCmd_onDev _ _ _
  | tapReset | bypass | extest | samplePreload | extestPulse | extestTrain =>
    refine .device ?_ rfl
    unfold exec
    exact tapCmd_onDev _
  | _ =>
    refine .device ?_ rfl
    unfold exec
    exact ⟨_, rfl⟩

/-- Where `run` goes on, the queue is as it was and the device is one in canonical form. -/
def Canonises (run : State → Host.Outcome State Fault Refusal) : Prop :=
  ∀ s t, run s = .next t → ∃ d : Dev, t = { s with dev := d.canon }

theorem onDev_canonises (f : Dev → Dev) : Canonises (onDev f) := fun s _ h =>
  ⟨f s.dev, (Host.Outcome.next.inj h).symm⟩

theorem onCore_canonises (slot core : Nat) (f : Dev → Dev) : Canonises (onCore slot core f) := by
  intro s t h
  obtain ⟨-, e⟩ | ⟨-, e⟩ := onCore_cases slot core f s
  · exact ⟨f s.dev, (Host.Outcome.next.inj (e.symm.trans h)).symm⟩
  · cases e.symm.trans h

theorem tileInstr_canonises (h : Iss) (i : Instr) (e : Enc) (body : Dev → Core → Pred → Res) : Canonises (tileInstr h i e body) :=
  onCore_canonises h.slot h.core (issue h i e body)

theorem execTile_canonises (i : Instr) : Canonises (execTile i) := by
  cases acts i with
  | tile h e body run again => rw [again]; exact tileInstr_canonises h i e body
  | device run again | core slot core f run again | resume slot core run again => rw [again]; exact onDev_canonises id

/-- All that ISSUE_RESUME can answer: a stalled instruction's own answer, no change, or the fault of a core that is not there. -/
theorem execIssueResume_cases (slot : Slot) (core : Fin 4) (s : State) :
    (∃ i d, execIssueResume slot core s = execTile i { s with dev := d }) ∨ execIssueResume slot core s = onDev id s
      ∨ execIssueResume slot core s = .fault (.noSuchCore slot core) := by
  unfold execIssueResume
  split
  · split
    · exact .inl ⟨_, _, rfl⟩
    · exact .inr (.inl rfl)
  · exact .inr (.inr rfl)

theorem execIssueResume_canonises (slot : Slot) (core : Fin 4) : Canonises (execIssueResume slot core) := by
  intro s t h
  obtain ⟨i, d, e⟩ | e | e := execIssueResume_cases slot core s <;> rw [e] at h
  · obtain ⟨d', rfl⟩ := execTile_canonises i _ t h
    exact ⟨d', rfl⟩
  · exact onDev_canonises id s t h
  · cases h

theorem exec_canonises (c : Instr) : Canonises (exec c) := by
  cases acts c with
  | tile h e body run again => rw [run]; exact tileInstr_canonises h c e body
  | device run again =>
    obtain ⟨f, run⟩ := run
    rw [run]
    exact onDev_canonises f
  | core slot core f run again => rw [run]; exact onCore_canonises slot core f
  | resume slot core run again => rw [run]; exact execIssueResume_canonises slot core

/-- A step that goes on leaves a device in canonical form, be it the idle step or a command. -/
theorem step_canon {s t : State} (h : step s = .next t) : ∃ d : Dev, t.dev = d.canon := by
  obtain ⟨pending, dev⟩ := s
  cases pending with
  | nil => exact ⟨dev.tick, congrArg State.dev (Host.Outcome.next.inj h).symm⟩
  | cons c rest =>
    obtain ⟨d, rfl⟩ := exec_canonises c ⟨rest, dev⟩ t h
    exact ⟨d, rfl⟩

/-- Settles O3: whatever a command does to the device, it hands it on in canonical form. -/
theorem canonicalAlways : Obligations.CanonicalAlways := by
  intro s t h
  obtain ⟨d, e⟩ := step_canon h
  unfold State.Inv
  rw [e]
  exact ⟨d.canon_mem_wf, d.canon_regs_wf⟩

end Sys2Proof.Machine

namespace Sys2Proof.Machine

/-! # The decision and the commit barrier (R42, R251 to R253, R258, R329) -/

/-! ## What reaches the members leaves the halyard's registers, memory and the presses alone

What a release or a decision does at a tile or a yard is written to the registers of that tile or yard, to the logbook, to tiles and to
the notices. -/

/-- The offset lies in the halyard's window (R28). -/
def InHalyard (i : Nat) : Prop := 0x200000 ≤ i ∧ i < 0x210000

/-- The offset lies in the window of a tile or a yard, or above (R28). -/
def InYards (i : Nat) : Prop := 0x1000000 ≤ i

theorem InHalyard.windowOf {i : Nat} (hi : InHalyard i) : windowOf i = some (.hal, 0, i - 0x200000) := by
  obtain ⟨lo, hi⟩ := hi
  unfold Machine.windowOf
  rw [if_neg (by omega), if_neg (by omega), if_pos ⟨lo, hi⟩]

theorem inYards_tile (p o : Nat) : InYards (blockBase .tile p + o) := by
  unfold InYards
  rw [blockBase_tile]
  omega

theorem inYards_yard (y o : Nat) : InYards (blockBase .yard y + o) := by
  unfold InYards
  rw [blockBase_yard]
  omega

theorem InHalyard.ne_of_inYards {i j : Nat} (hi : InHalyard i) (hj : InYards j) : i ≠ j := by
  unfold InHalyard InYards at *
  omega

theorem InHalyard.above_log {i : Nat} (hi : InHalyard i) : i < Reg.bosLogNewestLo ∨ Reg.bosLogOldestHi < i := by
  obtain ⟨lo, -⟩ := hi
  rw [bosLogOldestHi_eq]
  omega

/-- From `d` to `e` the halyard's registers, memory and the presses stay as they are. -/
structure Dev.KeepsCentre (d e : Dev) : Prop where
  reg : ∀ {i}, InHalyard i → e.reg i = d.reg i
  mem : e.mem = d.mem
  press : e.press = d.press

namespace Dev.KeepsCentre

variable {d e : Dev}

theorem refl (d : Dev) : d.KeepsCentre d := ⟨fun _ => rfl, rfl, rfl⟩

theorem trans {f : Dev} (h : d.KeepsCentre e) (k : e.KeepsCentre f) : d.KeepsCentre f :=
  ⟨fun hi => (k.reg hi).trans (h.reg hi), k.mem.trans h.mem, k.press.trans h.press⟩

theorem foldl {β : Type} {f : Dev → β → Dev} (h : d.KeepsCentre e) (hf : ∀ (d : Dev) b, d.KeepsCentre (f d b)) (l : List β) :
    d.KeepsCentre (l.foldl f e) :=
  List.foldlRecOn l f h (fun e he b _ => he.trans (hf e b))

theorem setReg (h : d.KeepsCentre e) {off : Nat} (hoff : InYards off) (v : Nat) : d.KeepsCentre (e.setReg off v) :=
  h.trans ⟨fun hi => e.reg_setReg_other v (hi.ne_of_inYards hoff), rfl, rfl⟩

theorem setFlag (h : d.KeepsCentre e) {off : Nat} (hoff : InYards off) (f : Fld) (b : Bool) : d.KeepsCentre (e.setFlag off f b) :=
  h.setReg hoff _

theorem setReg64 (h : d.KeepsCentre e) {lo hi : Nat} (hlo : InYards lo) (hhi : InYards hi) (v : Nat) :
    d.KeepsCentre (e.setReg64 lo hi v) :=
  (h.setReg hlo _).setReg hhi _

theorem modTile (h : d.KeepsCentre e) (p : Nat) (f : Tile → Tile) : d.KeepsCentre (e.modTile p f) :=
  h.trans ⟨fun _ => e.reg_modTile p f _, e.modTile_mem p f, e.modTile_press p f⟩

theorem modCore (h : d.KeepsCentre e) (p c : Nat) (f : Core → Core) : d.KeepsCentre (e.modCore p c f) := by
  unfold Dev.modCore Dev.setCore
  exact h.modTile p _

theorem modCores (h : d.KeepsCentre e) (p : Nat) (f : Core → Core) : d.KeepsCentre (e.modCores p f) :=
  h.foldl (fun d c => (refl d).modCore p c f) [0, 1, 2, 3]

theorem notice (h : d.KeepsCentre e) (block kind inst : Nat) : d.KeepsCentre (e.notice block kind inst) :=
  h.trans ⟨fun _ => e.reg_notice block kind inst _, rfl, rfl⟩

theorem logEv (h : d.KeepsCentre e) (cls block inst kind : Nat) (data : List Word) (first : Bool) :
    d.KeepsCentre (e.logEv cls block inst kind data first) := by
  refine h.trans ⟨fun hi => e.reg_logEv _ _ _ _ _ _ hi.above_log, ?_, ?_⟩ <;>
    obtain ⟨-, b, eq⟩ | ⟨b, -, eq⟩ := e.logEv_cases cls block inst kind data first <;> rw [eq]
  · exact Dev.showLog_mem _
  · unfold Dev.showLog
    rw [Dev.setReg64_press, Dev.setReg64_press]

end Dev.KeepsCentre

open Dev (KeepsCentre)

/-! ### The release at a tile, at a core, at a yard's slices -/

theorem Dev.tileRelease_keepsCentre (d : Dev) (b : Nat) (v : Word) (p : Nat) : d.KeepsCentre (d.tileRelease b v p) := by
  unfold Dev.tileRelease
  exact ((((KeepsCentre.refl d).setReg (inYards_tile p _) _).setReg (inYards_tile p _) _).setReg (inYards_tile p _) _).modTile
    p _

theorem Dev.sliceRelease_keepsCentre (d : Dev) (y b : Nat) : d.KeepsCentre (d.sliceRelease y b) := by
  unfold Dev.sliceRelease
  dsimp only
  split
  · exact .refl d
  · refine KeepsCentre.setFlag (.foldl (.refl d) (fun e s => ?_) _) (inYards_yard y _) _ _
    split
    · have owner : InYards (Reg.yardSliceOwner y (s / 4)) := by
        unfold Reg.yardSliceOwner
        rw [Nat.add_assoc]
        exact inYards_yard y _
      exact (KeepsCentre.refl e).setReg owner _
    · exact (KeepsCentre.refl e).logEv ..

/-! ### A decision at a tile: held for hdec, or a step-skew fault (R43, R157) -/

theorem Dev.stopTile_keepsCentre (d : Dev) (p : Nat) : d.KeepsCentre (d.stopTile p) := by
  unfold Dev.stopTile
  exact ((KeepsCentre.refl d).modCores p _).modTile p _

theorem Dev.progFault_keepsCentre (d : Dev) (p c cls fn pc cause : Nat) (addr : DWord) :
    d.KeepsCentre (d.progFault p c cls fn pc cause addr) := by
  have whole := KeepsCentre.refl d
  have fault : InYards (Reg.tileProgFault p) := inYards_tile p _
  unfold Dev.progFault
  dsimp only
  refine KeepsCentre.notice (.trans ?_ (Dev.stopTile_keepsCentre _ p)) _ _ _
  split <;> split
  · exact (whole.setFlag fault _ _).setReg (inYards_tile p _) _
  · exact whole.setFlag fault _ _
  · exact (((whole.setReg fault _).setReg (inYards_tile p _) _).setReg64 (inYards_tile p _) (inYards_tile p _) _).setReg
      (inYards_tile p _) _
  · exact ((whole.setReg fault _).setReg (inYards_tile p _) _).setReg64 (inYards_tile p _) (inYards_tile p _) _

theorem Dev.tileDecision_keepsCentre (d : Dev) (n : Word) (commit : Bool) (p : Nat) : d.KeepsCentre (d.tileDecision n commit p) := by
  unfold Dev.tileDecision
  split
  · exact d.progFault_keepsCentre ..
  · exact (KeepsCentre.refl d).modTile p _

/-! ### The release of a barrier (R247) -/

/-- A 32-bit counter counts modulo 2^32. -/
theorem Dev.reg_incFld_word (d : Dev) (off n : Nat) : (d.incFld off fld32 n).reg off = (d.reg off + n) % 2 ^ 32 := by
  have whole : bitsAt (d.reg off) 0 32 = d.reg off := by
    unfold bitsAt
    rw [Nat.pow_zero, Nat.div_one, Nat.mod_eq_of_lt (d.reg_lt off)]
  unfold Dev.incFld Dev.setFld Dev.fld fld32
  rw [Dev.reg_setReg_same, putBits_word (d.reg_lt off), whole, Nat.mod_mod]

/-- All that a release does besides what it brings the members is to count itself. -/
theorem Dev.releaseInst_counts (d : Dev) (b : Nat) (ys ps : List Nat) (v : Word) :
    ∃ e, d.KeepsCentre e ∧ d.releaseInst b ys ps v = e.incFld Reg.halReleases fld32 1 := by
  unfold Dev.releaseInst
  refine ⟨_, ?_, rfl⟩
  refine KeepsCentre.trans (.foldl (.foldl (.foldl (.refl d) ?_ _) ?_ _) ?_ _) ⟨fun _ => rfl, rfl, rfl⟩
  · exact fun e p => e.tileRelease_keepsCentre b v p
  · exact fun e p => (KeepsCentre.refl e).modCores p _
  · exact fun e y => e.sliceRelease_keepsCentre y b

section Release
variable (d : Dev) (b : Nat) (ys ps : List Nat) (v : Word)

theorem Dev.reg_releaseInst_releases :
    (d.releaseInst b ys ps v).reg Reg.halReleases = (d.reg Reg.halReleases + 1) % 2 ^ 32 := by
  obtain ⟨e, keeps, eq⟩ := d.releaseInst_counts b ys ps v
  rw [eq, Dev.reg_incFld_word, keeps.reg ⟨by decide, by decide⟩]

theorem Dev.reg_releaseInst {i : Nat} (hi : InHalyard i) (hn : i ≠ Reg.halReleases) : (d.releaseInst b ys ps v).reg i = d.reg i := by
  obtain ⟨e, keeps, eq⟩ := d.releaseInst_counts b ys ps v
  rw [eq]
  exact (e.reg_setFld_other fld32 _ hn).trans (keeps.reg hi)

@[simp] theorem Dev.releaseInst_mem : (d.releaseInst b ys ps v).mem = d.mem := by
  obtain ⟨e, keeps, eq⟩ := d.releaseInst_counts b ys ps v
  rw [eq, Dev.incFld_mem, keeps.mem]

@[simp] theorem Dev.releaseInst_press : (d.releaseInst b ys ps v).press = d.press := by
  obtain ⟨e, keeps, eq⟩ := d.releaseInst_counts b ys ps v
  rw [eq, Dev.incFld_press, keeps.press]

/-- The release of a barrier begins no step by itself: HAL_STEP stays. -/
theorem Dev.step_releaseInst : (d.releaseInst b ys ps v).step = d.step := by
  unfold Dev.step
  rw [Dev.reg_releaseInst _ _ _ _ _ ⟨by decide, by decide⟩ (by decide)]

end Release

/-! ## What a decision leaves (R251) -/

/-! ### The copies' VERSIONs and the scale table are written to memory -/

theorem foldl_keeps_reg {β : Type} {f : Dev → β → Dev} {i : Nat} (hf : ∀ (d : Dev) b, (f d b).reg i = d.reg i) (l : List β) (d : Dev) :
    (l.foldl f d).reg i = d.reg i :=
  List.foldlRecOn l f (motive := fun e => e.reg i = d.reg i) rfl (fun e he b _ => (hf e b).trans he)

theorem Dev.reg_putVersion (d : Dev) (y : Layer) (v : Word) (i : Nat) : (d.putVersion y v).reg i = d.reg i := d.reg_store _ _ i

theorem Dev.reg_advanceAll (d : Dev) (v : Word) (i : Nat) : (d.advanceAll v).reg i = d.reg i :=
  foldl_keeps_reg (fun e y => e.reg_putVersion y v i) _ d

theorem Dev.reg_scaleDiscard (d : Dev) (i : Nat) : d.scaleDiscard.reg i = d.reg i :=
  foldl_keeps_reg (fun e _ => (Dev.reg_storeNat _ _ _ _ i).trans (e.reg_storeNat _ _ _ i)) _ d

/-- All that a copy which may take its VERSION does: its head, and the mark that it has it (R314). -/
theorem Dev.tryVersion_cases (d : Dev) (l : Nat) : d.tryVersion l = d
    ∨ ∃ y v, d.tryVersion l = { d.putVersion y v with press := { d.press with verDone := l :: d.press.verDone } } := by
  unfold Dev.tryVersion
  split
  · split
    · exact .inr ⟨_, _, rfl⟩
    · exact .inl rfl
  · exact .inl rfl

/-- Copies that take their VERSION leave the registers, the halyard's state and the decision as they are. -/
theorem Dev.tryVersions_keeps (d : Dev) :
    (∀ i, d.tryVersions.reg i = d.reg i) ∧ d.tryVersions.hal = d.hal ∧ d.tryVersions.press.dec = d.press.dec := by
  unfold Dev.tryVersions
  refine List.foldlRecOn _ _ (motive := fun e : Dev => (∀ i, e.reg i = d.reg i) ∧ e.hal = d.hal ∧ e.press.dec = d.press.dec)
    ⟨fun _ => rfl, rfl, rfl⟩ (fun e he l _ => ?_)
  obtain eq | ⟨y, v, eq⟩ := e.tryVersion_cases l <;> rw [eq]
  · exact he
  · obtain ⟨reg, hal, dec⟩ := he
    have headReg := e.reg_putVersion y v
    have headHal : (e.putVersion y v).hal = e.hal := e.store_hal _ _
    generalize e.putVersion y v = e' at *
    exact ⟨fun i => (headReg i).trans (reg i), headHal.trans hal, dec⟩

/-! ### The decision on the step that runs -/

/-- The halyard's registers with a decision. -/
def Dev.withDecision (d : Dev) (commit : Bool) (flags : Word) : Dev :=
  ((d.setReg Reg.halDec (if commit then 1 else 2)).setReg Reg.halDecStep d.step.toNat).setReg Reg.halDecFlags flags.toNat

section
variable (d : Dev) (commit : Bool) (flags : Word)

theorem Dev.reg_withDecision_dec : (d.withDecision commit flags).reg Reg.halDec = if commit then 1 else 2 := by
  unfold Dev.withDecision
  rw [Dev.reg_setReg_other _ _ (by decide), Dev.reg_setReg_other _ _ (by decide), Dev.reg_setReg_same]
  cases commit <;> rfl

theorem Dev.reg_withDecision_step : (d.withDecision commit flags).reg Reg.halDecStep = d.step.toNat := by
  unfold Dev.withDecision
  rw [Dev.reg_setReg_other _ _ (by decide), Dev.reg_setReg_word]

theorem Dev.reg_withDecision_flags : (d.withDecision commit flags).reg Reg.halDecFlags = flags.toNat :=
  Dev.reg_setReg_word _ _ flags

end

theorem Dev.step_toNat (d : Dev) : d.step.toNat = d.reg Reg.halStep := by
  unfold Dev.step w32
  rw [BitVec.toNat_ofNat, Nat.mod_eq_of_lt (d.reg_lt _)]

/-- A decision tagged with the running step stands in the halyard's registers, is marked as given and reaches the presses. -/
theorem Dev.decide_atStep (d : Dev) (commit : Bool) (flags : Word) :
    (∀ {i}, InHalyard i → (d.decide_ commit flags d.step).reg i = (d.withDecision commit flags).reg i)
      ∧ (d.decide_ commit flags d.step).hal.decGiven = true
      ∧ (d.decide_ commit flags d.step).press.dec = some (d.step, commit) := by
  have noSkew : (d.step != d.step) = false := bne_self_eq_false d.step
  unfold Dev.decide_
  simp only [noSkew, Bool.false_eq_true, if_false]
  generalize hr : List.foldl (fun (e : Dev) p => e.tileDecision d.step commit p) _ _ = reached
  have members : (d.withDecision commit flags).KeepsCentre reached :=
    hr ▸ KeepsCentre.foldl (.refl _) (fun e p => e.tileDecision_keepsCentre d.step commit p) _
  obtain ⟨reg, hal, dec⟩ := Dev.tryVersions_keeps _
  refine ⟨fun hi => (reg _).trans (Eq.trans ?_ (members.reg hi)), hal ▸ rfl, dec⟩
  cases commit
  · exact (Dev.reg_scaleDiscard _ _).trans (Dev.reg_advanceAll _ _ _)
  · exact foldl_keeps_reg (fun e y => e.reg_putVersion y _ _) _ reached

/-! ## The barriers of a job on one device, and the roots' arrivals of the others (R42, R251, R258) -/

section Alone
variable {d : Dev} (h : d.multi = false)
include h

theorem Dev.rootArrives_alone (b : Nat) (own : Option (Word × Word)) (n : Option Word) (dg : Option (Word × Word)) :
    d.rootArrives b own n dg = d := by
  unfold Dev.rootArrives
  rw [h]
  rfl

theorem Dev.peersIn_alone (peers : PeerArr) : d.peersIn peers = true := by
  unfold Dev.peersIn
  rw [h]
  rfl

theorem Dev.jobFlags_alone (own : Option (Word × Word)) (peers : PeerArr) : d.jobFlags own peers = own := by
  unfold Dev.jobFlags
  rw [h]
  rfl

theorem Dev.decisionTag_alone (peers : PeerArr) : d.decisionTag peers = d.step := by
  unfold Dev.decisionTag
  rw [h]
  rfl

end Alone

/-- The device with its root's combined arrival at `b` marked as sent. -/
def Dev.markSent (d : Dev) (b : Nat) : Dev := { d with hal := { d.hal with sentArr := d.hal.sentArr ||| barBit b } }

/-- A root that has not sent its combined arrival sends it (R258). -/
theorem Dev.rootArrives_first {d : Dev} {b : Nat} (h : d.multi = true) (hs : d.hal.sentArr.getLsbD b = false)
    (own : Option (Word × Word)) (n : Option Word) (dg : Option (Word × Word)) :
    d.rootArrives b own n dg
      = (d.markSent b).send (.arrival b (own.getD (0, 0xFFFFFFFF#32)).1 (own.getD (0, 0xFFFFFFFF#32)).2 n dg) := by
  unfold Dev.rootArrives
  rw [h, hs]
  rfl

theorem Dev.peersIn_waits {d : Dev} {peers : PeerArr} (h : d.multi = true) (hp : peers.arrived = false) : d.peersIn peers = false := by
  unfold Dev.peersIn
  rw [h, hp]
  rfl

/-! ### The decision barrier -/

/-- The bits that the presses' digests have in common, set and clear, as the root's arrival carries them (R307). -/
def Dev.digests (d : Dev) : Word × Word :=
  let ds := [0, 1, 2, 3].map (fun c => (d.pr c).digest)
  (ds.foldl (· &&& ·) 0xFFFFFFFF#32, ds.foldl (fun x y => x &&& ~~~ y) 0xFFFFFFFF#32)

/-- The combined arrival of the device's root at the decision barrier (R251, R258). -/
def Dev.decisionArrival (d : Dev) : Msg :=
  .arrival d.decBar (d.ownWithPresses.getD (0, 0xFFFFFFFF#32)).1 (d.ownWithPresses.getD (0, 0xFFFFFFFF#32)).2 (some d.step)
    (some d.digests)

/-- Does a decision with these reduced flags commit (R42)? -/
def Dev.commits (d : Dev) (flags : Word) : Bool := flags &&& w32 (d.reg Reg.halSkipSet) == 0

/-- The device after a decision with these reduced flags on the step that runs. -/
def Dev.decided (d : Dev) (flags : Word) : Dev :=
  (d.releaseInst d.decBar allYards d.served flags).decide_ (d.commits flags) flags d.step

theorem Dev.decided_regs (d : Dev) (flags : Word) :
    (d.decided flags).reg Reg.halDec = (if d.commits flags then 1 else 2) ∧ (d.decided flags).reg Reg.halDecStep = d.reg Reg.halStep
      ∧ (d.decided flags).reg Reg.halDecFlags = flags.toNat := by
  unfold Dev.decided
  have hstep := d.step_releaseInst d.decBar allYards d.served flags
  generalize d.releaseInst d.decBar allYards d.served flags = released at *
  obtain ⟨reg, -, -⟩ := released.decide_atStep (d.commits flags) flags
  rw [← hstep, reg ⟨by decide, by decide⟩, reg ⟨by decide, by decide⟩, reg ⟨by decide, by decide⟩, Dev.reg_withDecision_dec,
    Dev.reg_withDecision_step, Dev.reg_withDecision_flags, hstep, Dev.step_toNat]
  exact ⟨rfl, rfl, rfl⟩

theorem Dev.decided_reaches (d : Dev) (flags : Word) :
    (d.decided flags).hal.decGiven = true ∧ (d.decided flags).press.dec = some (d.step, d.commits flags) := by
  unfold Dev.decided
  rw [← d.step_releaseInst d.decBar allYards d.served flags]
  exact (Dev.decide_atStep _ _ _).2

section Decision
variable {s : State} {peers : PeerArr}

theorem exec_decisionBarrier_notReady (h : s.dev.decisionReady = false) : exec (.decisionBarrierRelease peers) s = answer s s.dev := by
  show execDecisionBarrierRelease peers s = _
  unfold execDecisionBarrierRelease answer
  rw [onDev_eq, h]
  rfl

/-- Before the other roots' arrivals are here, the root sends its own and no more happens. -/
theorem exec_decisionBarrier_rootSends (h : s.dev.decisionReady = true) (hm : s.dev.multi = true)
    (hs : s.dev.hal.sentArr.getLsbD s.dev.decBar = false) (hp : peers.arrived = false) :
    exec (.decisionBarrierRelease peers) s = answer s ((s.dev.markSent s.dev.decBar).send s.dev.decisionArrival) := by
  have sent := Dev.rootArrives_first hm hs s.dev.ownWithPresses (some s.dev.step) (some s.dev.digests)
  have waits : ((s.dev.markSent s.dev.decBar).send s.dev.decisionArrival).peersIn peers = false := Dev.peersIn_waits hm hp
  unfold Dev.digests at sent
  show execDecisionBarrierRelease peers s = _
  unfold execDecisionBarrierRelease answer
  simp only [onDev_eq, h, sent, Bool.not_true, Bool.false_eq_true, if_false]
  exact congrArg (fun d => Host.Outcome.next { s with dev := Dev.canon d }) (if_pos (congrArg not waits))

/-- The decision barrier of a job on one device: bit 6 aborts, else the flags of SKIP_SET decide (R42, R251, R253). -/
theorem exec_decisionBarrier_alone (h : s.dev.decisionReady = true) (hm : s.dev.multi = false) :
    exec (.decisionBarrierRelease peers) s = answer s
      (if bit6 (s.dev.decisionFlags peers) then s.dev.abortHere 8 else s.dev.decided (s.dev.decisionFlags peers)) := by
  show execDecisionBarrierRelease peers s = _
  unfold execDecisionBarrierRelease answer Dev.decided Dev.commits
  simp only [onDev_eq, h, Dev.rootArrives_alone hm, Dev.peersIn_alone hm, Dev.decisionTag_alone hm, Bool.not_true, Bool.false_eq_true,
    if_false]

end Decision

/-! ### The commit barrier (R252, R329) -/

/-- The tiles that must arrive at the commit barrier. -/
def Dev.comMembers (d : Dev) : List Nat := d.membersOf d.comBar (d.tiles.map (·.1))

/-- The reduced flags of the commit barrier in a job on one device. -/
def Dev.comFlags (d : Dev) : Word := reducedValue d.flagMode (d.tileFlags d.comBar d.comMembers)

/-- Do named tiles and presses of a running job stand at the commit barrier? -/
def Dev.commitReady (d : Dev) : Prop :=
  d.barScope d.comBar = 3 ∧ d.runningJob = true ∧ d.hal.aborting = false ∧ d.allArrived d.comBar d.comMembers = true
    ∧ [0, 1, 2, 3].all (fun c => (d.pr c).comArr) = true

/-- From here an abort is held, and the record is on its way (R329). -/
def Dev.holdsAborts (d : Dev) : Dev :=
  { d with
    hal := { d.hal with holding := true },
    press := { d.press with recWait := true, p := d.press.p.map (fun e => (e.1, { e.2 with comArr := false })) } }

/-- The device after the commit barrier's release in a job on one device. -/
def Dev.committed (d : Dev) : Dev := (d.releaseInst d.comBar allYards d.comMembers d.comFlags).holdsAborts

theorem exec_commitBarrier_alone {s : State} {peers : PeerArr} (hm : s.dev.multi = false) (h : s.dev.commitReady) :
    exec (.commitBarrierRelease peers) s = answer s (if bit6 s.dev.comFlags then s.dev.abortHere 8 else s.dev.committed) := by
  obtain ⟨hscope, hrun, hab, htiles, hpress⟩ := h
  unfold Dev.comMembers at htiles
  show execCommitBarrierRelease peers s = _
  unfold execCommitBarrierRelease answer Dev.committed Dev.holdsAborts Dev.comFlags Dev.comMembers
  simp only [onDev_eq, hscope, hrun, hab, htiles, hpress, Dev.rootArrives_alone hm, Dev.peersIn_alone hm, Dev.jobFlags_alone hm,
    ne_eq, not_true_eq_false, Bool.not_true, Bool.false_eq_true, or_self, if_false]

theorem Dev.reg_committed_releases (d : Dev) : d.committed.reg Reg.halReleases = (d.reg Reg.halReleases + 1) % 2 ^ 32 :=
  d.reg_releaseInst_releases _ _ _ _

theorem Dev.byte_committed (d : Dev) (a : Nat) : d.committed.byte a = d.byte a :=
  congrArg (Sparse.get memReset · a) (d.releaseInst_mem _ _ _ _)

/-! ## The obligation -/

/-- Settles O28: the decision barrier, case by case, and the commit barrier's release. -/
theorem decisionAndCommit : Obligations.DecisionAndCommit := by
  intro s peers
  refine ⟨exec_decisionBarrier_notReady, fun h hm hs hp => ?_, fun h hm => ⟨fun hv => ?_, fun hv => ?_⟩, ?_⟩
  · refine ⟨_, some s.dev.digests, exec_decisionBarrier_rootSends h hm hs hp, ?_, rfl⟩
    rw [Dev.reg_canon, Dev.reg_send]
    rfl
  · rw [exec_decisionBarrier_alone h hm, if_pos (show bit6 _ = true from hv)]
  · have goes := exec_decisionBarrier_alone (peers := peers) h hm
    rw [if_neg (show ¬ bit6 _ = true from Bool.eq_false_iff.mp hv)] at goes
    obtain ⟨dec, step, flags⟩ := s.dev.decided_regs (s.dev.decisionFlags peers)
    obtain ⟨given, told⟩ := s.dev.decided_reaches (s.dev.decisionFlags peers)
    exact ⟨_, goes, (Dev.reg_canon ..).trans dec, (Dev.reg_canon ..).trans step, (Dev.reg_canon ..).trans flags, given, told⟩
  · intro b ps hm hscope hrun hab htiles hpress hv
    have ready : s.dev.commitReady := ⟨hscope, hrun, hab, List.all_eq_true.mpr htiles,
      List.all_eq_true.mpr fun c hc => hpress c (by simp at hc; omega)⟩
    have goes := exec_commitBarrier_alone (peers := peers) hm ready
    rw [if_neg (show ¬ bit6 s.dev.comFlags = true from Bool.eq_false_iff.mp hv)] at goes
    exact ⟨_, goes, rfl, rfl, (Dev.reg_canon ..).trans s.dev.reg_committed_releases,
      fun a => (Dev.byte_canon ..).trans (s.dev.byte_committed a)⟩

end Sys2Proof.Machine

namespace Sys2Proof.Machine

/-! # Issue of matrix instructions (R93, R95, R102, R106, R148) -/

/-! ## A load from the tile's store that succeeds (R141) -/

theorem localOk_iff {a : DWord} {align n : Nat} : localOk a align n = true ↔ a.toNat + n ≤ storeBytes ∧ a.toNat % align = 0 := by
  simp [localOk]

theorem loadLocal_sound {d : Dev} {h : Iss} {a : DWord} {align n : Nat} (k : Dev → Res) (hok : localOk a align n = true)
    (hread : d.readStore h.slot a.toNat n (coreMaster h) = (d, true)) : loadLocal d h a align n k = k d := by
  unfold loadLocal
  simp [hok, hread]

/-! ## Room in the queues (R102) -/

/-- The queues that the instruction joins have room: a close's epilogue queue of two, both arrays' queues of four for a paired
stream, else its array's queue of four. -/
def Tile.mqRoom (t : Tile) (mop : Nat) (f : MFields) : Prop :=
  if mop = mopClose then t.epQ f.arr < 2 else if mop = mopPair then t.arrQ 0 < 4 ∧ t.arrQ 1 < 4 else t.arrQ f.arr < 4

theorem Tile.mqFull_eq_false_iff (t : Tile) (mop : Nat) (f : MFields) : t.mqFull mop f = false ↔ t.mqRoom mop f := by
  unfold Tile.mqFull Tile.mqRoom
  by_cases hclose : mop = mopClose
  · simp [hclose]
  · by_cases hpair : mop = mopPair
    · simp [hpair, show mopPair ≠ mopClose by decide]
    · simp [hclose, hpair]

/-! ## The instructions that queue -/

section Enqueue
variable {s : State} {h : Iss} {x : Instr} {mop : Nat} {f : MFields}

/-- Each of the six works from its array's queue. -/
theorem exec_enqueues (s : State) (hx : (mop, x) ∈ ([(0, .mload h f), (1, .mopen h f), (2, .mstream h f), (3, .mpair h f),
    (4, .mclose h f), (5, .mdrop h f)] : List (Nat × Instr))) : exec x s = enqueueMatrix h x mop f s := by
  simp only [List.mem_cons, Prod.mk.injEq, List.not_mem_nil, or_false] at hx
  obtain ⟨rfl, rfl⟩ | ⟨rfl, rfl⟩ | ⟨rfl, rfl⟩ | ⟨rfl, rfl⟩ | ⟨rfl, rfl⟩ | ⟨rfl, rfl⟩ := hx <;> rfl

variable (hon : s.dev.on h) (hr : Ready s.dev h 0x0F true (if mop = mopClose then [f.sa, f.sb] else []) [])
  (hl : matrixLegal mop f = true)
include hon hr hl

theorem enqueueMatrix_count_fault (hc : countOk mop f = false) :
    enqueueMatrix h x mop f s
      = answer s (s.dev.matrixFault h.slot (s.dev.at_ h).pc mop 3 (f.arr.val % 2) f.grp (b2n f.bank) f.ep) :=
  tileInstr_raised hr hl (.inr hon) (by simp [hc, mRaise])

theorem enqueueMatrix_waits (hc : countOk mop f = true) (hroom : ¬ (s.dev.tile h.slot).mqRoom mop f) :
    enqueueMatrix h x mop f s = answer s (s.dev.waits h x) := by
  rw [← Tile.mqFull_eq_false_iff, Bool.not_eq_false] at hroom
  exact tileInstr_stall hr hl (.inr hon) (by simp [hc, hroom])

theorem enqueueMatrix_joins (hc : countOk mop f = true) (hroom : (s.dev.tile h.slot).mqRoom mop f) :
    enqueueMatrix h x mop f s = answer s ((s.dev.modTile h.slot (fun t => { t with
      mq := t.mq ++ [⟨mop, f, (s.dev.at_ h).sreg f.sa, (s.dev.at_ h).sreg f.sb, h.core, (s.dev.at_ h).pc, false, 0⟩] })).retired h true) := by
  rw [← Tile.mqFull_eq_false_iff] at hroom
  exact tileInstr_done hr hl (.inr hon) (by simp [hc, hroom])

end Enqueue

theorem matrixQueues : Parts.MatrixQueues := by
  intro s h f mop x hon hx hr hl
  rw [exec_enqueues s hx]
  cases hc : countOk mop f
  case false => exact enqueueMatrix_count_fault hon hr hl hc
  case true =>
    by_cases hroom : (s.dev.tile h.slot).mqRoom mop f
    · exact (enqueueMatrix_joins hon hr hl hc hroom).trans (if_pos hroom).symm
    · exact (enqueueMatrix_waits hon hr hl hc hroom).trans (if_neg hroom).symm

/-! ## Epilogue descriptors (R93, R95) -/

section Epilogue
variable {s : State} {h : Iss} {f : MFields} (hon : s.dev.on h) (hr : Ready s.dev h 0x0F true [f.sa] [])
  (hl : matrixLegal 6 f = true)

theorem exec_mepl : exec (.mepl h f) s = execMepl h f s := rfl

/-- The test of `mepl` finds a queued close that uses its descriptor. -/
theorem any_close_iff (mq : List MEnt) (ep : Fin 8) :
    mq.any (fun e => e.mop == mopClose && e.f.ep == ep) = true ↔ ∃ e ∈ mq, e.mop = 4 ∧ e.f.ep = ep := by
  simp [mopClose]

include hon hr hl

theorem execMepl_waits (hq : ∃ e ∈ (s.dev.tile h.slot).mq, e.mop = 4 ∧ e.f.ep = f.ep) :
    execMepl h f s = answer s (s.dev.waits h (.mepl h f)) :=
  tileInstr_stall hr hl (.inr hon) (if_pos ((any_close_iff _ _).mpr hq))

variable (hq : ¬ ∃ e ∈ (s.dev.tile h.slot).mq, e.mop = 4 ∧ e.f.ep = f.ep)
  (hok : localOk ((s.dev.at_ h).sreg f.sa) 32 32 = true)
  (hread : s.dev.readStore h.slot ((s.dev.at_ h).sreg f.sa).toNat 32 (coreMaster h) = (s.dev, true))
  {v : BitVec 256} (hv : v = BitVec.ofNat 256 (s.dev.nat (tileBase h.slot + ((s.dev.at_ h).sreg f.sa).toNat) 32))
include hq hok hread hv

theorem execMepl_loads (hlegal : epLegal v = true) :
    execMepl h f s = answer s ((s.dev.modTile h.slot (fun t => t.setEp f.ep v)).retired h true) := by
  subst hv
  exact tileInstr_done hr hl (.inr hon)
    ((if_neg (mt (any_close_iff _ _).mp hq)).trans ((loadLocal_sound _ hok hread).trans (if_pos hlegal)))

theorem execMepl_faults (hillegal : ¬ epLegal v = true) :
    execMepl h f s = answer s (s.dev.matrixFault h.slot (s.dev.at_ h).pc 6 4 (f.arr.val % 2) f.grp (b2n f.bank) f.ep) := by
  subst hv
  exact tileInstr_raised hr hl (.inr hon)
    ((if_neg (mt (any_close_iff _ _).mp hq)).trans ((loadLocal_sound _ hok hread).trans (if_neg hillegal)))

end Epilogue

/-! ## Waits for the arrays (R102) -/

section Wait
variable {s : State} {h : Iss} {f : MFields} (hon : s.dev.on h) (hr : Ready s.dev h 0x0F true [] []) (hl : matrixLegal 7 f = true)

theorem exec_mwait : exec (.mwait h f) s = execMwait h f s := rfl

include hon hr hl

theorem execMwait_waits (hq : (s.dev.tile h.slot).mq.any (fun e => f.arr.val == 2 || e.inArray f.arr) = true) :
    execMwait h f s = answer s (s.dev.waits h (.mwait h f)) :=
  tileInstr_stall hr hl (.inr hon) (if_pos hq)

theorem execMwait_passes (hq : ¬ (s.dev.tile h.slot).mq.any (fun e => f.arr.val == 2 || e.inArray f.arr) = true) :
    execMwait h f s = answer s (s.dev.retired h true) :=
  tileInstr_done hr hl (.inr hon) (if_neg hq)

end Wait

theorem matrixWaits : Parts.MatrixWaits := by
  intro s h f hon
  refine ⟨fun hr hl => ⟨fun hq => ?_, fun hq hend hal hread => ?_⟩, fun hr hl => ?_⟩
  · exact exec_mepl.trans (execMepl_waits hon hr hl hq)
  · have hok := localOk_iff.mpr ⟨hend, hal⟩
    rw [exec_mepl]
    split
    case isTrue hlegal => exact execMepl_loads hon hr hl hq hok hread rfl hlegal
    case isFalse hillegal => exact execMepl_faults hon hr hl hq hok hread rfl hillegal
  · simp only [Bool.or_assoc]
    rw [exec_mwait]
    split
    case isTrue hq => exact execMwait_waits hon hr hl hq
    case isFalse hq => exact execMwait_passes hon hr hl hq

/-- Settles O19: the count, the room in the queues, the queued closes and the descriptor decide how a matrix instruction ends. -/
theorem matrixIssue : Obligations.MatrixIssue := ⟨matrixQueues, matrixWaits⟩

end Sys2Proof.Machine

namespace Sys2Proof.Machine
open Sys2Proof.Num

/-! # The units of a vector tile (R112 to R116, R147) -/

/-! ## The sticky bits that a result sets (R111) are registers alone -/

section Flags
variable (d : Dev)

/-- Setting a bit writes the register or changes nothing. -/
theorem Dev.orBit_cases (off i : Nat) (b : Bool) : (∃ v, d.orBit off i b = d.setReg off v) ∨ d.orBit off i b = d := by
  unfold Dev.orBit
  split
  · exact .inl ⟨_, rfl⟩
  · exact .inr rfl

@[simp] theorem Dev.tile_orBit (off i : Nat) (b : Bool) (p : Nat) : (d.orBit off i b).tile p = d.tile p := by
  obtain ⟨v, e⟩ | e := d.orBit_cases off i b <;> simp [e]

@[simp] theorem Dev.byte_orBit (off i : Nat) (b : Bool) (a : Nat) : (d.orBit off i b).byte a = d.byte a := by
  obtain ⟨v, e⟩ | e := d.orBit_cases off i b <;> simp [e]

@[simp] theorem Dev.tile_vecFlags (p : Nat) (sat nf : Bool) (q : Nat) : (d.vecFlags p sat nf).tile q = d.tile q := by
  simp [Dev.vecFlags]

@[simp] theorem Dev.byte_vecFlags (p : Nat) (sat nf : Bool) (a : Nat) : (d.vecFlags p sat nf).byte a = d.byte a := by
  simp [Dev.vecFlags]

end Flags

/-! ## A tile and its core after an update of their own (R108, R127, R128) -/

theorem Dev.tile_modTile_same (d : Dev) (p : Nat) (f : Tile → Tile) : (d.modTile p f).tile p = f (d.tile p) :=
  (d.tile_modTile p f p).trans (if_pos rfl)

theorem Dev.tile_modCore_same (d : Dev) (p c : Nat) (f : Core → Core) :
    (d.modCore p c f).tile p = (d.tile p).setCore c (f (d.core p c)) := d.tile_modTile_same p _

/-- An update of the tile that leaves its cores alone. -/
theorem Dev.core_modTile_same (d : Dev) (p c : Nat) {f : Tile → Tile} (hf : (f (d.tile p)).cores = (d.tile p).cores) :
    (d.modTile p f).core p c = d.core p c := by
  unfold Dev.core Tile.core
  rw [Dev.tile_modTile_same, hf]

theorem Tile.core_setCore_same (t : Tile) (c : Nat) (k : Core) : (t.setCore c k).core c = k :=
  (t.core_setCore c k c).trans (if_pos rfl)

/-- A vector is the fold of its 128 lanes' values, the last lane first. -/
theorem vecOf_eq_foldr_map (f : Nat → Nat) : vecOf f = BitVec.ofNat 2048
    (((List.range 128).map (fun i => f (127 - i))).foldr (fun x acc => acc * 2 ^ 16 + x % 2 ^ 16) 0) := by
  unfold vecOf
  rw [List.foldr_map]

/-- Two ways to fill the lanes that agree on all 128 give one vector. -/
theorem vecOf_congr {f f' : Nat → Nat} (h : ∀ i < 128, f i = f' i) : vecOf f = vecOf f' := by
  have hmap : (List.range 128).map (fun i => f (127 - i)) = (List.range 128).map (fun i => f' (127 - i)) :=
    List.map_congr_left fun i _ => h (127 - i) (by omega)
  rw [vecOf_eq_foldr_map, vecOf_eq_foldr_map, hmap]

theorem Core.putLanes_congr (k : Core) (g : Pred) (r : Nat) {f f' : Nat → Nat} (h : ∀ i < 128, f i = f' i) :
    k.putLanes g r f = k.putLanes g r f' := by
  unfold Core.putLanes
  exact congrArg (k.setV r) (vecOf_congr fun i hi => by rw [h i hi])

/-- A written register reads back; s0 reads 0 (R127). -/
theorem Core.sreg_setS_same (k : Core) (r : R5) (v : DWord) : (k.setS r v).sreg r = if r = 0 then 0 else v := by
  rw [Core.sreg_setS]
  by_cases hr : r = 0
  · rw [if_neg (fun e => e.2 hr), if_pos hr, hr, Core.sreg_zero]
  · rw [if_pos ⟨rfl, hr⟩, if_neg hr]

/-! ## Queues of four (R112, R147) -/

section Queues
variable {s : State} {h : Iss} {x : Instr} {fn : Nat} {d a b : R5} {bin16 : Bool} {hi : Word}

/-- Each special function works from the unit's queue. -/
theorem exec_enqueuesSfu (s : State) (hx : (fn, x) ∈ ([(0, .vrcp h d a bin16), (1, .vrsqrt h d a bin16), (2, .vexp h d a bin16),
    (3, .vexp2 h d a bin16), (4, .vlog h d a bin16), (5, .vlog2 h d a bin16), (6, .vsigm h d a bin16), (7, .vtanh h d a bin16),
    (8, .vsilu h d a bin16), (9, .verf h d a bin16)] : List (Nat × Instr))) : exec x s = enqueueSfu h x fn bin16 d a s := by
  simp only [List.mem_cons, Prod.mk.injEq, List.not_mem_nil, or_false] at hx
  obtain ⟨rfl, rfl⟩ | ⟨rfl, rfl⟩ | ⟨rfl, rfl⟩ | ⟨rfl, rfl⟩ | ⟨rfl, rfl⟩ | ⟨rfl, rfl⟩ | ⟨rfl, rfl⟩ | ⟨rfl, rfl⟩ | ⟨rfl, rfl⟩
    | ⟨rfl, rfl⟩ := hx <;> rfl

theorem exec_enqueuesRed (s : State) {vec : Bool} (hx : (fn, x) ∈ ([(0, .vredSum h d a b vec bin16), (1, .vredSumsq h d a b vec bin16),
    (2, .vredMin h d a b vec bin16), (3, .vredMax h d a b vec bin16), (4, .vredAmax h d a b vec bin16)] : List (Nat × Instr))) :
    exec x s = enqueueRed h x fn d a b vec bin16 s := by
  simp only [List.mem_cons, Prod.mk.injEq, List.not_mem_nil, or_false] at hx
  obtain ⟨rfl, rfl⟩ | ⟨rfl, rfl⟩ | ⟨rfl, rfl⟩ | ⟨rfl, rfl⟩ | ⟨rfl, rfl⟩ := hx <;> rfl

theorem exec_enqueuesQuant (s : State) (hx : (fn, x) ∈ ([(0, .qrow h a b hi), (1, .qmerge h a b hi)] : List (Nat × Instr))) :
    exec x s = enqueueQuant h x fn a b hi s := by
  simp only [List.mem_cons, Prod.mk.injEq, List.not_mem_nil, or_false] at hx
  obtain ⟨rfl, rfl⟩ | ⟨rfl, rfl⟩ := hx <;> rfl

theorem enqueueSfu_eq (hon : s.dev.onV h) (hr : Ready s.dev h 0x0C false [] [d, a]) :
    enqueueSfu h x fn bin16 d a s = if (s.dev.tile h.slot).sfu.length < 4
      then answer s ((s.dev.modTile h.slot (fun t => { t with
        sfu := t.sfu ++ [⟨fn, (s.dev.at_ h).guard h, d, 0, 0, (s.dev.at_ h).vreg a, true, bin16, 0, (s.dev.at_ h).pc⟩] })).retired h false)
      else answer s (s.dev.waits h x) := by
  have hg : ((s.dev.at_ h).guard h != 0) = true := bne_iff_ne.mpr hon
  split
  case isTrue hroom => exact tileInstr_done hr rfl (.inr hg) (if_neg (Nat.not_le.mpr hroom))
  case isFalse hfull => exact tileInstr_stall hr rfl (.inr hg) (if_pos (Nat.not_lt.mp hfull))

/-- A reduction of the 128 lanes of a register. -/
theorem enqueueRed_vec_eq (hon : s.dev.on h) (hr : Ready s.dev h 0x0D false [d] [a]) :
    enqueueRed h x fn d a b true bin16 s = if (s.dev.tile h.slot).red.length < 4
      then answer s ((s.dev.modTile h.slot (fun t => { t with red := t.red ++ [⟨fn, (s.dev.at_ h).guard h, d, (s.dev.at_ h).sreg a, 128,
        (s.dev.at_ h).vreg a, true, bin16, 0, (s.dev.at_ h).pc⟩] })).retired h false)
      else answer s (s.dev.waits h x) := by
  split
  case isTrue hroom => exact tileInstr_done hr rfl (.inr hon) (if_neg (Nat.not_le.mpr hroom))
  case isFalse hfull => exact tileInstr_stall hr rfl (.inr hon) (if_pos (Nat.not_lt.mp hfull))

theorem enqueueQuant_eq (hon : s.dev.on h) (hr : Ready s.dev h 0x0E true [a, b] []) (hl : quantLegal fn hi = true) :
    enqueueQuant h x fn a b hi s = if (s.dev.tile h.slot).qnt.length < 4
      then answer s ((s.dev.modTile h.slot (fun t => { t with qnt := t.qnt ++ [⟨fn, (s.dev.at_ h).guard h, 0, (s.dev.at_ h).sreg a,
        (s.dev.at_ h).sreg b, 0, false, false, hi, (s.dev.at_ h).pc⟩] })).retired h true)
      else answer s (s.dev.waits h x) := by
  split
  case isTrue hroom => exact tileInstr_done hr hl (.inr hon) (if_neg (Nat.not_le.mpr hroom))
  case isFalse hfull => exact tileInstr_stall hr hl (.inr hon) (if_pos (Nat.not_lt.mp hfull))

end Queues

theorem unitQueues : Parts.UnitQueues := by
  intro s h d a b bin16 hi ⟨honV, hon⟩
  refine ⟨fun hr fn x hx => ?_, fun hr fn x hx => ?_, fun hr fn x hx hl => ?_⟩
  · exact (exec_enqueuesSfu s hx).trans (enqueueSfu_eq honV hr)
  · exact (exec_enqueuesRed s hx).trans (enqueueRed_vec_eq hon hr)
  · exact (exec_enqueuesQuant s hx).trans (enqueueQuant_eq hon hr hl)

/-! ## Results (R112 to R116) -/

section Results
variable {s : State} {d : Dev} {p : Slot} {e : VEnt} {es : List VEnt}

theorem exec_unitResult_sfu (hq : (s.dev.tile p).sfu = e :: es) :
    exec (.vtUnitResult p .sfu) s = answer s ((s.dev.sfuResult p e).modTile p (fun t => { t with sfu := es })) := by
  show execVtUnitResult p .sfu s = _
  simp only [execVtUnitResult, onDev_eq, hq, answer]

theorem exec_unitResult_red (hq : (s.dev.tile p).red = e :: es) : exec (.vtUnitResult p .red) s
    = answer s ((s.dev.redResult p e).modTile p (fun t => { t with red := if t.red = [] then [] else es })) := by
  show execVtUnitResult p .red s = _
  simp only [execVtUnitResult, onDev_eq, hq, answer]

theorem exec_unitResult_qnt (hq : (s.dev.tile p).qnt = e :: es) :
    exec (.vtUnitResult p .qnt) s = answer s (s.dev.quantRows p e e.b.toNat) := by
  show execVtUnitResult p .qnt s = _
  simp only [execVtUnitResult, onDev_eq, hq, answer]

/-- The result of lane i is the function of lane i of the operand: the tile's core 0 gets them, in the guarded lanes. -/
theorem Dev.tile_sfuResult (d : Dev) (p : Nat) (e : VEnt) : (d.sfuResult p e).tile p
    = (d.tile p).setCore 0 ((d.core p 0).putLanes e.g e.d (fun i => (sfuLane e.fn e.bin16 (lane e.vin i)).code)) := by
  simp only [Dev.sfuResult, Dev.tile_vecFlags, Dev.tile_modCore_same]
  refine congrArg ((d.tile p).setCore 0) (Core.putLanes_congr _ _ _ fun i hi => ?_)
  simp [List.getD, List.getElem?_range hi]

theorem Dev.core_sfuResult (d : Dev) (p : Nat) (e : VEnt) : (d.sfuResult p e).core p 0
    = (d.core p 0).putLanes e.g e.d (fun i => (sfuLane e.fn e.bin16 (lane e.vin i)).code) := by
  unfold Dev.core
  rw [Dev.tile_sfuResult, Tile.core_setCore_same]
  rfl

theorem Dev.byte_sfuResult (d : Dev) (p : Nat) (e : VEnt) (a : Nat) : (d.sfuResult p e).byte a = d.byte a := by
  simp only [Dev.sfuResult, Dev.byte_vecFlags, Dev.byte_modCore]

/-- The elements of a reduction of a register, by lane (R114). -/
def VEnt.laneValues (e : VEnt) : List NV :=
  (List.range 128).map (fun i => (if e.bin16 then binary16 else bf16).dec (lane e.vin i).toNat)

theorem Dev.tile_redResult_vec (d : Dev) (p : Nat) (hvec : e.vec = true) : (d.redResult p e).tile p
    = (d.tile p).setCore 0 ((d.core p 0).setS e.d (w64 (to32 (rowReduce e.fn e.laneValues)))) := by
  simp only [Dev.redResult, hvec, if_true, Bool.not_true, Bool.false_eq_true, if_false, Dev.tile_orBit, Dev.tile_modCore_same,
    List.map_map]
  rfl

theorem Dev.core_redResult_vec (d : Dev) (p : Nat) (hvec : e.vec = true) :
    (d.redResult p e).core p 0 = (d.core p 0).setS e.d (w64 (to32 (rowReduce e.fn e.laneValues))) := by
  unfold Dev.core
  rw [Dev.tile_redResult_vec d p hvec, Tile.core_setCore_same]
  rfl

/-- The last row of a quantise instruction takes it off the queue. -/
theorem Dev.quantRows_last {d' : Dev} (hrow : d.quantRow p e = .done d') :
    d.quantRows p e 1 = d'.modTile p (fun t => { t with qnt := t.qnt.tail }) := by
  simp only [Dev.quantRows, hrow]

end Results

theorem unitResults : Parts.UnitResults := by
  intro s p e es
  refine ⟨fun hq => ⟨_, exec_unitResult_sfu hq, ?_, ?_, fun a => ?_⟩, fun hq hvec => ⟨_, exec_unitResult_red hq, ?_, ?_⟩,
    fun hq hb d' hrow => ?_⟩
  · simp [Dev.tile_modTile_same]
  · simp only [Dev.core_canon, Dev.core_modTile_same, Dev.core_sfuResult]
  · simp [Dev.byte_sfuResult]
  · simp [Dev.tile_modTile_same, Dev.tile_redResult_vec _ _ hvec, hq]
  · simp only [Dev.core_canon, Dev.core_modTile_same, Dev.core_redResult_vec _ _ hvec]
    exact Core.sreg_setS_same _ _ _
  · rw [exec_unitResult_qnt hq, hb]
    exact congrArg (answer s) (Dev.quantRows_last hrow)

/-- Settles O18: an instruction joins a unit's queue of four or waits, and the oldest one leaves with its result. -/
theorem tileUnits : Obligations.TileUnits := ⟨unitQueues, unitResults⟩

end Sys2Proof.Machine

namespace Sys2Proof.Machine

/-! # Descriptor engines (R121, R122, R151, R218, R219) -/

/-! ## The instructions (R151) -/

section Instructions
variable {s : State} {h : Iss} {a d : R5} {e : Fin 4} {ee : R5} (hee : ee.val < 4) (hon : s.dev.on h)
include hee hon

theorem execDpost_waits (hr : Ready s.dev h 0x13 false [a] []) (hfull : 16 ≤ ((s.dev.tile h.slot).engine ee).q.length) :
    execDpost h a ee s = answer s (s.dev.waits h (.dpost h a ee)) :=
  tileInstr_stall hr (decide_eq_true hee) (.inr hon) (if_pos hfull)

section Posted
variable (hr : Ready s.dev h 0x13 false [a] []) (hroom : ((s.dev.tile h.slot).engine ee).q.length < 16)
  (hok : localOk ((s.dev.at_ h).sreg a) 32 32 = true)
  (hread : s.dev.readStore h.slot ((s.dev.at_ h).sreg a).toNat 32 (coreMaster h) = (s.dev, true))
  {r : DescRun} (hdesc : r = descOf (s.dev.bytes (tileBase h.slot + ((s.dev.at_ h).sreg a).toNat) 32))
include hr hroom hok hread hdesc

/-- A descriptor of a valid shape, its galley side right, joins the queue. -/
theorem execDpost_joins (hvalid : descShape r = true ∧ s.dev.descGalley r = true) :
    execDpost h a ee s = answer s ((s.dev.setEngine h.slot ee { (s.dev.tile h.slot).engine ee with
      q := ((s.dev.tile h.slot).engine ee).q ++ [r], posted := ((s.dev.tile h.slot).engine ee).posted + 1 }).retired h false) := by
  subst hdesc
  exact tileInstr_done hr (decide_eq_true hee) (.inr hon) ((if_neg (Nat.not_le.mpr hroom)).trans
    ((loadLocal_sound _ hok hread).trans (if_pos (Bool.and_eq_true_iff.mpr hvalid))))

/-- Any other stops the engine. -/
theorem execDpost_stops (hvalid : ¬ (descShape r = true ∧ s.dev.descGalley r = true)) :
    execDpost h a ee s = answer s ((s.dev.engineFault h.slot ee 2 ((s.dev.tile h.slot).engine ee).posted).retired h false) := by
  subst hdesc
  exact tileInstr_done hr (decide_eq_true hee) (.inr hon) ((if_neg (Nat.not_le.mpr hroom)).trans
    ((loadLocal_sound _ hok hread).trans (if_neg (mt Bool.and_eq_true_iff.mp hvalid))))

end Posted

theorem execDwait_eq (hr : Ready s.dev h 0x13 false [a] []) : execDwait h a ee s
    = if (w32 (s.dev.reg (Reg.tileCtDescDone h.slot ee)) - ((s.dev.at_ h).sreg a).setWidth 32).toNat < 2 ^ 31
      then answer s (s.dev.retired h false) else answer s (s.dev.waits h (.dwait h a ee)) := by
  split
  case isTrue hpast => exact tileInstr_done hr (decide_eq_true hee) (.inr hon) (if_pos hpast)
  case isFalse hahead => exact tileInstr_stall hr (decide_eq_true hee) (.inr hon) (if_neg hahead)

theorem execDstat_eq (hr : Ready s.dev h 0x13 false [d] []) : execDstat h d ee s
    = answer s ((s.dev.putS h d (w64 ((s.dev.tile h.slot).engine ee).status)).retired h false) :=
  tileInstr_done hr (decide_eq_true hee) (.inr hon) rfl

end Instructions

/-! ## A descriptor without a galley side (R218, R219) -/

section Plain
variable {d : Dev} {r : DescRun} (hsrc : r.srcGal = false) (hdst : r.dstGal = false)

theorem DescRun.addrOf_plain (base stride row off : Nat) : r.addrOf false base stride row off = base + row * stride + off := rfl

include hsrc hdst

theorem DescRun.galSide_plain : r.galSide = none := by simp [DescRun.galSide, hsrc, hdst]

/-- No slot is committed or released at the end of a row. -/
theorem Dev.descRowEnd_plain : d.descRowEnd r = d := by simp [Dev.descRowEnd, DescRun.galSide_plain hsrc hdst]

/-- The next request: up to 256 bytes of the row, and past its last byte the next row begins. -/
theorem Dev.descIssue_plain (hrow : r.row < r.rows) {n : Nat} (hn : n = min 256 (r.rowBytes - r.off)) : d.descIssue r
    = (d, ⟨r.w, if r.off + n = r.rowBytes then r.row + 1 else r.row, if r.off + n = r.rowBytes then 0 else r.off + n,
        r.out ++ [(r.row, r.off, n)], r.slotAt, r.failed⟩) := by
  subst hn
  simp only [Dev.descIssue, Nat.not_le.mpr hrow, if_false, DescRun.galSide_plain hsrc hdst]

/-- A request between two places of this device has moved its bytes. -/
theorem Dev.descComplete_plain {path : Path} {i row off n : Nat} {ans : Remote} {d1 d2 : Dev} {bs : List Byte}
    (hout : r.out[i]? = some (row, off, n)) (hzero : r.zero = false) (hans : ans ≠ .err) (hs : d.isLocal r.src = true)
    (hd : d1.isLocal r.dst = true) (hread : d.memRead path (gaAddr (r.src + row * r.srcStride + off)) n = (d1, some bs))
    (hwrite : d1.memWrite path (gaAddr (r.dst + row * r.dstStride + off)) bs = (d2, true)) :
    d.descComplete path r i ans = .ok d2 { r with out := r.out.eraseIdx i } := by
  have hend : d2.descRowEnd { r with out := r.out.eraseIdx i } = d2 := Dev.descRowEnd_plain hsrc hdst
  simp [Dev.descComplete, hout, hzero, hans, hs, hd, hsrc, hdst, DescRun.addrOf_plain, hread, hwrite, hend]

end Plain

/-! ## The head of a queue (R121, R219) -/

theorem DescRun.finished_iff (r : DescRun) : r.finished = true ↔ r.rows ≤ r.row ∧ r.out = [] := by
  simp [DescRun.finished]

section Head
variable {s : State} {p : Slot} {e : Fin 4} {x : Engine} {run : DescRun} {rest : List DescRun}
  (hx : (s.dev.tile p).engine e = x) (hq : x.q = run :: rest) (hrun : x.stopped = false)
include hx hq hrun

theorem execDescRequestIssue_head (hout : run.out.length < 64) : execDescRequestIssue p e s
    = answer s ((s.dev.descIssue run).1.setEngine p e { x with q := (s.dev.descIssue run).2 :: rest }) := by
  simp [execDescRequestIssue, onDev_eq, answer, hx, hq, hrun, Nat.not_le.mpr hout]

/-- The head's last request counts the descriptor done, any other leaves it at the head. -/
theorem execDescRequestComplete_ok {i : Nat} {ans : Remote} {d : Dev} {run' : DescRun}
    (hok : s.dev.descComplete (.desc p) run i ans = .ok d run') : execDescRequestComplete p e i ans s
    = answer s (if run'.rows ≤ run'.row ∧ run'.out = []
        then (d.setEngine p e { x with q := rest }).incFld (Reg.tileCtDescDone p e) fld32 1
        else d.setEngine p e { x with q := run' :: rest }) := by
  simp [execDescRequestComplete, onDev_eq, answer, hx, hq, hrun, hok, DescRun.finished_iff]

end Head

/-- Settles O24: each instruction reads or posts to its engine, and a plain descriptor's requests issue and complete in turn. -/
theorem descriptorEngines : Obligations.DescriptorEngines := by
  intro s h a d e hon
  refine ⟨fun hr => ⟨fun hfull => ?_, fun hroom hend hal hread => ?_, ?_⟩, fun hr => ?_, fun run rest hq hrun hsrc hdst =>
    ⟨fun hrow hout => ?_, fun i row off n d1 d2 bs ans hi hzero hans hs hd hread hwrite => ?_⟩⟩
  · exact execDpost_waits e.isLt hon hr hfull
  · have hok := localOk_iff.mpr ⟨hend, hal⟩
    split
    case isTrue hvalid => exact execDpost_joins e.isLt hon hr hroom hok hread rfl hvalid
    case isFalse hinvalid => exact execDpost_stops e.isLt hon hr hroom hok hread rfl hinvalid
  · exact execDwait_eq e.isLt hon hr
  · exact execDstat_eq e.isLt hon hr
  · have hissue := execDescRequestIssue_head rfl hq hrun hout
    rw [Dev.descIssue_plain hsrc hdst hrow rfl] at hissue
    exact hissue
  · exact execDescRequestComplete_ok rfl hq hrun (Dev.descComplete_plain hsrc hdst hi hzero hans hs hd hread hwrite)

end Sys2Proof.Machine

namespace Sys2Proof.Machine

/-! # What stops the machine (R118, R126, R134) -/

/-- Whatever the state, `run` goes on with the queue as it is, or it faults for a core that does not exist. -/
def GoesOrNoCore (run : State → Host.Outcome State Fault Refusal) : Prop :=
  ∀ s, (∃ d : Dev, run s = .next { s with dev := d }) ∨ ∃ p c, coreExists p c = false ∧ run s = .fault (.noSuchCore p c)

theorem onDev_goesOrNoCore (f : Dev → Dev) : GoesOrNoCore (onDev f) := fun s => .inl ⟨_, onDev_eq f s⟩

theorem onCore_goesOrNoCore (slot core : Nat) (f : Dev → Dev) : GoesOrNoCore (onCore slot core f) := fun s =>
  (onCore_cases slot core f s).imp (fun ⟨_, e⟩ => ⟨_, e⟩) (fun ⟨hn, e⟩ => ⟨slot, core, hn, e⟩)

theorem tileInstr_goesOrNoCore (h : Iss) (i : Instr) (e : Enc) (body : Dev → Core → Pred → Res) : GoesOrNoCore (tileInstr h i e body) :=
  onCore_goesOrNoCore h.slot h.core (issue h i e body)

theorem execTile_goesOrNoCore (i : Instr) : GoesOrNoCore (execTile i) := by
  cases acts i with
  | tile h e body run again => rw [again]; exact tileInstr_goesOrNoCore h i e body
  | device run again | core slot core f run again | resume slot core run again => rw [again]; exact onDev_goesOrNoCore id

/-- ISSUE_RESUME of a core that exists answers what the stalled instruction answers. -/
theorem execIssueResume_goesOrNoCore (slot : Slot) (core : Fin 4) : GoesOrNoCore (execIssueResume slot core) := by
  intro s
  unfold execIssueResume
  by_cases hc : coreExists slot core = true
  · rw [if_pos hc]
    split
    · exact execTile_goesOrNoCore _ _
    · exact onDev_goesOrNoCore id s
  · rw [if_neg hc]
    exact .inr ⟨slot, core, eq_false_of_ne_true hc, rfl⟩

theorem exec_goesOrNoCore (c : Instr) : GoesOrNoCore (exec c) := by
  cases acts c with
  | tile h e body run again => rw [run]; exact tileInstr_goesOrNoCore h c e body
  | device run again =>
    obtain ⟨f, run⟩ := run
    rw [run]
    exact onDev_goesOrNoCore f
  | core slot core f run again => rw [run]; exact onCore_goesOrNoCore slot core f
  | resume slot core run again => rw [run]; exact execIssueResume_goesOrNoCore slot core

theorem step_goesOrNoCore (s : State) : Goes s ∨ ∃ p c, coreExists p c = false ∧ step s = .fault (.noSuchCore p c) := by
  obtain ⟨pending, dev⟩ := s
  cases pending with
  | nil => exact .inl ⟨_, rfl⟩
  | cons c rest => exact (exec_goesOrNoCore c ⟨rest, dev⟩).imp_left fun ⟨d, e⟩ => ⟨_, e⟩

/-- The second half of O4 holds: nothing is refused, and the one fault names a core that does not exist. -/
theorem onlyFault : Parts.OnlyFault := by
  intro s
  obtain ⟨t, e⟩ | ⟨p, c, hn, e⟩ := step_goesOrNoCore s
  · rw [e]
    exact ⟨nofun, nofun⟩
  · rw [e]
    refine ⟨nofun, fun q k hqk => ?_⟩
    obtain ⟨rfl, rfl⟩ := Fault.noSuchCore.inj (Host.Outcome.fault.inj hqk)
    exact hn

/-- The device after reset, but that core 0 of the MT in slot 0 is stalled with an instruction for core 1 of the slot, which has
one core (R118). -/
def stalledForNoCore : Dev :=
  State.reset.dev.modCore 0 0 (fun k => { k with run := .stalled, stalled := some (.nopInstruction ⟨0, 1, 0, false⟩) })

/-- ISSUE_RESUME of a core that exists issues the instruction again, for the core that the instruction names. -/
theorem step_resume_stalledForNoCore : step ⟨[.issueResume 0 0], stalledForNoCore⟩ = .fault (.noSuchCore 0 1) := rfl

/-- Refutes O4: its first half fails. A well-formed ISSUE_RESUME names a core that exists, but the stalled instruction that it
issues again comes from the state, and the statement is about every state: where that instruction is for a core that does not
exist, the step faults. -/
theorem not_neverStops : ¬ Obligations.NeverStops := by
  unfold Obligations.NeverStops Parts.WellFormedGoes
  rintro ⟨hgoes, -⟩
  obtain ⟨t, e, -⟩ := hgoes (.issueResume 0 0) [] stalledForNoCore rfl
  exact nomatch step_resume_stalledForNoCore.symm.trans e

end Sys2Proof.Machine

namespace Sys2Proof.Machine

/-! # Protected memories (R167 to R170, R193 to R197) -/

/-! ## One word in error -/

/-- The device, but that the one word in error is `w`. -/
def Dev.withError (d : Dev) (w k : Nat) : Dev := { d with ecc := [(w, k)] }

@[simp] theorem Dev.withError_ecc (d : Dev) (w k : Nat) : (d.withError w k).ecc = [(w, k)] := rfl
@[simp] theorem Dev.withError_wb (d : Dev) (w k : Nat) : (d.withError w k).wb = d.wb := rfl
@[simp] theorem Dev.byte_withError (d : Dev) (w k i : Nat) : (d.withError w k).byte i = d.byte i := rfl
@[simp] theorem Dev.fld_withError (d : Dev) (w k i : Nat) (f : Fld) : (d.withError w k).fld i f = d.fld i f := rfl
@[simp] theorem Dev.flag_withError (d : Dev) (w k i : Nat) (f : Fld) : (d.withError w k).flag i f = d.flag i f := rfl

section Errors
variable {d : Dev} {w k g n : Nat} {sel : Nat → Bool}

/-- An error that strikes a sound line stands at the one word that it hits. -/
theorem Dev.strikeLine_sound (he : d.ecc = []) {base lo a : Nat} (hw : (base + a) / 8 * 8 = w) (hlo : lo ≤ a) (hhi : a < lo + n)
    (double : Bool) : d.strikeLine base lo n [⟨a, double⟩] = d.withError w (if double then 2 else 1) := by
  subst hw
  unfold Dev.strikeLine Dev.withError
  rw [List.filter_cons_of_pos (by simp [hlo, hhi])]
  cases double <;> simp [Dev.strikeWord, he, Sparse.get, Sparse.set, Sparse.insert]

theorem Dev.strikeLine_none (d : Dev) (base lo n : Nat) : d.strikeLine base lo n [] = d := rfl

theorem Dev.ceOf_sound (he : d.ecc = []) : d.ceOf sel = [] := by simp [Dev.ceOf, he]
theorem Dev.eccAll_sound (he : d.ecc = []) : d.eccAll g n = [] := by simp [Dev.eccAll, he]

theorem Dev.ceOf_correctable (he : d.ecc = [(w, 1)]) (hs : sel w = true) : d.ceOf sel = [w] := by simp [Dev.ceOf, he, hs]
theorem Dev.eccAll_correctable (he : d.ecc = [(w, 1)]) : d.eccAll g n = [] := by simp [Dev.eccAll, he]

theorem Dev.ceOf_uncorrectable (he : d.ecc = [(w, 2)]) : d.ceOf sel = [] := by simp [Dev.ceOf, he]

/-- Outside the hold an uncorrectable word is found by every read that touches it. -/
theorem Dev.eccAll_uncorrectable (he : d.ecc = [(w, 2)]) (hw : holdTop ≤ w) (ht : touches g n w = true) : d.eccAll g n = [w] := by
  unfold touches at ht
  simp [Dev.eccAll, he, eccUnit, Nat.not_lt.mpr hw, ht]

/-- The write-back of the one corrected word leaves no error and no write-back waiting. -/
theorem Dev.writeBack_sole (he : d.ecc = []) (hb : d.wb = []) :
    Dev.writeBack { d with ecc := [(w, 1)], wb := [w] } w = d := by
  cases d
  simp_all [Dev.writeBack, Sparse.get, Sparse.erase]

end Errors

theorem Dev.queueBack_empty {d : Dev} (hb : d.wb = []) (w : Nat) : (d.queueBack w).wb = [w] := by simp [Dev.queueBack, hb]

@[simp] theorem Dev.queueBack_ecc (d : Dev) (w : Nat) : (d.queueBack w).ecc = d.ecc := rfl
@[simp] theorem Dev.byte_queueBack (d : Dev) (w i : Nat) : (d.queueBack w).byte i = d.byte i := rfl
@[simp] theorem Dev.fld_queueBack (d : Dev) (w i : Nat) (f : Fld) : (d.queueBack w).fld i f = d.fld i f := rfl

theorem bitsAt_low (v w : Nat) : bitsAt v 0 w = v % 2 ^ w := by
  unfold bitsAt
  rw [Nat.pow_zero, Nat.div_one]

/-- A counter counts up to its largest value. -/
theorem Dev.fld_satFld_same (d : Dev) (off : Nat) (f : Fld) (n : Nat) (hf : f.lsb + f.width ≤ 32) :
    (d.satFld off f n).fld off f = min (d.fld off f + n) (2 ^ f.width - 1) := by
  have fits : min (d.fld off f + n) (2 ^ f.width - 1) < 2 ^ f.width := by have := Nat.two_pow_pos f.width; omega
  unfold Dev.satFld satAdd
  rw [Dev.fld_setFld_same _ _ _ _ hf, Nat.mod_eq_of_lt fits]

theorem Dev.reg_satFld_word (d : Dev) (off n : Nat) : (d.satFld off fld32 n).reg off = min (d.reg off + n) (2 ^ 32 - 1) := by
  have word (e : Dev) : e.fld off fld32 = e.reg off := (bitsAt_low _ 32).trans (Nat.mod_eq_of_lt (e.reg_lt off))
  rw [← word, Dev.fld_satFld_same _ _ _ _ (by decide), word]
  rfl

/-! ## An uncorrectable error is counted, then recorded (R169, R196, R440) -/

section Uncorrectable
variable {d : Dev} {g i : Nat} {fence : Dev → Dev}

/-- All that counting an uncorrectable error can do: mark and count the word, and fence its unit. -/
theorem Dev.countUe_cases (d : Dev) (g : Nat) (fence : Dev → Dev) :
    ∃ e b, d.countUe g fence = { d with ecc := e, bos := b } ∨ d.countUe g fence = fence { d with ecc := e, bos := b } := by
  unfold Dev.countUe
  split
  · exact ⟨d.ecc, d.bos, .inl rfl⟩
  · refine ⟨Sparse.set (fun _ => 0) d.ecc g 3, { d.bos with
      ueSeen := Sparse.set (fun _ => 0) d.bos.ueSeen g (Sparse.get (fun _ => 0) d.bos.ueSeen g + 1) }, ?_⟩
    dsimp only
    split
    · exact .inr rfl
    · exact .inl rfl

theorem Dev.reg_countUe (hf : ∀ e : Dev, (fence e).reg i = e.reg i) : (d.countUe g fence).reg i = d.reg i := by
  obtain ⟨e, b, h | h⟩ := d.countUe_cases g fence <;> rw [h]
  · rfl
  · exact hf _

theorem Dev.flag_countUe (f : Fld) (hf : ∀ e : Dev, (fence e).reg i = e.reg i) :
    (d.countUe g fence).flag i f = d.flag i f := by
  unfold Dev.flag Dev.fld
  rw [Dev.reg_countUe hf]

theorem Dev.byte_countUe (hf : ∀ e : Dev, (fence e).byte i = e.byte i) : (d.countUe g fence).byte i = d.byte i := by
  obtain ⟨e, b, h | h⟩ := d.countUe_cases g fence <;> rw [h]
  · rfl
  · exact hf _

end Uncorrectable

theorem Dev.byte_fenceSlot (d : Dev) (p i : Nat) : (d.fenceSlot p).byte i = d.byte i := by
  unfold Dev.fenceSlot; split <;> simp

theorem Dev.byte_fenceYard (d : Dev) (y i : Nat) : (d.fenceYard y).byte i = d.byte i := by
  unfold Dev.fenceYard; simp

/-- A fence changes the yard's pending furls and the map's PENDING, no other register. -/
theorem Dev.reg_fenceSlot (d : Dev) {p i : Nat} (hy : i ≠ Reg.yardFurlPending (p / 24)) (hm : i ≠ Reg.devMap) :
    (d.fenceSlot p).reg i = d.reg i := by
  unfold Dev.fenceSlot
  rw [Dev.reg_setFlag_other _ _ _ hm]
  split
  · rw [Dev.reg_setFlag_other _ _ _ hy, Dev.reg_setReg_other _ _ hy]
  · rw [Dev.reg_setReg_other _ _ hy]

theorem Dev.reg_fenceYard (d : Dev) {y i : Nat} (hy : i ≠ Reg.yardFurlPending y) (hm : i ≠ Reg.devMap) :
    (d.fenceYard y).reg i = d.reg i := by
  unfold Dev.fenceYard
  rw [Dev.reg_setFlag_other _ _ _ hm, Dev.reg_setFlag_other _ _ _ hy]

/-- The first uncorrectable error of a unit: UE, the master's ID above it, and the word's address. -/
def Dev.firstUe (d : Dev) (status addr : Nat) (fm fa : Fld) (m a : Nat) : Dev :=
  ((d.setFlag status ⟨16, 1⟩ true).setFld status fm m).setFld addr fa a

section FirstUe
variable (d : Dev) {status addr : Nat} (apart : status ≠ addr) {fm fa : Fld} (m a : Nat)
include apart

theorem Dev.flag_firstUe (hm : 17 ≤ fm.lsb) : (d.firstUe status addr fm fa m a).flag status ⟨16, 1⟩ = true := by
  unfold Dev.firstUe Dev.flag
  rw [Dev.fld_setFld_other _ _ _ _ apart, Dev.fld_setFld_apart _ _ (g := ⟨16, 1⟩) _ (by decide) (.inr hm)]
  exact Dev.flag_setFlag_same _ _ _ _ (by decide) (by decide)

theorem Dev.master_firstUe (hm : fm.lsb + fm.width ≤ 32) :
    (d.firstUe status addr fm fa m a).fld status fm = m % 2 ^ fm.width := by
  unfold Dev.firstUe
  rw [Dev.fld_setFld_other _ _ _ _ apart, Dev.fld_setFld_same _ _ _ _ hm]

omit apart in
theorem Dev.addr_firstUe (ha : fa.lsb + fa.width ≤ 32) : (d.firstUe status addr fm fa m a).fld addr fa = a % 2 ^ fa.width := by
  unfold Dev.firstUe
  rw [Dev.fld_setFld_same _ _ _ _ ha]

omit apart in
theorem Dev.byte_firstUe (i : Nat) : (d.firstUe status addr fm fa m a).byte i = d.byte i := by
  unfold Dev.firstUe; simp

end FirstUe

/-- The first uncorrectable error of a tile's store is recorded with its master and word; no byte changes. -/
theorem Dev.noteUe_first (d : Dev) {p : Nat} (w m : Nat) (h : d.flag (Reg.tileEccStatus p) F.tileEccStatusUe = false) :
    let e := d.noteUe p w m
    e.flag (Reg.tileEccStatus p) F.tileEccStatusUe = true ∧ e.fld (Reg.tileEccStatus p) F.tileEccStatusUeMaster = m % 2 ^ 4
      ∧ e.fld (Reg.tileEccAddr p) F.tileEccAddrAddr = w % 2 ^ 19 ∧ ∀ z, e.byte z = d.byte z := by
  have apart : Reg.tileEccStatus p ≠ Reg.tileEccAddr p := by unfold Reg.tileEccStatus Reg.tileEccAddr; omega
  have unfenced : Reg.tileEccStatus p ≠ Reg.yardFurlPending (p / 24) ∧ Reg.tileEccStatus p ≠ Reg.devMap := by
    unfold Reg.tileEccStatus Reg.yardFurlPending Reg.devMap
    rw [blockBase_tile, blockBase_yard, show blockBase .dev 0 = 0 from rfl]
    omega
  have first : (d.countUe (tileBase p + w) (fun d => d.fenceSlot p)).flag (Reg.tileEccStatus p) F.tileEccStatusUe = false :=
    (Dev.flag_countUe _ fun e => e.reg_fenceSlot unfenced.1 unfenced.2).trans h
  have recorded : d.noteUe p w m = (d.countUe (tileBase p + w) (fun d => d.fenceSlot p)).firstUe (Reg.tileEccStatus p)
      (Reg.tileEccAddr p) F.tileEccStatusUeMaster F.tileEccAddrAddr m w := by
    unfold Dev.noteUe
    simp only [first, Bool.false_eq_true, if_false]
    rfl
  dsimp only
  rw [recorded]
  exact ⟨Dev.flag_firstUe _ apart _ _ (by decide), Dev.master_firstUe _ apart _ _ (by decide), Dev.addr_firstUe _ _ _ (by decide),
    fun z => (Dev.byte_firstUe _ _ _ z).trans (Dev.byte_countUe fun e => e.byte_fenceSlot p z)⟩

/-- The first uncorrectable error of a yard's case memory is recorded with its master; no byte changes. -/
theorem Dev.caseUe_first (d : Dev) {y w : Nat} (hy : yardAt w = y) (m : Nat) (h : d.flag (Reg.yardCaseEcc y) F.yardCaseEccUe = false) :
    let e := d.caseUe (fun _ => m) w
    e.flag (Reg.yardCaseEcc y) F.yardCaseEccUe = true ∧ e.fld (Reg.yardCaseEcc y) F.yardCaseEccUeMaster = m % 2 ^ 5
      ∧ ∀ z, e.byte z = d.byte z := by
  have apart : Reg.yardCaseEcc y ≠ Reg.yardCaseEccAddr y := by unfold Reg.yardCaseEcc Reg.yardCaseEccAddr; omega
  have unfenced : Reg.yardCaseEcc y ≠ Reg.yardFurlPending y ∧ Reg.yardCaseEcc y ≠ Reg.devMap := by
    unfold Reg.yardCaseEcc Reg.yardFurlPending Reg.devMap
    rw [blockBase_yard, show blockBase .dev 0 = 0 from rfl]
    omega
  have first : (d.countUe w (fun d => d.fenceYard y)).flag (Reg.yardCaseEcc y) F.yardCaseEccUe = false :=
    (Dev.flag_countUe _ fun e => e.reg_fenceYard unfenced.1 unfenced.2).trans h
  have recorded : d.caseUe (fun _ => m) w = (d.countUe w (fun d => d.fenceYard y)).firstUe (Reg.yardCaseEcc y)
      (Reg.yardCaseEccAddr y) F.yardCaseEccUeMaster F.yardCaseEccAddrOffset m (w - caseBase y) := by
    unfold Dev.caseUe
    simp only [hy, first, Bool.false_eq_true, if_false]
    rfl
  dsimp only
  rw [recorded]
  exact ⟨Dev.flag_firstUe _ apart _ _ (by decide), Dev.master_firstUe _ apart _ _ (by decide),
    fun z => (Dev.byte_firstUe _ _ _ z).trans (Dev.byte_countUe fun e => e.byte_fenceYard y z)⟩

/-! ## Reads that find no error, a correctable one, an uncorrectable one (R168, R196) -/

section Found
variable {d : Dev} {p w g n : Nat} {sel : Nat → Bool}

theorem Dev.noteCe_of_none (h : d.ceOf (touches g n) = []) : d.noteCe p g n = d := by
  unfold Dev.noteCe Dev.noteCeAt
  rw [h]
  rfl

theorem Dev.noteCe_correctable (he : d.ecc = [(w, 1)]) (ht : touches g n w = true) :
    d.noteCe p g n = (d.satFld (Reg.tileEccStatus p) F.tileEccStatusCeCount 1).queueBack w := by
  unfold Dev.noteCe Dev.noteCeAt
  rw [Dev.ceOf_correctable he ht]
  rfl

theorem Dev.caseCe_of_none (h : d.ceOf sel = []) : d.caseCe sel = d := by
  unfold Dev.caseCe
  rw [h]
  rfl

theorem Dev.caseCe_correctable (he : d.ecc = [(w, 1)]) (hs : sel w = true) :
    d.caseCe sel = (d.satFld (Reg.yardCaseEcc (yardAt w)) F.yardCaseEccCeCount 1).queueBack w := by
  unfold Dev.caseCe
  rw [Dev.ceOf_correctable he hs]
  rfl

end Found

/-! ## Where the words stand -/

theorem sliceBase_eq (y sl : Nat) : sliceBase y sl = caseBase y + sl * 0x200000 := rfl

theorem tileBase_word (p a : Nat) : (tileBase p + a) / 8 * 8 = tileBase p + a / 8 * 8 := by
  unfold tileBase storeLo; omega

theorem sliceBase_word (y sl a : Nat) : (sliceBase y sl + a) / 8 * 8 = sliceBase y sl + a / 8 * 8 := by
  unfold sliceBase sliceBytes caseBase caseLo; omega

theorem holdTop_le_tileBase (p a : Nat) : holdTop ≤ tileBase p + a := by unfold holdTop tileBase storeLo; omega
theorem holdTop_le_sliceBase (y sl a : Nat) : holdTop ≤ sliceBase y sl + a := by
  unfold holdTop sliceBase caseBase caseLo; omega

/-- The words of a slice are of its yard. -/
theorem yardAt_slice (y : Nat) (sl : Fin 32) {a : Nat} (ha : a < 0x200000) : yardAt (sliceBase y sl + a / 8 * 8) = y := by
  unfold yardAt sliceBase sliceBytes caseBase caseLo; omega

/-- The word that byte `a` lies in is read with a line of `n` bytes that holds byte `a`. -/
theorem touches_line {base lo n a : Nat} (hlo : lo ≤ a) (hhi : a < lo + n) : touches (base + lo) n (base + a / 8 * 8) = true := by
  unfold touches
  rw [Bool.and_eq_true, decide_eq_true_eq, decide_eq_true_eq]
  omega

/-! ## Scrubs (R170, R196) -/

/-- The scrub of one line of a store: its errors strike, then it is read by the scrubber. -/
def Dev.scrubStore (d : Dev) (p line : Nat) (struck : List Struck) : Dev :=
  let d := (d.strikeLine (tileBase p) (128 * line) 128 struck).noteCe p (tileBase p + 128 * line) 128
  d.noteUes p 15 (d.eccAll (tileBase p + 128 * line) 128)

/-- The scrub of one line of a slice. -/
def Dev.scrubCase (d : Dev) (y sl line : Nat) (struck : List Struck) : Dev :=
  let d := (d.strikeLine (sliceBase y sl) (64 * line) 64 struck).caseCe (touches (sliceBase y sl + 64 * line) 64)
  (d.eccAll (sliceBase y sl + 64 * line) 64).foldl (fun d w => d.caseUe (fun _ => 31) w) d

theorem exec_storeScrub (s : State) (p : Slot) {line : Nat} (hl : 128 * line < 0x60000) (struck : List Struck) (last : Bool) :
    exec (.storeScrub p line struck last) s = answer s (if last then
      (s.dev.scrubStore p line struck).incFld (Reg.tileEccScrub p) fld32 1 else s.dev.scrubStore p line struck) :=
  congrArg (answer s) (if_neg (Nat.not_le.mpr hl))

theorem exec_caseScrub (s : State) (y : Yard) (sl : Fin 32) {line : Nat} (hl : 64 * line < 0x200000) (struck : List Struck)
    (last : Bool) : exec (.caseScrub y sl line struck last) s = answer s (if last then
      (s.dev.scrubCase y sl line struck).incFld (Reg.yardCaseScrub y) fld32 1 else s.dev.scrubCase y sl line struck) :=
  congrArg (answer s) (if_neg (Nat.not_le.mpr hl))

section Scrubs
variable {d : Dev} (he : d.ecc = []) {line a : Nat}
include he

theorem Dev.scrubStore_sound (p : Nat) : d.scrubStore p line [] = d := by
  unfold Dev.scrubStore
  rw [Dev.strikeLine_none, Dev.noteCe_of_none (Dev.ceOf_sound he)]
  dsimp only
  rw [Dev.eccAll_sound he]
  rfl

section Store
variable (p : Nat) (hlo : 128 * line ≤ a) (hhi : a < 128 * line + 128)
include hlo hhi

theorem Dev.scrubStore_correctable : d.scrubStore p line [⟨a, false⟩]
    = ((d.withError (tileBase p + a / 8 * 8) 1).satFld (Reg.tileEccStatus p) F.tileEccStatusCeCount 1).queueBack
        (tileBase p + a / 8 * 8) := by
  unfold Dev.scrubStore
  rw [Dev.strikeLine_sound he (tileBase_word p a) hlo hhi, if_neg Bool.false_ne_true,
    Dev.noteCe_correctable (Dev.withError_ecc _ _ _) (touches_line hlo hhi)]
  dsimp only
  rw [Dev.eccAll_correctable (w := tileBase p + a / 8 * 8) (by simp)]
  rfl

theorem Dev.scrubStore_uncorrectable : d.scrubStore p line [⟨a, true⟩]
    = (d.withError (tileBase p + a / 8 * 8) 2).noteUe p (a / 8 * 8) 15 := by
  unfold Dev.scrubStore
  rw [Dev.strikeLine_sound he (tileBase_word p a) hlo hhi, if_pos rfl,
    Dev.noteCe_of_none (Dev.ceOf_uncorrectable (Dev.withError_ecc _ _ _))]
  dsimp only
  rw [Dev.eccAll_uncorrectable (Dev.withError_ecc _ _ _) (holdTop_le_tileBase p _) (touches_line hlo hhi)]
  unfold Dev.noteUes
  rw [List.foldl_cons, List.foldl_nil, Nat.add_sub_cancel_left]

end Store

section Case
variable (y sl : Nat) (hlo : 64 * line ≤ a) (hhi : a < 64 * line + 64)
include hlo hhi

theorem Dev.scrubCase_correctable : d.scrubCase y sl line [⟨a, false⟩]
    = ((d.withError (sliceBase y sl + a / 8 * 8) 1).satFld (Reg.yardCaseEcc (yardAt (sliceBase y sl + a / 8 * 8)))
        F.yardCaseEccCeCount 1).queueBack (sliceBase y sl + a / 8 * 8) := by
  unfold Dev.scrubCase
  rw [Dev.strikeLine_sound he (sliceBase_word y sl a) hlo hhi, if_neg Bool.false_ne_true,
    Dev.caseCe_correctable (Dev.withError_ecc _ _ _) (touches_line hlo hhi)]
  dsimp only
  rw [Dev.eccAll_correctable (w := sliceBase y sl + a / 8 * 8) (by simp)]
  rfl

theorem Dev.scrubCase_uncorrectable : d.scrubCase y sl line [⟨a, true⟩]
    = (d.withError (sliceBase y sl + a / 8 * 8) 2).caseUe (fun _ => 31) (sliceBase y sl + a / 8 * 8) := by
  unfold Dev.scrubCase
  rw [Dev.strikeLine_sound he (sliceBase_word y sl a) hlo hhi, if_pos rfl,
    Dev.caseCe_of_none (Dev.ceOf_uncorrectable (Dev.withError_ecc _ _ _))]
  dsimp only
  rw [Dev.eccAll_uncorrectable (Dev.withError_ecc _ _ _) (holdTop_le_sliceBase y sl _) (touches_line hlo hhi), List.foldl_cons,
    List.foldl_nil]

end Case
end Scrubs

/-! ## Write-backs (R168) -/

theorem exec_storeEccWriteback (s : State) (p : Slot) {a : Nat} (ha : a < 0x60000) :
    exec (.storeEccWriteback p a) s = answer s (s.dev.writeBack (tileBase p + a / 8 * 8)) :=
  congrArg (answer s) (if_pos ha)

theorem exec_caseEccWriteback (s : State) (y : Yard) {a : Nat} (ha : a < 0x4000000) :
    exec (.caseEccWriteback y a) s = answer s (s.dev.writeBack (caseBase y + a / 8 * 8)) :=
  congrArg (answer s) (if_pos ha)

theorem scrubsAndWritebacks : Parts.ScrubsAndWritebacks := by
  intro s p y sl line a he hb w c same
  refine ⟨fun hl hlo hhi => ⟨?storeCe, ?storeUe, ?storePass⟩, fun hl hlo hhi => ⟨?caseCe, ?caseUe⟩, ?storeBack, ?caseBack⟩
  case storeCe =>
    refine ⟨_, exec_storeScrub s p hl _ _, ?_⟩
    rw [if_neg Bool.false_ne_true, Dev.scrubStore_correctable he p hlo hhi]
    refine ⟨fun z => ?_, ?_, ?_, ?_⟩
    · simp
    · rw [Dev.canon_wb, Dev.queueBack_empty (by simp [hb])]
    · simp [w]
    · simp [Dev.fld_satFld_same, F.tileEccStatusCeCount]
  case storeUe =>
    intro hn
    have fits : a / 8 * 8 < 2 ^ 19 := by omega
    obtain ⟨ue, master, addr, kept⟩ := (s.dev.withError w 2).noteUe_first (a / 8 * 8) 15 hn
    refine ⟨_, exec_storeScrub s p hl _ _, ?_⟩
    rw [if_neg Bool.false_ne_true, Dev.scrubStore_uncorrectable he p hlo hhi]
    refine ⟨fun z => (Dev.byte_canon _ z).trans (kept z), (Dev.flag_canon _ _ _).trans ue, (Dev.fld_canon _ _ _).trans master, ?_⟩
    rw [← bitsAt_low, Dev.reg_canon]
    exact addr.trans (Nat.mod_eq_of_lt fits)
  case storePass => rw [exec_storeScrub s p hl, if_pos rfl, Dev.scrubStore_sound he]
  case caseCe =>
    have ha : a < 0x200000 := by omega
    refine ⟨_, exec_caseScrub s y sl hl _ _, ?_⟩
    rw [if_neg Bool.false_ne_true, Dev.scrubCase_correctable he y sl hlo hhi, yardAt_slice y sl ha]
    refine ⟨fun z => ?_, ?_, ?_, ?_⟩
    · simp
    · rw [Dev.canon_wb, Dev.queueBack_empty (by simp [hb]), sliceBase_eq]
    · simp [c, sliceBase_eq]
    · simp [Dev.fld_satFld_same, F.yardCaseEccCeCount]
  case caseUe =>
    intro hn
    have ha : a < 0x200000 := by omega
    obtain ⟨ue, master, kept⟩ := (s.dev.withError (sliceBase y sl + a / 8 * 8) 2).caseUe_first (yardAt_slice y sl ha) 31 hn
    refine ⟨_, exec_caseScrub s y sl hl _ _, ?_⟩
    rw [if_neg Bool.false_ne_true, Dev.scrubCase_uncorrectable he y sl hlo hhi]
    exact ⟨fun z => (Dev.byte_canon _ z).trans (kept z), (Dev.flag_canon _ _ _).trans ue, (Dev.fld_canon _ _ _).trans master⟩
  case storeBack =>
    rintro ha _ rfl
    rw [exec_storeEccWriteback _ p ha, Dev.writeBack_sole he hb]
    rfl
  case caseBack =>
    rintro ha _ rfl
    rw [exec_caseEccWriteback _ y ha, Dev.writeBack_sole he hb]
    rfl

/-! ## Which master is granted (R193) -/

theorem find?_contains_singleton {l : List Nat} {m : Nat} (h : m ∈ l) : l.find? (fun x => [m].contains x) = some m := by
  cases hf : l.find? (fun x => [m].contains x) with
  | none => exact absurd (List.find?_eq_none.mp hf m h) (by simp)
  | some x =>
    have hx := List.find?_some hf
    simp only [List.contains_eq_mem, List.mem_singleton, decide_eq_true_eq] at hx
    rw [hx]

/-- From whatever number on, the search for a lone requester ends at it. -/
theorem rotation_finds (k : Nat) (m : Fin 25) :
    ((List.range 25).map (fun i => (k + i) % 25)).find? (fun x => [m.val].contains x) = some m.val := by
  refine find?_contains_singleton (List.mem_map.mpr ⟨(m.val + 25 - k % 25) % 25, List.mem_range.mpr (by omega), ?_⟩)
  omega

/-- A lone requester is granted, whoever was granted last. -/
theorem nextMaster_lone (last : Option Nat) (m : Fin 25) : nextMaster last [m.val] = some m.val := by
  cases last with
  | none => exact rotation_finds 0 m
  | some l => exact rotation_finds (l + 1) m

/-- With none granted before, the lowest number is. -/
theorem nextMaster_first {m n : Fin 25} (h : m < n) : nextMaster none [n.val, m.val] = some m.val := by
  have inOrder : (List.range 25).map (fun i => (0 + i) % 25) = List.range 25 := by decide
  show ((List.range 25).map (fun i => (0 + i) % 25)).find? _ = _
  rw [inOrder, List.find?_range_eq_some]
  refine ⟨by simp, List.mem_range.mpr m.isLt, fun j hj => ?_⟩
  have : j ≠ n.val ∧ j ≠ m.val := by omega
  simp [this]

/-! ## Cycles that masters lose (R193, R197) -/

/-- From `d` to `e` only the yard's conflict counters and its cycle change. -/
structure Dev.KeepsButConflicts (d e : Dev) (y : Nat) : Prop where
  reg : ∀ {i}, (∀ m, i ≠ Reg.yardConflict y m) → e.reg i = d.reg i
  mem : e.mem = d.mem
  ecc : e.ecc = d.ecc
  job : e.job = d.job
  out : e.out = d.out

namespace Dev.KeepsButConflicts
variable {d e f : Dev} {y : Nat}

theorem refl (d : Dev) (y : Nat) : d.KeepsButConflicts d y := ⟨fun _ => rfl, rfl, rfl, rfl, rfl⟩

theorem trans (h : d.KeepsButConflicts e y) (k : e.KeepsButConflicts f y) : d.KeepsButConflicts f y :=
  ⟨fun hi => (k.reg hi).trans (h.reg hi), k.mem.trans h.mem, k.ecc.trans h.ecc, k.job.trans h.job, k.out.trans h.out⟩

theorem setConflict (d : Dev) (y m v : Nat) : d.KeepsButConflicts (d.setReg (Reg.yardConflict y m) v) y :=
  ⟨fun hi => Dev.reg_setReg_other d v (hi m), Dev.setReg_mem .., Dev.setReg_ecc .., Dev.setReg_job .., Dev.setReg_out ..⟩

theorem satConflict (d : Dev) (y m : Nat) : d.KeepsButConflicts (d.satFld (Reg.yardConflict y m) fld32 1) y := setConflict d y m _

theorem setYard (d : Dev) (y : Nat) (q : YardS) : d.KeepsButConflicts (d.setYard y q) y := ⟨fun _ => rfl, rfl, rfl, rfl, rfl⟩

theorem satConflicts (d : Dev) (y : Nat) (ms : List Nat) :
    d.KeepsButConflicts (ms.foldl (fun d m => d.satFld (Reg.yardConflict y m) fld32 1) d) y := by
  induction ms generalizing d with
  | nil => exact refl d y
  | cons m ms ih => exact (satConflict d y m).trans (ih _)

theorem countLosers (d : Dev) (y s w : Nat) (ls : List Nat) : d.KeepsButConflicts (d.countLosers y s w ls) y := by
  unfold Dev.countLosers
  refine (trans ?_ (satConflicts _ y _)).trans (setYard _ y _)
  split
  · exact setConflict d y w _
  · exact refl d y

theorem yardFurled (h : d.KeepsButConflicts e y) : e.yardFurled y = d.yardFurled y := by
  unfold Dev.yardFurled Dev.fld
  rw [h.reg fun m => by unfold Reg.yardHarvest Reg.yardConflict; omega]

theorem runningJob (h : d.KeepsButConflicts e y) : e.runningJob = d.runningJob := by
  unfold Dev.runningJob Dev.started Dev.jst Dev.fld
  rw [h.job, h.reg fun m => by
    unfold Reg.hstJob Reg.yardConflict
    rw [blockBase_yard, show blockBase .hst 0 = 0x500000 from rfl]
    omega]

theorem sliceOwner (h : d.KeepsButConflicts e y) {i : Nat} (hi : i < 8) : e.reg (Reg.yardSliceOwner y i) = d.reg (Reg.yardSliceOwner y i) :=
  h.reg fun m => by unfold Reg.yardSliceOwner Reg.yardConflict; omega

theorem byte (h : d.KeepsButConflicts e y) (z : Nat) : e.byte z = d.byte z := by unfold Dev.byte; rw [h.mem]

theorem bytes (h : d.KeepsButConflicts e y) (a n : Nat) : e.bytes a n = d.bytes a n := by
  unfold Dev.bytes
  simp only [h.byte]

end Dev.KeepsButConflicts

/-- At a cycle's start a loser that has lost none in it has lost the cycle. -/
theorem Dev.countLosers_first {d : Dev} {y : Nat} (hc : (d.yard y).cycle = []) (hl : (d.yard y).lost = []) (s w n : Nat) :
    ∃ q, d.countLosers y s w [n] = (d.satFld (Reg.yardConflict y n) fld32 1).setYard y q := by
  have start : (d.yard y).beginBeat s = d.yard y := by simp [YardS.beginBeat, hc]
  unfold Dev.countLosers
  simp only [start, hc, hl, List.contains_nil, List.any_nil, Bool.false_and, Bool.false_eq_true, if_false, Bool.not_false,
    Bool.and_self, List.filter_cons_of_pos, List.filter_nil]
  exact ⟨_, rfl⟩

/-! ## A beat granted (R193) -/

section Beats
variable {d : Dev} {y s a : Nat} (hf : d.yardFurled y = false) (m : Fin 25)
include hf

theorem Dev.beat_read (he : d.ecc = []) : d.beat y s ⟨m, a, none⟩
    = d.send (.caseData y s m true (d.bytes (sliceBase y s + a / 64 * 64) 64)) := by
  unfold Dev.beat
  simp only [hf, Bool.and_false, Bool.false_eq_true, if_false, Dev.caseCe_of_none (Dev.ceOf_sound he), Dev.eccAll_sound he]

theorem Dev.beat_write_owner {bs : List Byte} (hb : bs.length = 64)
    (ho : bitsAt (d.reg (Reg.yardSliceOwner y (s / 4))) (8 * (s % 4)) 8 = m.val) :
    d.beat y s ⟨m, a, some bs⟩ = (d.store (sliceBase y s + a / 64 * 64) bs).send (.caseData y s m true []) := by
  unfold Dev.beat
  simp only [hf, ho, bne_self_eq_false, Bool.and_false, Bool.false_eq_true, if_false, List.take_of_length_le (Nat.le_of_eq hb)]

theorem Dev.beat_write_stranger {bs : List Byte} (hr : d.runningJob = true)
    (ho : bitsAt (d.reg (Reg.yardSliceOwner y (s / 4))) (8 * (s % 4)) 8 ≠ m.val) :
    d.beat y s ⟨m, a, some bs⟩ = d.send (.caseData y s m false []) := by
  unfold Dev.beat
  simp only [hf, hr, bne_iff_ne.mpr ho, Bool.and_false, Bool.and_self, Bool.false_eq_true, if_false, if_true]

end Beats

/-! ## The command -/

/-- A request for a line of the slice, with a whole line to write if it is a write. -/
def OfLine (q : CaseReq) : Prop := q.addr < sliceBytes ∧ ∀ bs, q.wr = some bs → bs.length = 64

theorem ofLine_read (m : Fin 25) {a : Nat} (ha : a < 0x200000) : OfLine ⟨m, a, none⟩ := ⟨ha, nofun⟩

theorem ofLine_write (m : Fin 25) {a : Nat} (ha : a < 0x200000) {bs : List Byte} (hb : bs.length = 64) : OfLine ⟨m, a, some bs⟩ :=
  ⟨ha, fun _ h => Option.some.inj h ▸ hb⟩

/-- The masters other than the granted one that request a beat. -/
def losersOf (reqs : List CaseReq) (w : Nat) : List Nat :=
  (List.range 25).filter (fun m => m != w && reqs.any (fun q => q.m.val == m))

theorem losersOf_two {m n : Fin 25} (h : m < n) (a b : Nat) (u v : Option (List Byte)) :
    losersOf [⟨n, a, u⟩, ⟨m, b, v⟩] m = [n.val] := by
  have only : ∀ k, (k != m.val && [(⟨n, a, u⟩ : CaseReq), ⟨m, b, v⟩].any (fun q => q.m.val == k)) = (k == n.val) := fun k => by
    simp only [List.any_cons, List.any_nil, Bool.or_false]
    rw [Bool.eq_iff_iff]
    simp only [Bool.and_eq_true, Bool.or_eq_true, bne_iff_ne, beq_iff_eq]
    omega
  unfold losersOf
  simp only [only]
  exact (by decide : ∀ k : Fin 25, (List.range 25).filter (fun j => j == k.val) = [k.val]) n

section Command
variable {s : State} {y : Yard} {sl : Fin 32}

theorem exec_caseSliceBeat (reqs : List CaseReq) : exec (.caseSliceBeat y sl reqs) s = execCaseSliceBeat y sl reqs s := rfl

/-- The master whose turn it is gets its beat, the others that request one lose it. -/
theorem caseSliceBeat_granted {reqs : List CaseReq} {q : CaseReq} {w : Nat} (hl : ∀ q ∈ reqs, OfLine q)
    (hw : nextMaster (((s.dev.yard y).last.find? (fun e => e.1 == sl.val)).map (·.2)) (reqs.map (fun q => q.m.val)) = some w)
    (hq : reqs.find? (fun q => q.m.val == w) = some q) :
    exec (.caseSliceBeat y sl reqs) s = answer s ((s.dev.countLosers y sl w (losersOf reqs w)).beat y sl q) := by
  rw [exec_caseSliceBeat]
  unfold execCaseSliceBeat
  rw [onDev_eq]
  dsimp only
  rw [(List.filter_eq_self (l := reqs)).mpr]
  · simp only [hw, hq]
    rfl
  · intro q hmem
    obtain ⟨ha, hwr⟩ := hl q hmem
    rw [decide_eq_true ha, Bool.true_and]
    split
    · next bs hb => rw [hwr bs hb, beq_self_eq_true]
    · rfl

/-- A lone request gets its beat. -/
theorem caseSliceBeat_lone {q : CaseReq} (hq : OfLine q) :
    ∃ d : Dev, s.dev.KeepsButConflicts d y ∧ exec (.caseSliceBeat y sl [q]) s = answer s (d.beat y sl q) :=
  ⟨_, Dev.KeepsButConflicts.countLosers s.dev y sl q.m _,
    caseSliceBeat_granted (by simpa using hq) (nextMaster_lone _ q.m) (by simp)⟩

/-- Of two that read, at a slice that has granted none, at a cycle's start: the lower number reads, the other loses the cycle. -/
theorem caseSliceBeat_two {m n : Fin 25} {a : Nat} (h : m < n) (ha : a < 0x200000) (hn : ∀ e ∈ (s.dev.yard y).last, e.1 ≠ sl.val)
    (hc : (s.dev.yard y).cycle = []) (hl : (s.dev.yard y).lost = []) :
    ∃ q, exec (.caseSliceBeat y sl [⟨n, a, none⟩, ⟨m, a, none⟩]) s
      = answer s (((s.dev.satFld (Reg.yardConflict y n) fld32 1).setYard y q).beat y sl ⟨m, a, none⟩) := by
  have never : (s.dev.yard y).last.find? (fun e => e.1 == sl.val) = none := by simpa using hn
  have apart : (n.val == m.val) = false := by simp only [beq_eq_false_iff_ne]; omega
  obtain ⟨q, lost⟩ := Dev.countLosers_first hc hl sl m n
  refine ⟨q, ?_⟩
  rw [caseSliceBeat_granted (w := m) (q := ⟨m, a, none⟩) ?_ ?_ (by simp [apart]), losersOf_two h, lost]
  · simp [ofLine_read _ ha]
  · rw [never]
    exact nextMaster_first h

end Command

theorem caseBeats : Parts.CaseBeats := by
  intro s y sl m n a bs he ha hb hf g owner
  have slice : sl.val / 4 < 8 := by omega
  refine ⟨?read, fun ho => ?write, fun ho hr => ?refused, fun h hn hc hl => ?two⟩
  case read =>
    obtain ⟨d, keeps, run⟩ := caseSliceBeat_lone (s := s) (y := y) (sl := sl) (ofLine_read m ha)
    rw [Dev.beat_read (keeps.yardFurled.trans hf) m (keeps.ecc.trans he)] at run
    refine ⟨_, run, ?_, fun z => ?_⟩
    · rw [Dev.canon_out, Dev.send_out, keeps.out, keeps.bytes, sliceBase_eq]
    · rw [Dev.byte_canon, Dev.byte_send, keeps.byte]
  case write =>
    obtain ⟨d, keeps, run⟩ := caseSliceBeat_lone (s := s) (y := y) (sl := sl) (ofLine_write m ha hb)
    rw [Dev.beat_write_owner (keeps.yardFurled.trans hf) m hb (by rw [keeps.sliceOwner slice]; exact ho)] at run
    refine ⟨_, run, fun z => ?_⟩
    rw [Dev.byte_canon, Dev.byte_send, Dev.byte_store, keeps.byte, hb, sliceBase_eq]
  case refused =>
    obtain ⟨d, keeps, run⟩ := caseSliceBeat_lone (s := s) (y := y) (sl := sl) (ofLine_write m ha hb)
    rw [Dev.beat_write_stranger (keeps.yardFurled.trans hf) m (keeps.runningJob.trans hr)
      (by rw [keeps.sliceOwner slice]; exact ho)] at run
    refine ⟨_, run, ?_, fun z => ?_⟩
    · rw [Dev.canon_out, Dev.send_out, keeps.out]
    · rw [Dev.byte_canon, Dev.byte_send, keeps.byte]
  case two =>
    obtain ⟨q, run⟩ := caseSliceBeat_two h ha hn hc hl
    have keeps := (Dev.KeepsButConflicts.satConflict s.dev y n).trans (.setYard _ y q)
    have apart : Reg.yardConflict y m ≠ Reg.yardConflict y n := by unfold Reg.yardConflict; omega
    rw [Dev.beat_read (keeps.yardFurled.trans hf) m (keeps.ecc.trans he)] at run
    refine ⟨_, run, ?_, ?_, ?_⟩
    · rw [Dev.canon_out, Dev.send_out, keeps.out, keeps.bytes, sliceBase_eq]
    · rw [Dev.reg_canon, Dev.reg_send, Dev.reg_setYard]
      exact Dev.reg_satFld_word _ _ _
    · rw [Dev.reg_canon, Dev.reg_send, Dev.reg_setYard]
      exact Dev.reg_setFld_other _ _ _ apart

/-- Settles O34: each command is one equation of the device (the line scrubbed, the word written back, the master granted), and the
clauses read it off. -/
theorem protectedMemories : Obligations.ProtectedMemories := ⟨scrubsAndWritebacks, caseBeats⟩

end Sys2Proof.Machine

namespace Sys2Proof.Machine

/-! # The hold (R202 to R214) -/

/-! ## The books of the hold controllers: counters, pages to retire, retries

What a controller counts is written at offsets of its own window (R28); the press of the same index has the upper half of it. -/

/-- Two offsets within the windows of hold controllers are two registers, whichever the controllers. -/
theorem holdWindow_apart {c k o p : Nat} (ho : o < 0x40000) (hp : p < 0x40000) (h : o ≠ p) :
    blockBase .hold c + o ≠ blockBase .hold k + p := by
  have base (i : Nat) : blockBase .hold i = 0x300000 + i * 0x40000 := rfl
  rw [base, base]
  omega

/-- The press's counter of stale reads, in the upper half of the window. -/
theorem pressStale_eq (c : Nat) : Reg.pressStale c = blockBase .hold c + 0x20058 := Nat.add_assoc (blockBase .hold c) 0x20000 0x58

/-- From `d` to `e` the controllers keep their books: registers change at the offsets `os` of their windows alone, the queues
stay, and no memory and no message changes. -/
structure Dev.Books (os : List Nat) (d e : Dev) : Prop where
  mem : e.mem = d.mem
  ecc : e.ecc = d.ecc
  out : e.out = d.out
  press : e.press = d.press
  queue : ∀ c, (e.ctl c).q = (d.ctl c).q
  reg : ∀ i, (∀ c, ∀ o ∈ os, i ≠ blockBase .hold c + o) → e.reg i = d.reg i

namespace Dev.Books

variable {os ps : List Nat} {d e f : Dev}

theorem refl (d : Dev) : Books os d d := ⟨rfl, rfl, rfl, rfl, fun _ => rfl, fun _ _ => rfl⟩

theorem trans (h : Books os d e) (k : Books os e f) : Books os d f where
  mem := k.mem.trans h.mem
  ecc := k.ecc.trans h.ecc
  out := k.out.trans h.out
  press := k.press.trans h.press
  queue c := (k.queue c).trans (h.queue c)
  reg i hi := (k.reg i hi).trans (h.reg i hi)

theorem mono (h : Books os d e) (sub : os ⊆ ps) : Books ps d e :=
  ⟨h.mem, h.ecc, h.out, h.press, h.queue, fun i hi => h.reg i fun c o ho => hi c o (sub ho)⟩

theorem foldl {β : Type} {f : Dev → β → Dev} (hf : ∀ (d : Dev) b, Books os d (f d b)) (l : List β) (d : Dev) :
    Books os d (l.foldl f d) :=
  List.foldlRecOn l f (refl d) (fun e he b _ => he.trans (hf e b))

theorem setReg (d : Dev) (c : Nat) {o : Nat} (ho : o ∈ os) (v : Nat) : Books os d (d.setReg (blockBase .hold c + o) v) :=
  ⟨rfl, rfl, rfl, rfl, fun _ => rfl, fun _ hi => d.reg_setReg_other v (hi c o ho)⟩

theorem setCtl (d : Dev) (c : Nat) {x : HoldC} (hq : x.q = (d.ctl c).q) : Books os d (d.setCtl c x) where
  mem := rfl
  ecc := rfl
  out := rfl
  press := rfl
  queue k := by
    rw [Dev.ctl_setCtl]
    split
    · next h => rw [hq, h]
    · rfl
  reg _ _ := rfl


theorem byte (h : Books os d e) (z : Nat) : e.byte z = d.byte z := by unfold Dev.byte; rw [h.mem]

theorem bytes (h : Books os d e) (a n : Nat) : e.bytes a n = d.bytes a n := by
  unfold Dev.bytes; simp only [h.byte]

/-- Every other register of a window is as before. -/
theorem hold_reg (h : Books os d e) (c : Nat) {o : Nat} (ho : ∀ p ∈ o :: os, p < 0x40000) (hn : o ∉ os) :
    e.reg (blockBase .hold c + o) = d.reg (blockBase .hold c + o) := by
  refine h.reg _ fun k p hp => holdWindow_apart (ho o (by simp)) (ho p (by simp [hp])) ?_
  rintro rfl
  exact hn hp

theorem hold_fld (h : Books os d e) (c : Nat) {o : Nat} (f : Fld) (ho : ∀ p ∈ o :: os, p < 0x40000) (hn : o ∉ os) :
    e.fld (blockBase .hold c + o) f = d.fld (blockBase .hold c + o) f := by
  unfold Dev.fld; rw [h.hold_reg c ho hn]

theorem hold_flag (h : Books os d e) (c : Nat) {o : Nat} (f : Fld) (ho : ∀ p ∈ o :: os, p < 0x40000) (hn : o ∉ os) :
    e.flag (blockBase .hold c + o) f = d.flag (blockBase .hold c + o) f := by
  unfold Dev.flag; rw [h.hold_fld c f ho hn]

/-! The region table stands above all that the controllers count. -/

theorem rgn_reg (h : Books os d e) (hos : ∀ p ∈ os, p < 0x10000) {r o : Nat} (hr : r < 64) (lo : 0x10000 ≤ o) (hi : o < 0x10010) :
    e.reg (blockBase .hold 0 + o + 16 * r) = d.reg (blockBase .hold 0 + o + 16 * r) := by
  rw [Nat.add_assoc]
  refine h.reg _ fun k p hp => holdWindow_apart (by omega) ?_ ?_ <;>
    · have := hos p hp
      omega

theorem rgnOf (h : Books os d e) (hos : ∀ p ∈ os, p < 0x10000) (kind : Nat) : e.rgnOf kind = d.rgnOf kind := by
  unfold Dev.rgnOf
  rw [← List.head?_filter, ← List.head?_filter]
  refine congrArg List.head? (List.filter_congr fun r hr => ?_)
  have attr : e.reg (Reg.holdRgnAttr r) = d.reg (Reg.holdRgnAttr r) := h.rgn_reg hos (List.mem_range.mp hr) (by decide) (by decide)
  unfold Dev.rgnValid Dev.rgnKind Dev.flag Dev.fld
  rw [attr]

theorem rgnBytes (h : Books os d e) (hos : ∀ p ∈ os, p < 0x10000) {r : Nat} (hr : r < 64) : e.rgnBytes r = d.rgnBytes r := by
  unfold Dev.rgnBytes Dev.fld Reg.holdRgnSize
  rw [h.rgn_reg hos hr (by decide) (by decide)]

theorem rgnBase (h : Books os d e) (hos : ∀ p ∈ os, p < 0x10000) {r : Nat} (hr : r < 64) : e.rgnBase r = d.rgnBase r := by
  unfold Dev.rgnBase Dev.fld Reg.holdRgnBase
  rw [h.rgn_reg hos hr (by decide) (by decide)]

theorem kindBase (h : Books os d e) (hos : ∀ p ∈ os, p < 0x10000) (kind : Nat) : e.kindBase kind = d.kindBase kind := by
  unfold Dev.kindBase
  rw [h.rgnOf hos]
  cases hr : d.rgnOf kind with
  | none => rfl
  | some r =>
    exact h.rgnBase hos (List.mem_range.mp (List.mem_of_find?_eq_some hr))

end Dev.Books

open Dev (Books)

/-- What a transfer counts: corrections on the link and in the controller, bytes read, bytes written (R205, R209). -/
abbrev transferCounts : List Nat := [0x10, 0x28, 0x40, 0x44, 0x48, 0x4C]

section Accounts
variable (d : Dev)

theorem Dev.noteCorrected_books (c : Nat) (t : EccTries) : Books [0x10, 0x28] d (d.noteCorrected c t) := by
  unfold Dev.noteCorrected
  exact (Books.setReg (os := [0x10, 0x28]) d c (by decide) _).trans (.setReg _ c (by decide) _)

/-- Bytes read are counted at 40h and 44h, bytes written at 48h and 4Ch (R205). -/
theorem Dev.countHold_books (a n : Nat) (write : Bool) :
    Books [0x40, 0x44, 0x48, 0x4C] d (d.countHold a n write) := by
  unfold Dev.countHold
  refine Books.foldl (fun d i => ?_) _ d
  cases write
  · exact (Books.setReg d _ (by decide) _).trans (.setReg _ _ (by decide) _)
  · exact (Books.setReg d _ (by decide) _).trans (.setReg _ _ (by decide) _)

theorem Dev.scheduleRetire_books (a : Nat) : Books [0x30] d (d.scheduleRetire a) := by
  unfold Dev.scheduleRetire
  dsimp only
  split
  · exact .refl d
  · refine (Books.setCtl (os := [0x30]) d (ctlOf a) ?_).trans (.setReg (o := 0x30) _ _ (by decide) _)
    rfl

/-- A retry that passed is counted; the third of its page schedules the page (R210, R214). -/
theorem Dev.noteRetry_counts (a : Nat) : Books [0x14, 0x30] d (d.noteRetry a)
    ∧ (d.noteRetry a).reg (Reg.holdEccRetry (ctlOf a)) = min (d.reg (Reg.holdEccRetry (ctlOf a)) + 1) (2 ^ 32 - 1) := by
  unfold Dev.noteRetry
  dsimp only
  generalize hx : ({ d.ctl (ctlOf a) with retries := _ } : HoldC) = x
  have counted : Books [0x14, 0x30] d ((d.setCtl (ctlOf a) x).satFld (Reg.holdEccRetry (ctlOf a)) fld32 1) :=
    (Books.setCtl d (ctlOf a) (by rw [← hx])).trans (Books.setReg _ _ (by decide) _)
  have value := Dev.reg_satFld_word (d.setCtl (ctlOf a) x) (Reg.holdEccRetry (ctlOf a)) 1
  rw [Dev.reg_setCtl] at value
  split
  · have retire := Dev.scheduleRetire_books ((d.setCtl (ctlOf a) x).satFld (Reg.holdEccRetry (ctlOf a)) fld32 1) a
    exact ⟨counted.trans (retire.mono (by decide)), (retire.hold_reg _ (by decide) (by decide)).trans value⟩
  · exact ⟨counted, value⟩

/-- A read that carries a STEP is judged: at most the stale count of its press changes, and where no copy lies it is not stale
(R313). -/
theorem Dev.judgeStep_books (st : Word) (a n : Nat) : Books [0x20058] d (d.judgeStep .host st a n).1
    ∧ (d.copyAt a n = none → (d.judgeStep .host st a n).2 = false) := by
  unfold Dev.judgeStep
  cases hc : d.copyAt a n with
  | none => exact ⟨.refl d, fun _ => rfl⟩
  | some l =>
    refine ⟨?_, nofun⟩
    dsimp only
    split
    · exact .refl d
    · rw [pressStale_eq]
      exact .setReg d (ctlOf a) (by decide) _

end Accounts

/-! ## Interrupts, completions and the job's state -/

/-- From `d` to `e` the registers of `p` stay, and the controllers, and the START that waits for a mirror. -/
structure Dev.Keeps (p : Nat → Prop) (d e : Dev) : Prop where
  reg : ∀ {i}, p i → e.reg i = d.reg i
  hold : e.hold = d.hold
  start : e.host.stStart = d.host.stStart

/-- The registers of `p` are none of the logbook's. -/
def OffLog (p : Nat → Prop) : Prop := ∀ i, p i → i < Reg.bosLogNewestLo ∨ Reg.bosLogOldestHi < i

namespace Dev.Keeps

variable {p : Nat → Prop} {d e f : Dev}

theorem refl (d : Dev) : Keeps p d d := ⟨fun _ => rfl, rfl, rfl⟩

theorem trans (h : Keeps p d e) (k : Keeps p e f) : Keeps p d f :=
  ⟨fun hi => (k.reg hi).trans (h.reg hi), k.hold.trans h.hold, k.start.trans h.start⟩

theorem foldl {β : Type} {f : Dev → β → Dev} (l : List β) (hf : ∀ (d : Dev), ∀ b ∈ l, Keeps p d (f d b)) (d : Dev) :
    Keeps p d (l.foldl f d) :=
  List.foldlRecOn l f (refl d) (fun e he b hb => he.trans (hf e b hb))

theorem setReg (d : Dev) {off : Nat} (ho : ¬ p off) (v : Nat) : Keeps p d (d.setReg off v) :=
  ⟨fun {i} hi => d.reg_setReg_other v (fun h : i = off => ho (h ▸ hi)), rfl, rfl⟩

theorem store (d : Dev) (a : Nat) (bs : List Byte) : Keeps p d (d.store a bs) := ⟨fun _ => rfl, rfl, rfl⟩
theorem send (d : Dev) (m : Msg) : Keeps p d (d.send m) := ⟨fun _ => rfl, rfl, rfl⟩

theorem update (d : Dev) (h : Hal) (b : Bosun) (x : PressS) : Keeps p d { d with hal := h, bos := b, press := x } :=
  ⟨fun _ => rfl, rfl, rfl⟩

theorem host (d : Dev) {h : HostS} (hs : h.stStart = d.host.stStart) : Keeps p d { d with host := h } := ⟨fun _ => rfl, rfl, hs⟩

theorem irq (d : Dev) (v : Nat) : Keeps p d (d.irq v) := by
  unfold Dev.irq
  split
  · exact refl d
  · dsimp only
    split
    · exact .host d rfl
    · refine .trans (.host d ?_) (.send _ _)
      rfl

theorem pushCpl (d : Dev) (w : List Word) (noIrq : Bool) (ht : ¬ p Reg.hstCplTail) : Keeps p d (d.pushCpl w noIrq) := by
  unfold Dev.pushCpl
  split
  · exact .host d rfl
  · have entered (bs : List Byte) (v : Nat) := (store d (d.cplBase + 32 * d.fld Reg.hstCplTail F.hstCplTailTail) bs).trans (setReg _ ht v)
    dsimp only
    split <;> split
    · exact (entered _ _).trans (.host _ rfl)
    · exact entered _ _
    · refine ((entered _ _).trans (.host _ ?_)).trans (.irq _ _)
      rfl
    · exact (entered _ _).trans (.irq _ _)

theorem logEv (d : Dev) (cls block inst kind : Nat) (data : List Word) (first : Bool) (hl : OffLog p) :
    Keeps p d (d.logEv cls block inst kind data first) := by
  refine ⟨fun hi => d.reg_logEv _ _ _ _ _ _ (hl _ hi), ?_, ?_⟩ <;>
    obtain ⟨-, b, eq⟩ | ⟨b, -, eq⟩ := d.logEv_cases cls block inst kind data first <;> rw [eq] <;> unfold Dev.showLog
  · rw [Dev.setReg64_hold, Dev.setReg64_hold]
  · rw [Dev.setReg64_host, Dev.setReg64_host]

theorem setJst (d : Dev) (st : Nat) (hj : ¬ p Reg.hstJob) (hl : OffLog p) : Keeps p d (d.setJst st) := by
  unfold Dev.setJst
  exact ((setReg d hj _).trans (.logEv _ _ _ _ _ _ _ hl)).trans (.irq _ _)

theorem fatal (d : Dev) (block kind inst cause : Nat) (test : Option (Nat × Nat)) (hj : ¬ p Reg.hstJob)
    (ht : ¬ p Reg.hstCplTail) (hl : OffLog p) : Keeps p d (d.fatal block kind inst cause test) := by
  unfold Dev.fatal
  split
  · exact .logEv d _ _ _ _ _ _ hl
  · have failed := (logEv d 3 block inst kind [] false hl).trans (.setJst _ JobSt.failed hj hl)
    refine Keeps.trans ?_ (.send _ _)
    refine Keeps.trans ?_ (.irq _ _)
    refine Keeps.trans ?_ (.pushCpl _ _ _ ht)
    exact (failed.trans (.update _ _ _ _)).trans (.setReg _ hj _)

/-- What an error means beyond its access error reaches the mirror's registers and those of the job's state (R211). -/
theorem holdUeClass (d : Dev) (a kind : Nat) (hm : ¬ p Reg.pressMirrorHeld) (hs : ¬ p Reg.pressMirrorHeldStep)
    (hj : ¬ p Reg.hstJob) (ht : ¬ p Reg.hstCplTail) (hl : OffLog p) : Keeps p d (d.holdUeClass a kind) := by
  have stops := fatal d 0x04 kind (ctlOf a) 5 (some (3, ctlOf a)) hj ht hl
  unfold Dev.holdUeClass
  cases d.rgnAt a with
  | none => exact .logEv d _ _ _ _ _ _ hl
  | some r =>
    dsimp only
    split
    · exact (((update d d.hal d.bos _).trans (.setReg _ hm _)).trans (.setReg _ hs _)).trans (.store _ _ _)
    · split
      · exact .refl d
      · split
        · exact stops
        · split
          · exact stops
          · exact .refl d

end Dev.Keeps

open Dev (Keeps)

/-- None of these is a controller's own. -/
theorem Dev.reg_holdUeClass (d : Dev) (a kind : Nat) (c : Ctl) {o : Nat} (ho : o < 0x20000) :
    (d.holdUeClass a kind).reg (blockBase .hold c + o) = d.reg (blockBase .hold c + o) := by
  have place : blockBase .hold c = 0x300000 + c.val * 0x40000 := rfl
  refine Keeps.reg (p := (· = blockBase .hold c + o)) (.holdUeClass d a kind ?_ ?_ ?_ ?_ ?_) rfl
  · rw [show Reg.pressMirrorHeld = 0x320130 from rfl]; omega
  · rw [show Reg.pressMirrorHeldStep = 0x320134 from rfl]; omega
  · rw [show Reg.hstJob = 0x500004 from rfl]; omega
  · rw [show Reg.hstCplTail = 0x50003C from rfl]; omega
  · rintro i rfl
    rw [bosLogOldestHi_eq]
    omega

/-! ## The first uncorrectable error of a controller (R210, R212) -/

/-- The first error: UE, the layer that found it, the burst's address. -/
def Dev.firstHoldUe (d : Dev) (c layer b : Nat) : Dev :=
  (((d.satFld (Reg.holdEccUe c) F.holdEccUeCount 1).setFlag (Reg.holdEccUe c) F.holdEccUeUe true).setFld (Reg.holdEccUe c)
    F.holdEccUeLayer layer).setReg64 (Reg.holdUeAddrLo c) (Reg.holdUeAddrHi c) b

/-- The registers of controller `c` show an error of the layer at burst `b`. -/
structure Dev.ShowsUe (d : Dev) (c layer b : Nat) : Prop where
  ue : d.flag (Reg.holdEccUe c) F.holdEccUeUe = true
  layer : d.fld (Reg.holdEccUe c) F.holdEccUeLayer = layer % 4
  addr : d.reg64 (Reg.holdUeAddrLo c) (Reg.holdUeAddrHi c) = b % 2 ^ 64

/-- What keeps the three registers keeps what they show. -/
theorem Dev.ShowsUe.keep {d e : Dev} {c layer b : Nat} (h : d.ShowsUe c layer b)
    (hr : ∀ o ∈ [0x18, 0x20, 0x24], e.reg (blockBase .hold c + o) = d.reg (blockBase .hold c + o)) : e.ShowsUe c layer b := by
  have ue : e.reg (Reg.holdEccUe c) = d.reg (Reg.holdEccUe c) := hr 0x18 (by decide)
  have lo : e.reg (Reg.holdUeAddrLo c) = d.reg (Reg.holdUeAddrLo c) := hr 0x20 (by decide)
  have hi : e.reg (Reg.holdUeAddrHi c) = d.reg (Reg.holdUeAddrHi c) := hr 0x24 (by decide)
  obtain ⟨h1, h2, h3⟩ := h
  refine ⟨?_, ?_, ?_⟩
  · rw [← h1]; unfold Dev.flag Dev.fld; rw [ue]
  · rw [← h2]; unfold Dev.fld; rw [ue]
  · rw [← h3]; unfold Dev.reg64; rw [lo, hi]

theorem Dev.ShowsUe.withEcc {d : Dev} {c layer b : Nat} (h : d.ShowsUe c layer b) (x : Sparse Nat) :
    ({ d with ecc := x } : Dev).ShowsUe c layer b := ⟨h.ue, h.layer, h.addr⟩

theorem Dev.ShowsUe.send {d : Dev} {c layer b : Nat} (h : d.ShowsUe c layer b) (m : Msg) : (d.send m).ShowsUe c layer b :=
  h.keep fun _ _ => Dev.reg_send ..

theorem Dev.ShowsUe.canon {d : Dev} {c layer b : Nat} (h : d.ShowsUe c layer b) : d.canon.ShowsUe c layer b :=
  h.keep fun _ _ => Dev.reg_canon ..

theorem Dev.ShowsUe.logEv {d : Dev} {c : Ctl} {layer b : Nat} (h : d.ShowsUe c layer b) (cls block inst kind : Nat) (data : List Word) :
    (d.logEv cls block inst kind data).ShowsUe c layer b :=
  h.keep fun o _ => Dev.reg_logEv _ _ _ _ _ _ _ (.inr (by
    rw [bosLogOldestHi_eq, show blockBase .hold c = 0x300000 + c.val * 0x40000 from rfl]
    omega))

theorem Dev.firstHoldUe_shows (d : Dev) (c layer b : Nat) : (d.firstHoldUe c layer b).ShowsUe c layer b := by
  have apart : Reg.holdUeAddrLo c ≠ Reg.holdUeAddrHi c := holdWindow_apart (by decide) (by decide) (by decide)
  have lo : Reg.holdEccUe c ≠ Reg.holdUeAddrLo c := holdWindow_apart (by decide) (by decide) (by decide)
  have hi : Reg.holdEccUe c ≠ Reg.holdUeAddrHi c := holdWindow_apart (by decide) (by decide) (by decide)
  have kept (d : Dev) (f : Fld) : (d.setReg64 (Reg.holdUeAddrLo c) (Reg.holdUeAddrHi c) b).fld (Reg.holdEccUe c) f
      = d.fld (Reg.holdEccUe c) f := by
    unfold Dev.fld; rw [Dev.reg_setReg64_other _ _ lo hi]
  unfold Dev.firstHoldUe
  refine ⟨?_, ?_, Dev.reg64_setReg64 _ _ apart⟩
  · unfold Dev.flag
    rw [kept, Dev.fld_setFld_apart _ _ _ (by decide) (.inl (by decide))]
    exact Dev.flag_setFlag_same _ _ _ _ (by decide) (by decide)
  · rw [kept, Dev.fld_setFld_same _ _ _ _ (by decide)]
    rfl

/-- The first error of a controller that its own check did not find is recorded, and its page is to be retired. -/
theorem Dev.recordHoldUe_first {d : Dev} {a layer : Nat} (hl : layer ≠ 2)
    (hu : d.flag (Reg.holdEccUe (ctlOf a)) F.holdEccUeUe = false) : d.recordHoldUe a layer =
      Dev.scheduleRetire { d.firstHoldUe (ctlOf a) layer (a / 64 * 64) with
        ecc := Sparse.set (fun _ => 0) (d.firstHoldUe (ctlOf a) layer (a / 64 * 64)).ecc (a / 64 * 64) 2 } (a / 64 * 64) := by
  have first : (d.satFld (Reg.holdEccUe (ctlOf a)) F.holdEccUeCount 1).flag (Reg.holdEccUe (ctlOf a)) F.holdEccUeUe = false := by
    unfold Dev.flag Dev.satFld at *
    rw [Dev.fld_setFld_apart _ _ _ (by decide) (.inl (by decide)), hu]
  unfold Dev.recordHoldUe
  simp only [first, hl, Bool.false_eq_true, if_false]
  rfl

/-- It shows in the registers; no byte and no message changes. -/
theorem Dev.recordHoldUe_first_shows {d : Dev} {a c layer : Nat} (hl : layer ≠ 2) (hc : ctlOf a = c)
    (hu : d.flag (Reg.holdEccUe c) F.holdEccUeUe = false) :
    (d.recordHoldUe a layer).ShowsUe c layer (a / 64 * 64) ∧ (d.recordHoldUe a layer).mem = d.mem
      ∧ (d.recordHoldUe a layer).out = d.out := by
  subst hc
  have shown := d.firstHoldUe_shows (ctlOf a) layer (a / 64 * 64)
  have mem : (d.firstHoldUe (ctlOf a) layer (a / 64 * 64)).mem = d.mem := by simp [Dev.firstHoldUe]
  have out : (d.firstHoldUe (ctlOf a) layer (a / 64 * 64)).out = d.out := by simp [Dev.firstHoldUe]
  rw [Dev.recordHoldUe_first hl hu]
  generalize d.firstHoldUe (ctlOf a) layer (a / 64 * 64) = f at *
  generalize Sparse.set (fun _ => 0) f.ecc (a / 64 * 64) 2 = x
  have books := Dev.scheduleRetire_books { f with ecc := x } (a / 64 * 64)
  refine ⟨(shown.withEcc x).keep fun o ho => ?_, books.mem.trans mem, books.out.trans out⟩
  simp only [List.mem_cons, List.not_mem_nil, or_false] at ho
  obtain rfl | rfl | rfl := ho <;> exact books.hold_reg _ (by decide) (by decide)

/-- A read that fails at its one burst shows it there (R210, R211). -/
theorem Dev.holdLost_shows {d : Dev} {a n : Nat} {c : Ctl} (he : d.ecc = []) (hb : a / 64 = (a + n - 1) / 64)
    (hc : ctlOf (a / 64 * 64) = c) (hu : d.flag (Reg.holdEccUe c) F.holdEccUeUe = false) :
    (d.holdLost a n 1).ShowsUe c 1 (a / 64 * 64) := by
  have burst : d.failedBurst a n = (d, a / 64 * 64) := by
    simp [Dev.failedBurst, Dev.eccFirst, he, ← hb]
  obtain ⟨shown, -, -⟩ := Dev.recordHoldUe_first_shows (d := d) (layer := 1) (by decide) hc hu
  rw [Nat.mul_div_cancel _ (by decide : 0 < 64)] at shown
  unfold Dev.holdLost Dev.holdUe
  rw [burst]
  refine shown.keep fun o ho => Dev.reg_holdUeClass _ _ _ c ?_
  simp only [List.mem_cons, List.not_mem_nil, or_false] at ho
  omega

/-! ## The one request that waits at a controller is served (R206, R207) -/

section Served
variable {d : Dev} {c : Ctl} {r : HoldReqS}

theorem Dev.holdNext_sole {write : Bool} (hq : (d.ctl c).q = [r]) (hw : opIsWrite r.op = write) : d.holdNext c 0 write = some r := by
  have serves : d.mayServe c r.press = true := by simp [Dev.mayServe, hq]
  have ready : (d.ctl c).ready 0 = true := by simp [HoldC.ready, hq]
  simp [Dev.holdNext, hq, hw, serves, ready]

theorem Dev.holdCleared_open (ho : d.flag (Reg.holdStatus 0) F.holdStatusClearing = false) (r : HoldReqS) : d.holdCleared r = false := by
  unfold Dev.holdCleared
  rw [ho, Bool.and_false]

theorem Dev.queue_holdTake_sole (hq : (d.ctl c).q = [r]) : ((d.holdTake c 0 r).ctl c).q = [] := by
  unfold Dev.holdTake
  rw [Dev.ctl_setCtl, if_pos rfl, hq]
  rfl

end Served

/-- The request's bytes are delivered or stored, and it is answered. -/
def Dev.delivers (d : Dev) (c : Nat) (r : HoldReqS) : Dev :=
  (d.holdPerform r).1.holdAnswer c ((d.holdPerform r).2.taken.map (fun bs => (bs, (d.holdPerform r).2.stale)))

/-- A read taken from its queue: corrections are counted, and its bursts (R205, R209). -/
def Dev.readTaken (d : Dev) (c : Nat) (r : HoldReqS) (t : EccTries) : Dev :=
  ((d.holdTake c 0 r).noteCorrected c t).countHold (opAddr r.op) (opSize r.op) false

theorem Dev.readTaken_books (d : Dev) (c : Nat) (r : HoldReqS) (t : EccTries) :
    Books transferCounts (d.holdTake c 0 r) (d.readTaken c r t) :=
  ((Dev.noteCorrected_books _ c t).mono (by decide)).trans ((Dev.countHold_books _ _ _ _).mono (by decide))

section Completions
variable {s : State} {c : Ctl} {r : HoldReqS} (hq : (s.dev.ctl c).q = [r]) (ho : s.dev.holdCleared r = false)
include hq ho

/-- A read's tries decide: it is delivered, or it is answered with an access error. -/
theorem exec_holdReadComplete_sole (hw : opIsWrite r.op = false) {t : EccTries} (hp : t.pathUe = false) {d : Dev} {ok : Bool}
    {ts : List Bool} (hr : (s.dev.readTaken c r t).holdReads (opAddr r.op) (opSize r.op) t.tries = (d, ok, ts)) :
    exec (.holdReadComplete c 0 t) s = answer s (if ok then d.delivers c r else d.holdAnswer c none) := by
  refine congrArg (answer s) ?_
  have taken : (s.dev.holdTake c 0 r).holdCleared r = false := ho
  unfold Dev.readTaken at hr
  dsimp only
  rw [Dev.holdNext_sole hq hw]
  dsimp only
  rw [taken, hr, hp]
  cases ok <;> rfl

/-- A write in which no check fails is stored and acknowledged. -/
theorem exec_holdWriteComplete_sole {path : Fin 8} {a : Nat} {bs : List Byte} (hr : r = ⟨false, path, .write a bs, none, false⟩) :
    ∃ e, Books transferCounts (s.dev.holdTake c 0 r) e ∧ exec (.holdWriteComplete c 0 ⟨[], 0, 0, false⟩) s
      = answer s ((e.holdStore (path == 5) a bs).send (.holdData c true [] false)) := by
  have hw : opIsWrite r.op = true := by rw [hr]; rfl
  have taken : (s.dev.holdTake c 0 r).holdCleared r = false := ho
  have corrected := ((s.dev.holdTake c 0 r).noteCorrected_books c ⟨[], 0, 0, false⟩).mono
    (ps := transferCounts) (by decide)
  have counts (d : Dev) (w : Bool) := (d.countHold_books (opAddr r.op) (opSize r.op) w).mono
    (ps := transferCounts) (by decide)
  cases hm : opRmw r.op with
  | true =>
    refine ⟨_, (corrected.trans (counts _ false)).trans (counts _ true), congrArg (answer s) ?_⟩
    dsimp only
    rw [Dev.holdNext_sole hq hw]
    dsimp only
    rw [taken, hm, hr]
    rfl
  | false =>
    refine ⟨_, corrected.trans (counts _ true), congrArg (answer s) ?_⟩
    dsimp only
    rw [Dev.holdNext_sole hq hw]
    dsimp only
    rw [taken, hm, hr]
    rfl

end Completions

/-! ## What a completed read delivers (R207, R210, R313) -/

theorem Dev.copyAt_of_press {d e : Dev} (h : e.press = d.press) (a n : Nat) : e.copyAt a n = d.copyAt a n := by
  unfold Dev.copyAt; rw [h]

/-- A read delivers the bytes of its range; at most the count of stale reads changes. -/
theorem Dev.delivers_read (d : Dev) (c : Nat) (path : Fin 8) (a n : Nat) (st : Word) : ∃ e stale, Books [0x20058] d e
    ∧ (d.copyAt a n = none → stale = false)
    ∧ d.delivers c ⟨false, path, .read a n st, none, false⟩ = e.send (.holdData c true (d.bytes a n) stale) := by
  obtain ⟨books, fresh⟩ := d.judgeStep_books st a n
  cases hj : decide (path.val < 3) || path.val == 4 with
  | true =>
    refine ⟨_, _, books, fresh, ?_⟩
    simp [Dev.delivers, Dev.holdPerform, Dev.holdAnswer, hj]
  | false =>
    refine ⟨d, false, .refl d, fun _ => rfl, ?_⟩
    simp [Dev.delivers, Dev.holdPerform, Dev.holdAnswer, hj]

/-! ## What a completed write stores (R207, R334) -/

/-- Outside the mirror's region a write stores its bytes; of the rest at most the count of image bytes changes. -/
theorem Dev.holdStore_outside_mirror {d : Dev} {a : Nat} {bs : List Byte} (lane3 : Bool)
    (h : ∀ r, d.rgnOf 2 = some r → a + bs.length ≤ d.mirrorAt ∨ d.mirrorAt + max 64 (d.rgnBytes r) ≤ a) :
    d.holdStore lane3 a bs = d.store a bs
      ∨ ∃ v, d.holdStore lane3 a bs = (d.store a bs).setReg64 Reg.pressMirrorRxLo Reg.pressMirrorRxHi v := by
  unfold Dev.holdStore
  cases hr : d.rgnOf 2 with
  | none => exact .inl rfl
  | some r =>
    have same : (d.store a bs).mirrorAt = d.mirrorAt := rfl
    have apart := h r hr
    have verified : ¬ (a ≤ d.mirrorAt + 1 ∧ d.mirrorAt + 1 < a + bs.length) := by omega
    have head : ¬ (a < d.mirrorAt + 64 ∧ d.mirrorAt < a + bs.length) := by omega
    unfold Dev.mirrorPut
    simp only [Option.isSome_some, if_true, same, verified, head, if_false]
    generalize (min _ _ - max _ _ : Nat) = image
    split
    · exact .inr ⟨_, rfl⟩
    · exact .inl rfl

/-! ## Requests (R206, R217) -/

theorem holdPath_fabric {path : Fin 8} (hp : path.val < 7) : holdPath false path = .fabric path := by
  unfold holdPath
  rw [if_neg (by decide), if_neg (by omega)]

section Requests
variable {s : State} {c : Ctl} {path : Fin 8} {op : HoldOp} (hp : path.val < 7) (hat : opIsAt op c = true)
  (ho : s.dev.flag (Reg.holdStatus 0) F.holdStatusClearing = false) (hc : s.dev.retainedClosed (opAddr op) (opSize op) = false)
include hp hat ho hc

/-- A request that its region admits joins its controller's queue. -/
theorem exec_holdRequest_admitted (hr : s.dev.regionOk (.fabric path) (opAddr op) (opSize op) (opIsWrite op) = true) :
    exec (.holdRequest c false path op) s
      = answer s (s.dev.setCtl c { s.dev.ctl c with q := (s.dev.ctl c).q ++ [⟨false, path, op, none, false⟩] }) := by
  refine congrArg (answer s) ?_
  have admitted : s.dev.holdRefused (holdPath false path) (opAddr op) (opSize op) (opIsWrite op) = none := by
    simp [Dev.holdRefused, holdPath_fabric hp, ho, hc, hr]
  dsimp only
  rw [admitted, hat]
  rfl

/-- One that its region refuses is logged and answered with an access error. -/
theorem exec_holdRequest_refused (hr : s.dev.regionOk (.fabric path) (opAddr op) (opSize op) (opIsWrite op) = false) :
    exec (.holdRequest c false path op) s = answer s ((s.dev.logUnpopulated (opAddr op)).holdAnswer c none) := by
  refine congrArg (answer s) ?_
  have refused : s.dev.holdRefused (holdPath false path) (opAddr op) (opSize op) (opIsWrite op)
      = some (s.dev.logUnpopulated (opAddr op)) := by
    simp [Dev.holdRefused, holdPath_fabric hp, ho, hc, hr]
  dsimp only
  rw [refused, hat]
  rfl

end Requests

theorem Dev.ctl_logUnpopulated (d : Dev) (a c : Nat) : (d.logUnpopulated a).ctl c = d.ctl c := by
  unfold Dev.ctl Dev.logUnpopulated
  rw [(Keeps.logEv d 0 0x02 0 0 _ false (p := fun _ => False) nofun).hold]

theorem holdAccesses : Parts.HoldAccesses := by
  intro s c path a n bs st hp htop hn hctl hgran he rd wr open_ none_ q
  have ctl : ctlOf a = c := hctl
  have at_ : opIsAt (.read a n st) c = true := by
    simp [opIsAt, opAddr, opSize, hn, ctl, ← hgran, holdTop, htop]
  refine ⟨fun ho hcl => ⟨fun hr => ?admitted, fun hr => ?refused⟩, fun hq ho => ⟨?plain, ?retried, fun hu hb => ?failed⟩,
    fun hq ho hlen apart => ?written⟩
  case admitted => exact exec_holdRequest_admitted hp at_ ho hcl hr
  case refused =>
    refine ⟨_, exec_holdRequest_refused hp at_ ho hcl hr, ?_, ?_⟩
    · unfold Dev.holdAnswer Dev.logUnpopulated
      rw [Dev.canon_out, Dev.send_out, Dev.logEv_out]
    · unfold Dev.holdAnswer
      rw [Dev.ctl_canon, Dev.ctl_send, Dev.ctl_logUnpopulated]
  case plain =>
    have taken := s.dev.readTaken_books c rd none_
    have run := exec_holdReadComplete_sole (t := none_) hq (Dev.holdCleared_open ho rd) rfl rfl rfl
    obtain ⟨e, stale, judged, fresh, eq⟩ := (s.dev.readTaken c rd none_).delivers_read c path a n st
    refine ⟨_, stale, run.trans (congrArg (answer s) eq), ?_, ?_, fun hn => fresh ((Dev.copyAt_of_press taken.press a n).trans hn)⟩
    · rw [Dev.ctl_canon, Dev.ctl_send, judged.queue, taken.queue, Dev.queue_holdTake_sole hq]
    · rw [Dev.canon_out, Dev.send_out, judged.out, taken.out, taken.bytes]
      rfl
  case retried =>
    have taken := s.dev.readTaken_books c rd ⟨[false, true], 0, 0, false⟩
    obtain ⟨retry, count⟩ := (s.dev.readTaken c rd ⟨[false, true], 0, 0, false⟩).noteRetry_counts a
    have run := exec_holdReadComplete_sole (t := ⟨[false, true], 0, 0, false⟩) hq (Dev.holdCleared_open ho rd) rfl rfl rfl
    obtain ⟨e, stale, judged, -, eq⟩ :=
      ((s.dev.readTaken c rd ⟨[false, true], 0, 0, false⟩).noteRetry a).delivers_read c path a n st
    refine ⟨_, stale, run.trans (congrArg (answer s) eq), ?_, ?_⟩
    · rw [Dev.canon_out, Dev.send_out, judged.out, retry.out, taken.out, retry.bytes, taken.bytes]
      rfl
    · rw [ctl] at count
      have before := taken.hold_reg c (o := 0x14) (by decide) (by decide)
      rw [Dev.reg_canon, Dev.reg_send]
      calc e.reg (Reg.holdEccRetry c) = _ := judged.hold_reg c (by decide) (by decide)
        _ = _ := count
        _ = _ := congrArg (fun v => min (v + 1) (2 ^ 32 - 1)) before
  case failed =>
    have taken := s.dev.readTaken_books c rd ⟨[false, false, false], 0, 0, false⟩
    have run := exec_holdReadComplete_sole (t := ⟨[false, false, false], 0, 0, false⟩) hq (Dev.holdCleared_open ho rd) rfl rfl rfl
    have burst : ctlOf (a / 64 * 64) = c := by rw [← ctl]; unfold ctlOf; omega
    have shown := Dev.holdLost_shows (taken.ecc.trans he) hb burst ((taken.hold_flag c _ (by decide) (by decide)).trans hu)
    obtain ⟨ue, -, addr⟩ := (shown.send (.holdData c false [] false)).canon
    rw [Nat.mod_eq_of_lt (by omega : a / 64 * 64 < 2 ^ 64)] at addr
    exact ⟨_, run, List.mem_append_right _ (List.mem_singleton_self _), ue, addr⟩
  case written =>
    obtain ⟨e, counted, run⟩ := exec_holdWriteComplete_sole hq (Dev.holdCleared_open ho wr) rfl
    have low : ∀ p ∈ transferCounts, p < 0x10000 := by decide
    have outside : ∀ r, e.rgnOf 2 = some r → a + bs.length ≤ e.mirrorAt ∨ e.mirrorAt + max 64 (e.rgnBytes r) ≤ a := by
      intro r hr
      rw [counted.rgnOf low] at hr
      rw [Dev.mirrorAt, counted.kindBase low, counted.rgnBytes low (List.mem_range.mp (List.mem_of_find?_eq_some hr)), hlen]
      exact apart r hr
    have bytes (z : Nat) : (e.store a bs).byte z = if a ≤ z ∧ z < a + n then bs.getD (z - a) 0 else s.dev.byte z := by
      rw [Dev.byte_store, counted.byte, hlen]
      rfl
    have queue : (e.ctl c).q = [] := by rw [counted.queue, Dev.queue_holdTake_sole hq]
    have out : e.out = s.dev.out := counted.out
    obtain eq | ⟨v, eq⟩ := Dev.holdStore_outside_mirror (path == 5) outside <;> rw [eq] at run <;>
      exact ⟨_, run, by simp [queue], by simp [Dev.send_out, out], fun z => by simp [bytes]⟩

/-! ## Maintenance (R204, R212, R213) -/

/-- The patrol's read of one burst: corrections are counted, and its 64 bytes. -/
def Dev.patrolled (d : Dev) (c : Nat) (a : Nat) (t : EccTries) : Dev := (d.noteCorrected c t).countHold a 64 false

theorem Dev.patrolled_books (d : Dev) (c a : Nat) (t : EccTries) : Books transferCounts d (d.patrolled c a t) :=
  ((d.noteCorrected_books c t).mono (by decide)).trans ((Dev.countHold_books _ a 64 false).mono (by decide))

/-- A whole burst is one count of 64 at its controller. -/
theorem Dev.countHold_burst (d : Dev) (burst : Nat) : d.countHold (64 * burst) 64 false
    = d.inc64 (Reg.holdRdBytesLo (ctlOf (64 * burst))) (Reg.holdRdBytesHi (ctlOf (64 * burst))) 64 := by
  have one : (64 * burst + 64 - 1) / 64 + 1 - 64 * burst / 64 = 1 := by omega
  have first : (64 * burst / 64 + 0) * 64 / 256 % 4 = ctlOf (64 * burst) := by unfold ctlOf; omega
  unfold Dev.countHold
  rw [one, List.range_one, List.foldl_cons, List.foldl_nil]
  dsimp only
  rw [first]
  rfl

section Patrol
variable {s : State} {c : Ctl} {burst : Nat} {t : EccTries}

/-- The patrol reads in a slot that neither side uses; what it finds raises no access error. -/
theorem exec_holdPatrol (hl : s.dev.jobLoaded = true) (ha : 64 * burst < holdTop) (hc : ctlOf (64 * burst) = c)
    (hq : (s.dev.ctl c).q = []) {ok : Bool} {n : Nat} {ts : List Bool} (hr : runTries 3 t.tries = (ok, n, ts)) :
    exec (.holdPatrol c burst t) s = answer s (
      if ok then (if 0 < n then (s.dev.patrolled c (64 * burst) t).noteRetry (64 * burst) else s.dev.patrolled c (64 * burst) t)
      else ((s.dev.patrolled c (64 * burst) t).recordHoldUe (64 * burst) 3).logEv 0 4 c 3
        [w32 (64 * burst), w32 (64 * burst / 2 ^ 32)]) := by
  refine congrArg (answer s) ?_
  have free : (!s.dev.jobLoaded || decide (holdTop ≤ 64 * burst) || ctlOf (64 * burst) != c.val || !(s.dev.ctl c).q.isEmpty) = false := by
    simp [hl, hc, hq, ha]
  unfold Dev.patrolled
  dsimp only
  rw [free, hr]
  simp only [Bool.false_eq_true, if_false]

theorem exec_holdPatrol_noJob (hl : s.dev.jobLoaded = false) : exec (.holdPatrol c burst t) s = answer s s.dev := by
  refine congrArg (answer s) ?_
  dsimp only
  rw [hl]
  rfl

end Patrol

/-- The first bank of a channel's round: the round goes on. -/
theorem exec_perBankRefresh_first (s : State) (c : Ctl) (ch bank : Fin 16) (h : (s.dev.ctl c).refreshed = []) :
    exec (.perBankRefresh c ch bank) s
      = answer s (s.dev.setCtl c { s.dev.ctl c with refreshed := [16 * ch.val + bank.val] }) := by
  refine congrArg (answer s) ?_
  have unfinished : (List.range 16).all (fun b => [16 * ch.val + bank.val].contains (16 * ch.val + b)) = false := by
    rw [List.all_eq_false]
    refine ⟨if bank.val = 0 then 1 else 0, ?_, ?_⟩ <;> split <;> simp <;> omega
  dsimp only
  rw [h]
  dsimp only [List.contains_nil]
  simp only [Bool.false_eq_true, if_false, unfinished]

theorem holdMaintenance : Parts.HoldMaintenance := by
  intro s c burst ch bank a
  refine ⟨fun hl ha hctl hq => ⟨?sound, fun hu => ?found⟩, exec_holdPatrol_noJob, rfl, rfl, exec_perBankRefresh_first s c ch bank⟩
  case sound =>
    have books := s.dev.patrolled_books c a ⟨[], 0, 0, false⟩
    have ctl : ctlOf (64 * burst) = c := hctl
    have apart : Reg.holdRdBytesLo c ≠ Reg.holdRdBytesHi c := holdWindow_apart (by decide) (by decide) (by decide)
    have corrected := s.dev.noteCorrected_books c ⟨[], 0, 0, false⟩
    have before : (s.dev.noteCorrected c ⟨[], 0, 0, false⟩).reg64 (Reg.holdRdBytesLo c) (Reg.holdRdBytesHi c)
        = s.dev.reg64 (Reg.holdRdBytesLo c) (Reg.holdRdBytesHi c) := by
      unfold Dev.reg64 Reg.holdRdBytesLo Reg.holdRdBytesHi
      rw [corrected.hold_reg c (by decide) (by decide), corrected.hold_reg c (by decide) (by decide)]
    have run := exec_holdPatrol (t := ⟨[], 0, 0, false⟩) hl ha hctl hq rfl
    rw [if_pos rfl, if_neg (by decide)] at run
    refine ⟨_, run, fun z => (Dev.byte_canon _ z).trans (books.byte z), ?_⟩
    rw [Dev.reg64_canon, Dev.patrolled, Dev.countHold_burst, ctl, Dev.inc64, Dev.reg64_setReg64 _ _ apart, before]
  case found =>
    have books := s.dev.patrolled_books c a ⟨[false, false, false], 0, 0, false⟩
    obtain ⟨shown, mem, out⟩ := Dev.recordHoldUe_first_shows (layer := 3) (by decide) hctl
      ((books.hold_flag c F.holdEccUeUe (o := 0x18) (by decide) (by decide)).trans hu)
    obtain ⟨ue, layer, -⟩ := (shown.logEv 0 4 c 3 [w32 (64 * burst), w32 (64 * burst / 2 ^ 32)]).canon
    have run := exec_holdPatrol (t := ⟨[false, false, false], 0, 0, false⟩) hl ha hctl hq rfl
    rw [if_neg (by decide)] at run
    refine ⟨_, run, ue, layer, ?_, fun z => ?_⟩
    · rw [Dev.canon_out, Dev.logEv_out, out, books.out]
    · rw [Dev.byte_canon, Dev.byte_logEv]
      unfold Dev.byte
      rw [mem, books.mem]

/-- Settles O35: with one request waiting, a completion is one equation of the device, and what the controllers count on the way
touches no memory, no message and no register that the clauses name; the patrol is a read without an answer. -/
theorem hold : Obligations.Hold := ⟨holdAccesses, holdMaintenance⟩

end Sys2Proof.Machine

namespace Sys2Proof.Machine

/-! # The clear of a job boundary (R215, R220 to R222, R442) and the movement of a proof (R337, R341) -/

open Dev (Keeps)

/-! ## The clear: what it does to memory it does by clearing the memories -/

/-- From `d` to `e` memory stays, and the record of the retained range. -/
structure Dev.KeepsMemory (d e : Dev) : Prop where
  mem : e.mem = d.mem
  retained : e.bos.retained = d.bos.retained

namespace Dev.KeepsMemory

variable {d e f : Dev}

theorem refl (d : Dev) : KeepsMemory d d := ⟨rfl, rfl⟩

theorem trans (h : KeepsMemory d e) (k : KeepsMemory e f) : KeepsMemory d f :=
  ⟨k.mem.trans h.mem, k.retained.trans h.retained⟩

theorem foldl {β : Type} {f : Dev → β → Dev} (hf : ∀ (d : Dev) b, KeepsMemory d (f d b)) (l : List β) (d : Dev) :
    KeepsMemory d (l.foldl f d) :=
  List.foldlRecOn l f (refl d) (fun e he b _ => he.trans (hf e b))

theorem setReg (d : Dev) (off v : Nat) : KeepsMemory d (d.setReg off v) := ⟨rfl, rfl⟩
theorem dropRegs (d : Dev) (p : RegName → Bool) : KeepsMemory d (d.dropRegs p) := ⟨rfl, rfl⟩

theorem logEv (d : Dev) (cls block inst kind : Nat) (data : List Word) (first : Bool) :
    KeepsMemory d (d.logEv cls block inst kind data first) := by
  have entered : ∃ b : Bosun, b.retained = d.bos.retained ∧ (d.logEv cls block inst kind data first = { d with bos := b }
      ∨ d.logEv cls block inst kind data first = { d with bos := b }.showLog) := by
    unfold Dev.logEv
    split
    · refine ⟨_, ?_, .inl rfl⟩
      rfl
    · refine ⟨_, ?_, .inr rfl⟩
      rfl
  obtain ⟨b, hb, e | e⟩ := entered <;> rw [e]
  · exact ⟨rfl, hb⟩
  · exact ⟨Dev.showLog_mem _, (congrArg Bosun.retained (Dev.showLog_bos _)).trans hb⟩

theorem logFaults (d : Dev) : KeepsMemory d d.logFaults := by
  unfold Dev.logFaults
  refine foldl (fun acc e => ?_) _ d
  cases regAt e.1 with
  | none => exact refl acc
  | some r =>
    dsimp only
    cases faultShape r.d.name with
    | none => exact refl acc
    | some f =>
      dsimp only
      split
      · exact logEv acc ..
      · exact refl acc

theorem logCounters (d : Dev) : KeepsMemory d d.logCounters := by
  unfold Dev.logCounters
  refine foldl (fun acc e => ?_) _ d
  cases regAt e.1 with
  | none => exact refl acc
  | some r =>
    dsimp only
    split
    · exact logEv acc ..
    · exact refl acc

theorem dropRegions (d : Dev) : KeepsMemory d d.dropRegions := by
  unfold Dev.dropRegions
  refine foldl (fun acc r => ?_) _ d
  split
  · exact refl acc
  · exact setReg acc _ _

theorem lnkWide (d : Dev) (n : Nat) (wide : Bool) : KeepsMemory d (d.lnkWide n wide) := by
  unfold Dev.lnkWide
  dsimp only
  split
  · exact (setReg d _ _).trans (setReg _ _ _)
  · split
    · exact (setReg d _ _).trans (setReg _ _ _)
    · exact setReg d _ _

theorem powerEnd (d : Dev) : KeepsMemory d d.powerEnd := by
  constructor <;> simp [Dev.powerEnd, Dev.showReef]

theorem setClearing (d : Dev) (b : Bool) : KeepsMemory d (d.setClearing b) := by
  unfold Dev.setClearing
  exact foldl (fun d c => setReg d _ _) ctls d

/-- The clear of every block's registers and state comes after the memories are cleared. -/
theorem clearAll (d : Dev) : KeepsMemory d.logFaults.logCounters.clearMemories d.clearAll := by
  unfold Dev.clearAll
  generalize d.logFaults.logCounters.clearMemories = m
  dsimp only
  generalize hx : Dev.setFlag _ Reg.hstStatus F.hstStatusHostLost false = x
  have before : KeepsMemory m x := by
    rw [← hx]
    refine .trans ?_ (setReg _ Reg.hstStatus _)
    refine .trans ?_ (setReg _ Reg.halStatus _)
    refine .trans ?_ (foldl (fun d n => lnkWide d n false) (List.range 16) _)
    exact ((dropRegs m endReset).trans (dropRegions _)).trans (setReg _ _ _)
  refine .trans ?_ (setClearing _ false)
  refine .trans ?_ (powerEnd _)
  exact before.trans ⟨rfl, rfl⟩

end Dev.KeepsMemory

/-- The clear leaves the bytes of the retained range alone and every other byte 0 (R220, R222). -/
theorem Dev.byte_clearAll (d : Dev) (a : Nat) : d.clearAll.byte a = if inHold a && d.inRetained a then d.byte a else 0 := by
  have logged := (Dev.KeepsMemory.logFaults d).trans (.logCounters _)
  have range : d.logFaults.logCounters.inRetained a = d.inRetained a := by unfold Dev.inRetained; rw [logged.retained]
  unfold Dev.byte
  rw [(Dev.KeepsMemory.clearAll d).mem]
  refine (Dev.byte_dropMem _ _ a).trans ?_
  rw [range]
  unfold Dev.byte
  rw [logged.mem]
  cases inHold a && d.inRetained a <;> rfl

theorem Dev.flag_setClearing (d : Dev) (b : Bool) : (d.setClearing b).flag (Reg.holdStatus 0) F.holdStatusClearing = b := by
  have apart {c : Nat} (hc : c ≠ 0) : Reg.holdStatus 0 ≠ Reg.holdStatus c := by
    have place (i : Nat) : Reg.holdStatus i = 0x300000 + i * 0x40000 := rfl
    rw [place, place]
    omega
  have others (d : Dev) {c : Nat} (hc : c ≠ 0) : (d.setFlag (Reg.holdStatus c) F.holdStatusClearing b).flag (Reg.holdStatus 0)
      F.holdStatusClearing = d.flag (Reg.holdStatus 0) F.holdStatusClearing := by
    unfold Dev.flag Dev.setFlag
    rw [Dev.fld_setFld_other _ _ _ _ (apart hc)]
  unfold Dev.setClearing ctls
  simp only [List.foldl_cons, List.foldl_nil]
  rw [others _ (by decide), others _ (by decide), others _ (by decide)]
  exact Dev.flag_setFlag_same _ _ _ _ (by decide) (by decide)

/-! ## The end of the boundary -/

namespace Dev.Keeps

variable {p : Nat → Prop} {d e : Dev}

theorem jst (h : Keeps (· = Reg.hstJob) d e) : e.jst = d.jst := by
  unfold Dev.jst Dev.fld; rw [h.reg rfl]

theorem flag (h : Keeps p d e) {r : Nat} (hr : p r) (f : Fld) : e.flag r f = d.flag r f := by
  unfold Dev.flag Dev.fld; rw [h.reg hr]

end Dev.Keeps

/-- The job's state is shown where it was set. -/
theorem Dev.jst_setJst (d : Dev) {st : Nat} (h : st < 16) : (d.setJst st).jst = st := by
  have shown : Keeps (· = Reg.hstJob) (d.setFld Reg.hstJob F.hstJobState st) (d.setJst st) := by
    unfold Dev.setJst
    refine (Keeps.logEv _ _ _ _ _ _ _ ?_).trans (.irq _ _)
    rintro i rfl
    exact .inr (by decide)
  rw [shown.jst]
  exact (Dev.fld_setFld_same _ _ _ _ (by decide)).trans (Nat.mod_eq_of_lt h)

/-- A completion's words go to the ring or into the mailbox (R383, R389). -/
def Dev.answers (d : Dev) (q : CmdHdr) (w : List Word) : Dev :=
  match q.src with
  | .ring => d.pushCpl w q.noIrq
  | .mailbox =>
    let d := (List.range 8).foldl (fun d i => d.setReg (Reg.bosMbRsp i) (w.getD i 0).toNat) d
    ((d.setFlag Reg.bosMbStatus F.bosMbStatusDone true).setFlag Reg.bosMbStatus F.bosMbStatusBusy false).irq 1

theorem Dev.complete_eq (d : Dev) (q : CmdHdr) (op status detail : Nat) (res : List Word) (step : Word) :
    d.complete q op status detail res step = Dev.answers (if status = 1 then d.setFld Reg.hstJob F.hstJobDetail detail else d) q
      (cplWords op status q.tag step (w32 detail) res) := rfl

namespace Dev.Keeps

variable {p : Nat → Prop}

theorem answers (d : Dev) (q : CmdHdr) (w : List Word) (ht : ¬ p Reg.hstCplTail) (hs : ¬ p Reg.bosMbStatus)
    (hr : ∀ i < 8, ¬ p (Reg.bosMbRsp i)) : Keeps p d (d.answers q w) := by
  unfold Dev.answers
  cases q.src with
  | ring => exact .pushCpl d w q.noIrq ht
  | mailbox =>
    refine .trans ?_ (.irq _ 1)
    refine .trans ?_ (.setReg _ hs _)
    refine .trans ?_ (.setReg _ hs _)
    exact foldl _ (fun d i hi => setReg d (hr i (List.mem_range.mp hi)) _) d

/-- A completion keeps the controllers, and the START that waits for a mirror. -/
theorem complete (d : Dev) (q : CmdHdr) (op status detail : Nat) (res : List Word) (step : Word) :
    Keeps (fun _ => False) d (d.complete q op status detail res step) := by
  rw [Dev.complete_eq]
  refine .trans ?_ (.answers _ q _ id id fun _ _ => id)
  split
  · exact .setReg d id _
  · exact .refl d

end Dev.Keeps

theorem bosMbRsp_ne_hstJob : ∀ i < 8, Reg.bosMbRsp i ≠ Reg.hstJob := by decide

/-- A completion may show its detail beside the job's state, which stays. -/
theorem Dev.jst_complete (d : Dev) (q : CmdHdr) (op status detail : Nat) (res : List Word) (step : Word) :
    (d.complete q op status detail res step).jst = d.jst := by
  rw [Dev.complete_eq, (Keeps.answers _ q _ (by decide) (by decide) bosMbRsp_ne_hstJob).jst]
  split
  · exact Dev.fld_setFld_apart _ _ _ (by decide) (.inr (by decide))
  · rfl

/-- The cause of the job's end is shown. -/
def Dev.endCauseShown (d : Dev) : Dev :=
  if d.bos.endCause = 0 then d else d.setFld Reg.hstJob F.hstJobEndCause d.bos.endCause

/-- Debug begins, where a token asked for it (R426). -/
def Dev.debugEntered (d : Dev) : Dev :=
  if d.bos.debugClear then
    ((d.setFlag Reg.bosSec F.bosSecDebug true).setFld Reg.bosSec F.bosSecScope d.bos.debugScope).setFlag Reg.bosSec
      F.bosSecServiceSigner d.bos.debugSigner
  else d

/-- The mailbox's command, where one waits for the boundary, is over, and so is what asked for the clear. -/
def Dev.boundaryOver (d : Dev) : Dev :=
  let e := if d.host.mbCur.isSome then
      (d.setFlag Reg.bosMbStatus F.bosMbStatusDone true).setFlag Reg.bosMbStatus F.bosMbStatusBusy false else d
  { e with bos := { e.bos with endReq := none, endCause := 0, debugClear := false }, host := { e.host with mbCur := none } }

/-- What asked for the clear has its answer, in the mailbox's words whichever way it came (R401). -/
def Dev.clearAnswered (d : Dev) (req : Option HostEntry) : Dev :=
  match req with
  | none => d
  | some e =>
    match e.q.src with
    | .mailbox => d.complete e.q e.opcode 0 0 []
    | .ring => (List.range 8).foldl (fun d i => d.setReg (Reg.bosMbRsp i) ((cplWords e.opcode 0 e.q.tag noStep 0 []).getD i 0).toNat) d

theorem Dev.endClear_eq (d : Dev) : d.endClear = (d.endCauseShown.debugEntered.boundaryOver.setJst
    (if d.endCauseShown.debugEntered.boundaryOver.flag Reg.bosSec F.bosSecDebug then JobSt.debug else JobSt.idle)).clearAnswered
      d.endCauseShown.debugEntered.bos.endReq := rfl

theorem Dev.jst_clearAnswered (d : Dev) (req : Option HostEntry) : (d.clearAnswered req).jst = d.jst := by
  unfold Dev.clearAnswered
  cases req with
  | none => rfl
  | some e =>
    dsimp only
    cases e.q.src with
    | mailbox => exact Dev.jst_complete ..
    | ring =>
      have word (d : Dev) (i : Nat) (hi : i ∈ List.range 8) (v : Nat) : Keeps (· = Reg.hstJob) d (d.setReg (Reg.bosMbRsp i) v) :=
        .setReg (p := (· = Reg.hstJob)) d (bosMbRsp_ne_hstJob i (List.mem_range.mp hi)) v
      exact (Keeps.foldl _ (fun d i hi => word d i hi _) d).jst

/-- The end of the boundary goes to DEBUG where debug was asked for or stands already, else to IDLE (R401, R426). -/
theorem Dev.jst_endClear (d : Dev) :
    d.endClear.jst = if d.flag Reg.bosSec F.bosSecDebug || d.bos.debugClear then JobSt.debug else JobSt.idle := by
  have cause : d.endCauseShown.flag Reg.bosSec F.bosSecDebug = d.flag Reg.bosSec F.bosSecDebug
      ∧ d.endCauseShown.bos = d.bos := by
    unfold Dev.endCauseShown
    split
    · exact ⟨rfl, rfl⟩
    · exact ⟨(Keeps.setReg (p := (· = Reg.bosSec)) d (by decide) _).flag rfl _, rfl⟩
  have debug (d : Dev) : d.debugEntered.flag Reg.bosSec F.bosSecDebug = (d.flag Reg.bosSec F.bosSecDebug || d.bos.debugClear) := by
    unfold Dev.debugEntered
    cases d.bos.debugClear with
    | false => rw [if_neg (by decide), Bool.or_false]
    | true =>
      rw [if_pos rfl, Bool.or_true]
      unfold Dev.flag Dev.setFlag
      rw [Dev.fld_setFld_apart _ _ _ (by decide) (.inr (by decide)), Dev.fld_setFld_apart _ _ _ (by decide) (.inr (by decide))]
      exact Dev.flag_setFlag_same d Reg.bosSec F.bosSecDebug true (by decide) (by decide)
  have ended (d : Dev) : d.boundaryOver.flag Reg.bosSec F.bosSecDebug = d.flag Reg.bosSec F.bosSecDebug := by
    unfold Dev.boundaryOver
    split
    · exact ((Keeps.setReg (p := (· = Reg.bosSec)) d (by decide) _).trans (.setReg _ (by decide) _)).flag rfl _
    · rfl
  obtain ⟨flag, bos⟩ := cause
  rw [Dev.endClear_eq, Dev.jst_clearAnswered, ended, debug, flag, bos]
  cases d.flag Reg.bosSec F.bosSecDebug || d.bos.debugClear
  · exact Dev.jst_setJst _ (by decide)
  · exact Dev.jst_setJst _ (by decide)

/-- The end of the boundary leaves the hold's controllers alone. -/
theorem Dev.hold_endClear (d : Dev) : d.endClear.hold = d.hold := by
  have shown : d.endCauseShown.hold = d.hold := by unfold Dev.endCauseShown; split <;> rfl
  have debug (d : Dev) : d.debugEntered.hold = d.hold := by unfold Dev.debugEntered; split <;> rfl
  have ended (d : Dev) : d.boundaryOver.hold = d.hold := by unfold Dev.boundaryOver; split <;> rfl
  have answered (d : Dev) (req : Option HostEntry) : (d.clearAnswered req).hold = d.hold := by
    unfold Dev.clearAnswered
    cases req with
    | none => rfl
    | some e =>
      dsimp only
      cases e.q.src with
      | mailbox => exact (Keeps.complete d ..).hold
      | ring => exact (Keeps.foldl (p := fun _ => False) _ (fun d i _ => .setReg d id _) d).hold
  rw [Dev.endClear_eq, answered, (Keeps.setJst (p := fun _ => False) _ _ id nofun).hold, ended, debug, shown]

/-! ## Repairs, one page at a time (R214, R215) -/

theorem Dev.hold_showRepair (d : Dev) : d.showRepair.hold = d.hold := by
  unfold Dev.showRepair
  exact (Keeps.foldl (p := fun _ => False) ctls (fun d c _ => (Keeps.setReg d id _).trans (.setReg _ id _)) d).hold

/-- The device once a page of the controller is repaired, before the boundary goes on. -/
def Dev.pageRepaired (d : Dev) (c page : Nat) (rest : List Nat) : Dev :=
  ((d.repairPage page).setCtl c { d.ctl c with retire := rest }).showRepair

section Repairs
variable {s : State} {c : Ctl}

theorem exec_holdRepairComplete_page {page : Nat} {rest : List Nat} (hj : s.dev.jst = JobSt.clearing)
    (ho : s.dev.flag (Reg.holdStatus 0) F.holdStatusClearing = false) (hr : (s.dev.ctl c).retire = page :: rest) :
    exec (.holdRepairComplete c) s = answer s (if (s.dev.pageRepaired c page rest).repairing then s.dev.pageRepaired c page rest
      else (s.dev.pageRepaired c page rest).endClear) := by
  refine congrArg (answer s) ?_
  dsimp only
  rw [hr]
  dsimp only
  rw [ho, hj, if_neg (by decide)]
  rfl

theorem exec_holdRepairComplete_none (hr : (s.dev.ctl c).retire = []) : exec (.holdRepairComplete c) s = answer s s.dev := by
  refine congrArg (answer s) ?_
  dsimp only
  rw [hr]

end Repairs

theorem jobClears : Parts.JobClears := by
  intro s o c page rest d clears repair
  refine ⟨fun hj hc => ?clears, fun hj => ?stays, d.byte_clearAll, rfl, rfl, rfl, rfl, Dev.flag_setClearing _ false, d.jst_endClear,
    fun hj hc hr => ?repairs, exec_holdRepairComplete_none⟩
  case clears => exact congrArg (answer s) (if_pos ⟨hj, hc⟩)
  case stays => exact congrArg (answer s) (if_neg fun h => hj h.1)
  case repairs =>
    have page_ : ((d.pageRepaired c page rest).ctl c).retire = rest := by
      unfold Dev.pageRepaired Dev.ctl
      rw [Dev.hold_showRepair]
      exact congrArg HoldC.retire ((Dev.ctl_setCtl _ _ _ _).trans (if_pos rfl))
    refine ⟨_, exec_holdRepairComplete_page hj hc hr, ?_⟩
    rw [Dev.ctl_canon]
    split
    · exact page_
    · unfold Dev.ctl
      rw [Dev.hold_endClear]
      exact page_

/-! ## A host command that the bosun takes, and its arguments (R384) -/

theorem toBytes_succ (n v : Nat) : toBytes (n + 1) v = BitVec.ofNat 8 v :: toBytes n (v / 256) := by
  unfold toBytes
  rw [List.range_succ_eq_map, List.map_cons, List.map_map, Nat.pow_zero, Nat.div_one]
  refine congrArg _ (List.map_congr_left fun i _ => ?_)
  rw [Function.comp_apply, Nat.div_div_eq_div_mul, Nat.pow_succ']

/-- The bytes of a number, put together again, are its low bytes. -/
theorem ofBytes_toBytes (n v : Nat) : ofBytes (toBytes n v) = v % 256 ^ n := by
  induction n generalizing v with
  | zero => rw [Nat.pow_zero, Nat.mod_one]; rfl
  | succ n ih =>
    have cons : ofBytes (toBytes (n + 1) v) = v % 256 + 256 * ofBytes (toBytes n (v / 256)) := by
      rw [toBytes_succ]
      exact congrArg (· + _) (BitVec.toNat_ofNat v 8)
    rw [cons, ih, Nat.pow_succ', Nat.mod_mul]

theorem hostCmd_length (q : CmdHdr) (op : Nat) {args : List Byte} (h : args.length ≤ 56) : (hostCmd q op args).args.length = 56 := by
  unfold hostCmd
  rw [List.length_append, List.length_replicate]
  omega

/-- A command that the bosun takes at once is carried out. -/
theorem Dev.submit_takes {d : Dev} {e : HostEntry} (h : d.takes e.q) (v : Verdict) : d.submit e v = d.runCmd e v := by
  obtain ⟨ready, ring, mailbox⟩ := h
  unfold Dev.submit
  cases hs : e.q.src with
  | ring => simp [ready, ring hs]
  | mailbox => simp [ready, mailbox hs]

/-! ## The proof is exported (R341) -/

/-- The record, the slot it names and the mirror's head go to the adapter. -/
def Dev.exported (d : Dev) (a : Nat) (b : List Byte) : Dev :=
  let n := match d.rgnOf (recLive b) with | some r => d.rgnBytes r | none => 0
  let e := (d.send (.exportData a b)).send (.exportData (a + 64) (d.bytes (d.slotAt (recLive b)) n))
  match e.rgnOf 2 with | some r => e.send (.exportData (a + 64 + n) (e.bytes (e.rgnBase r) 256)) | none => e

/-- The record goes first; no byte changes. -/
theorem Dev.exported_sends (d : Dev) (a : Nat) (b : List Byte) :
    (d.exported a b).out.take (d.out.length + 1) = d.out ++ [.exportData a b] ∧ ∀ i, (d.exported a b).byte i = d.byte i := by
  have first (rest : List Msg) : (d.out ++ .exportData a b :: rest).take (d.out.length + 1) = d.out ++ [.exportData a b] := by
    rw [List.take_length_add_append, List.take_succ_cons, List.take_zero]
  unfold Dev.exported
  dsimp only
  generalize d.bytes _ _ = slot
  generalize (match d.rgnOf (recLive b) with | some r => d.rgnBytes r | none => 0) = n
  split
  · refine ⟨?_, fun i => by simp only [Dev.byte_send]⟩
    rw [Dev.send_out, Dev.send_out, Dev.send_out, List.append_assoc, List.append_assoc]
    exact first _
  · refine ⟨?_, fun i => by simp only [Dev.byte_send]⟩
    rw [Dev.send_out, Dev.send_out, List.append_assoc]
    exact first _

section Export
variable (s : State) (q : CmdHdr) (addr : DWord) (token : BitVec 256)

/-- The entry of PROOF_EXPORT: the address, then the token at byte 16. -/
def exportCmd : HostEntry := hostCmd q 0x21 (toBytes 8 addr.toNat ++ List.replicate 8 0 ++ toBytes 32 token.toNat)

theorem exportCmd_addr : (exportCmd q addr token).arg 0 8 = addr.toNat := by
  have head : ((exportCmd q addr token).args.drop 0).take 8 = toBytes 8 addr.toNat := by
    simp [exportCmd, hostCmd, toBytes_length]
  unfold HostEntry.arg natAt
  rw [head, ofBytes_toBytes]
  exact Nat.mod_eq_of_lt addr.isLt

theorem exportCmd_token : ((exportCmd q addr token).args.drop 16).take 32 = toBytes 32 token.toNat := by
  simp [exportCmd, hostCmd, List.drop_append, List.take_append, toBytes_length]

theorem exec_proofExport (h : s.dev.takes q) : exec (.proofExport q addr token) s = answer s (s.dev.proofExport (exportCmd q addr token)) := by
  have len : (exportCmd q addr token).args.length = 56 := hostCmd_length q 0x21 (by simp [toBytes_length])
  refine congrArg (answer s) ((Dev.submit_takes (e := exportCmd q addr token) h noVerdict).trans ?_)
  unfold Dev.runCmd
  dsimp only
  rw [if_neg (by rw [len]; decide)]
  rfl

end Export

theorem Dev.proofExport_stranger {d : Dev} {e : HostEntry} (hj : d.jst = JobSt.idle)
    (hm : d.bos.retained.any (fun r => r.digest == Config.sha512 ((e.args.drop 16).take 32)) = false) :
    d.proofExport e = d.finish e 5 0 [] := by
  unfold Dev.proofExport
  dsimp only
  rw [if_neg (by rw [hj]; decide), hm, if_pos (by decide)]

theorem Dev.proofExport_idle {d : Dev} {e : HostEntry} (hj : d.jst = JobSt.idle)
    (hm : d.bos.retained.any (fun r => r.digest == Config.sha512 ((e.args.drop 16).take 32)) = true) :
    d.proofExport e = match d.offerL with
      | none => d.finish e 1 0xA []
      | some b => (d.exported (e.arg 0 8) b).finish e 0 0 [] := by
  unfold Dev.proofExport
  dsimp only
  rw [if_neg (by rw [hj]; decide), hm, if_neg (by decide)]
  rfl

/-! ## A mirror's image arrives (R337) -/

/-- The completion of a command leaves the job's state, and the START that waits for a mirror. -/
theorem Dev.finish_keeps (d : Dev) (e : HostEntry) (status detail : Nat) (res : List Word) (step : Word) :
    (d.finish e status detail res step).jst = d.jst ∧ (d.finish e status detail res step).host.stStart = d.host.stStart :=
  ⟨Dev.jst_complete .., (Keeps.complete ..).start⟩

/-- A START that its mirror does not bear out leaves the job LOADED, and waits no more. -/
theorem Dev.unstart_loaded (d : Dev) : d.unstart.jst = JobSt.loaded ∧ d.unstart.host.stStart = none := by
  have eq : ∃ x : Dev, x.host.stStart = none ∧ d.unstart = x.setJst JobSt.loaded := by
    unfold Dev.unstart
    refine ⟨_, ?_, rfl⟩
    rfl
  obtain ⟨x, start, eq⟩ := eq
  rw [eq]
  exact ⟨Dev.jst_setJst x (by decide), (Keeps.setJst (p := fun _ => False) x _ id nofun).start.trans start⟩

section Restore
variable {s : State} {rec_ hdr : List Byte}

theorem exec_mirrorRestoreComplete_none (h : s.dev.host.stStart = none) :
    exec (.mirrorRestoreComplete rec_ hdr) s = answer s s.dev := by
  refine congrArg (answer s) ?_
  dsimp only
  rw [h]

theorem exec_mirrorRestoreComplete_waited {e : HostEntry} (h : s.dev.host.stStart = some e) (hj : s.dev.jst = JobSt.running) :
    exec (.mirrorRestoreComplete rec_ hdr) s = answer s (if s.dev.mirrorFits e rec_ hdr then s.dev.mirrorIn e rec_ hdr
      else s.dev.unstart.finish e 1 0xA []) := by
  refine congrArg (answer s) ?_
  dsimp only
  rw [h]
  dsimp only
  rw [if_neg (not_not_intro hj)]

end Restore

theorem proofMovement : Parts.ProofMovement := by
  intro s q addr token e rec_ hdr d x go mine back
  have run (h : d.takes q) : go = answer s (d.proofExport (exportCmd q addr token)) := exec_proofExport s q addr token h
  have owner : d.bos.retained.any (fun r => r.digest == Config.sha512 (((exportCmd q addr token).args.drop 16).take 32)) = mine := by
    rw [exportCmd_token]
  refine ⟨fun h hj => (run h).trans ?busy, fun h hj hm => (run h).trans ?stranger, fun h hj hm => ?sent,
    exec_mirrorRestoreComplete_none, exec_mirrorRestoreComplete_waited, fun hs hj hf => ?refused⟩
  case busy => exact congrArg (answer s) (if_pos hj)
  case stranger => exact congrArg (answer s) (Dev.proofExport_stranger hj (owner.trans hm))
  case sent =>
    have export_ := Dev.proofExport_idle hj (owner.trans hm)
    rw [exportCmd_addr] at export_
    cases hl : d.offerL with
    | none =>
      rw [hl] at export_
      exact ⟨d, (run h).trans (congrArg (answer s) export_), nofun⟩
    | some b =>
      rw [hl] at export_
      obtain ⟨first, bytes⟩ := d.exported_sends addr.toNat b
      refine ⟨d.exported addr.toNat b, (run h).trans (congrArg (answer s) export_), ?_⟩
      rintro _ ⟨⟩
      exact ⟨first, bytes⟩
  case refused =>
    obtain ⟨jst, start⟩ := d.unstart_loaded
    obtain ⟨jst', start'⟩ := d.unstart.finish_keeps e 1 0xA [] noStep
    have out := exec_mirrorRestoreComplete_waited (rec_ := rec_) (hdr := hdr) hs hj
    rw [hf, if_neg (by decide)] at out
    refine ⟨_, out, ?_, ?_⟩
    · unfold Dev.jst
      rw [Dev.fld_canon]
      exact jst'.trans jst
    · rw [Dev.canon_host]
      exact start'.trans start

/-- Settles O49: what the clear and the boundary's end do is followed through the registers, the memory and the controllers that
they keep; each command is one equation of the device. -/
theorem jobBoundary : Obligations.JobBoundary := ⟨jobClears, proofMovement⟩

end Sys2Proof.Machine

namespace Sys2Proof.Machine

/-! # Who may open waves (R287) -/

section WaveWriter
variable (s : State) (y : Yard) (m : Master) (v : Word)

theorem mayOpenWave_stranger (h : ∀ c, m ≠ .tile ⟨24 * y.val + 23, by omega⟩ c) : mayOpenWave m y = false := by
  cases m with
  | tile p c => exact beq_eq_false_iff_ne.mpr fun e => h c (congrArg (Master.tile · c) (Fin.ext e))
  | host | remote _ | bosun => rfl

/-- No rule on masters but R287's own judges a write of YARD_SQ_WAVE_OPEN. -/
theorem Dev.ctlWrite_waveOpen (d : Dev) : d.ctlWrite m (Reg.yardSqWaveOpen y) v = d.waveOpen m y v.toNat := by
  unfold Dev.ctlWrite
  simp [regAt_yardSqWaveOpen, isHi, isLo, Dev.write1]

/-- The word that a write carries reads back from its bytes. -/
theorem natAt_word : w32 (natAt (toBytes 4 v.toNat) 0 4) = v := by
  unfold natAt w32
  rw [List.drop_zero, List.take_of_length_le (Nat.le_of_eq (toBytes_length 4 _)), ofBytes_toBytes, Nat.mod_eq_of_lt (b := 256 ^ 4) v.isLt,
    BitVec.ofNat_toNat, BitVec.setWidth_eq]

/-- Whoever the refused master is, the write is logged with it (R287). -/
theorem open_wave_refused (h : mayOpenWave m y = false) :
    exec (.yardSqWaveOpen m y v) s = answer s ((s.dev.logEv 0 2 y 1 [v, w32 (masterCode m)]).send (.regData false 0)) := by
  obtain ⟨h4, hlt, -⟩ := yardReg_bounds y (o := 0x420) (by decide) rfl
  rw [exec_yardSqWaveOpen]
  refine onDev_ctlWrite (off := Reg.yardSqWaveOpen y) h4 hlt ?_
  rw [Dev.ctlWrite_waveOpen]
  simp only [Dev.waveOpen, h, Bool.false_eq_true, if_false, Dev.logWave_word y s.dev m _ (toBytes_length 4 _), natAt_word]

end WaveWriter

/-- An event that is no corrected one is the newest entry (R438, R439). -/
theorem Dev.logEv_newest (d : Dev) {cls : Nat} (block inst kind : Nat) (data : List Word) (first : Bool) (h : cls ≠ 1) :
    (d.logEv cls block inst kind data first).bos.log.getLast?
      = some ⟨d.bos.seq + 1, d.timebase, d.step, cls, block, inst % 4096, kind, 1, first, data⟩ := by
  unfold Dev.logEv
  rw [if_neg fun e => h e.1, Dev.showLog_bos]
  simp only [List.getLast?_drop, List.length_append, List.length_singleton, List.getLast?_append, List.getLast?_singleton]
  rw [if_neg (by unfold logRing; omega)]
  rfl

/-- Settles O57: only R287's own rule judges the write, and a core of the yard's CT is the one master it lets through. -/
theorem waveOpening : Obligations.WaveOpening := by
  intro s y m v c
  refine ⟨fun stranger => ?refused, ?opened⟩
  case refused =>
    obtain ⟨-, -, (hlog : _ < Reg.yardSqWaveOpen y)⟩ := yardReg_bounds y (o := 0x420) (by decide) rfl
    have newest := s.dev.logEv_newest 2 y 1 [v, w32 (masterCode m)] false (cls := 0) (by decide)
    refine ⟨_, open_wave_refused s y m v (mayOpenWave_stranger y m stranger), ?_, ?_, ?_, ?_⟩
    · rw [Dev.canon_out, Dev.send_out, Dev.logEv_out]
    · rw [Dev.reg_canon, Dev.reg_send, Dev.reg_logEv _ _ _ _ _ _ _ (.inr hlog)]
    · rw [Dev.canon_bos, Dev.send_bos, Dev.logEv_seq _ _ _ _ _ _ _ (by decide)]
    · rw [Dev.canon_bos, Dev.send_bos]
      exact ⟨_, newest, rfl, Nat.mod_eq_of_lt (by omega), rfl⟩
  case opened =>
    refine ⟨_, open_wave s y v (Dev.maySet_ct y c _) (mayOpenWave_ct y c), ?_, ?_⟩
    · rw [Dev.canon_out, Dev.send_out, Dev.setReg_out]
    · rw [Dev.reg_canon, Dev.reg_send, Dev.reg_setReg_same, Nat.mod_eq_of_lt (lor_low_lt (s.dev.reg_lt _))]

end Sys2Proof.Machine

namespace Sys2Proof.Machine

/-! # Tasks: landing, running, completion (R272, R275 to R277, R280) -/

/-! ## The channels of a yard -/

theorem Dev.yard_modYard_same (d : Dev) (y : Nat) (f : YardS → YardS) : (d.modYard y f).yard y = f (d.yard y) :=
  (d.yard_setYard y _ y).trans (if_pos rfl)

/-- An inserted pair is the first with its key, whatever the order of the rest. -/
theorem find?_insert_same {α : Type} (m : Sparse α) (k : Nat) (v : α) : (Sparse.insert m k v).find? (fun e => e.1 = k) = some (k, v) := by
  induction m with
  | nil => simp [Sparse.insert]
  | cons e m ih =>
    obtain ⟨a, w⟩ := e
    by_cases below : a < k
    · simpa [Sparse.insert, below, Nat.ne_of_lt below] using ih
    · by_cases same : a = k <;> simp [Sparse.insert, below, same]

theorem Dev.chan_setChan_same (d : Dev) (y c : Nat) (x : Channel) : (d.setChan y c x).chan y c = some x := by
  unfold Dev.chan Dev.setChan
  rw [Dev.yard_modYard_same, find?_insert_same]
  rfl

theorem Dev.yard_of_yards {d e : Dev} (h : d.yards = e.yards) (y : Nat) : d.yard y = e.yard y := by
  unfold Dev.yard
  rw [h]

theorem Dev.chan_of_yards {d e : Dev} (h : d.yards = e.yards) (y c : Nat) : d.chan y c = e.chan y c := by
  unfold Dev.chan
  rw [Dev.yard_of_yards h]

/-! ## A landing (R272, R275, R276) -/

/-- The channel that a landing starts: the record's templates for the taker (of a paired take those of MASK). -/
def Landing.channel (l : Landing) (p : Slot) : Channel :=
  let q : QRec := ⟨0, l.record⟩
  ⟨l.held.handle, p, l.held.yard, l.held.wave, (List.range q.ndesc).filter (fun i => !l.paired || q.mask / 2 ^ i % 2 == 1) |>.map
    (fun i => (q.desc i).forTaker p), false, false⟩

/-- The device after the landing `l` of the tile in slot `p`, with `rest` still to land. -/
def Dev.landed (d : Dev) (p : Slot) (l : Landing) (rest : List Landing) : Dev :=
  (((d.store (tileBase p + l.at_) (l.record.take 64)).setChan (p / 24) l.held.ch (l.channel p)).modTile p
    (fun t => { t with landing := rest, held := t.held ++ [l.held] })).modCore p l.core (fun k => k.setS l.d l.held.handle)

theorem exec_taskLanding {s : State} {p : Slot} {l : Landing} {rest : List Landing} (h : (s.dev.tile p).landing = l :: rest) :
    exec (.taskLanding p) s = answer s (s.dev.landed p l rest) := by
  show execTaskLanding p s = _
  unfold execTaskLanding answer
  rw [onDev_eq, h]
  rfl

section Landed
variable (d : Dev) (p : Slot) (l : Landing) (rest : List Landing)

theorem Dev.landing_landed : ((d.landed p l rest).tile p).landing = rest := by
  unfold Dev.landed
  rw [Dev.tile_modCore_same, Tile.setCore_landing, Dev.tile_modTile_same]

theorem Dev.held_landed : ((d.landed p l rest).tile p).held = (d.tile p).held ++ [l.held] := by
  unfold Dev.landed Dev.setChan
  rw [Dev.tile_modCore_same, Tile.setCore_held, Dev.tile_modTile_same, Dev.tile_modYard, Dev.tile_store]

/-- The header and the ARGS, 64 bytes of the record, are in the landing area. -/
theorem Dev.byte_landed (h : l.record.length = 256) (a : Nat) : (d.landed p l rest).byte a
    = if tileBase p + l.at_ ≤ a ∧ a < tileBase p + l.at_ + 64 then l.record.getD (a - (tileBase p + l.at_)) 0 else d.byte a := by
  unfold Dev.landed Dev.setChan
  rw [Dev.byte_modCore, Dev.byte_modTile, Dev.byte_modYard, Dev.byte_store, List.length_take, h, Nat.min_eq_left (by decide)]
  refine ite_congr rfl (fun hin => ?_) (fun _ => rfl)
  rw [List.getD_eq_getElem?_getD, List.getD_eq_getElem?_getD, List.getElem?_take_of_lt (by omega)]

theorem Dev.sreg_landed : ((d.landed p l rest).core p l.core).sreg l.d = if l.d = 0 then 0 else l.held.handle := by
  unfold Dev.landed
  rw [Dev.core_modCore, if_pos ⟨rfl, rfl⟩, Core.sreg_setS_same]

theorem Dev.chan_landed : (d.landed p l rest).chan (p / 24) l.held.ch = some (l.channel p) :=
  (Dev.chan_of_yards ((Dev.modCore_yards _ _ _ _).trans (Dev.modTile_yards _ _ _)) _ _).trans (Dev.chan_setChan_same _ _ _ _)

theorem Landing.channel_descs_length : (l.channel p).descs.length
    = ((List.range (QRec.ndesc ⟨0, l.record⟩)).filter (fun i => !l.paired || QRec.mask ⟨0, l.record⟩ / 2 ^ i % 2 == 1)).length :=
  List.length_map _

end Landed

/-! ## sdone (R150, R277) -/

/-- The taker gives back a task it holds. -/
theorem exec_sdone {s : State} {h : Iss} {a : R5} {x : Held} {c : Channel} (hr : Ready s.dev h 0x11 false [a] []) (hon : s.dev.on h)
    (hx : (s.dev.tile h.slot).held.find? (fun x => x.handle == (s.dev.at_ h).sreg a) = some x)
    (hc : s.dev.chan (h.slot / 24) x.ch = some c) :
    exec (.sdone h a) s = answer s (((s.dev.modTile h.slot (fun t => { t with held := t.held.erase x })).setChan (h.slot / 24) x.ch
      { c with sdone := true }).retired h false) := by
  refine tileInstr_done hr rfl (.inr hon) ?_
  have still := Dev.chan_of_yards (s.dev.modTile_yards h.slot (fun t => { t with held := t.held.erase x })) (h.slot / 24) x.ch
  dsimp only
  rw [hx]
  dsimp only
  rw [still, hc]

/-! ## A task's channel (R276, R277) -/

section Channels
variable {s : State} {y : Yard} {ch : Fin 32} {c : Channel} (hc : s.dev.chan y ch = some c)
include hc

theorem exec_taskComplete : exec (.taskComplete y ch) s =
    if c.sdone = true ∧ c.stopped = false ∧ ∀ r ∈ c.descs, r.finished = true then
      answer s (((s.dev.modYard y (fun q => { q with chans := Sparse.erase q.chans ch })).incFld (Reg.yardSqWave c.yard c.wave)
        F.yardSqWaveDone 1).settle (24 * c.yard + 23))
    else answer s s.dev := by
  have done : (c.sdone && !c.stopped && c.descs.all (·.finished)) = true
      ↔ c.sdone = true ∧ c.stopped = false ∧ ∀ r ∈ c.descs, r.finished = true := by simp [and_assoc]
  show execTaskComplete y ch s = _
  unfold execTaskComplete answer
  rw [onDev_eq, hc]
  simp only [done]
  split <;> rfl

/-- The next request of a descriptor that runs, to its completion. -/
theorem exec_channelRequestIssue {i : Nat} {r : Remote} {run run1 run2 : DescRun} {d1 d2 : Dev} (hi : c.descs[i]? = some run)
    (hgo : c.stopped = false) (hg : s.dev.descGalley run = true) (hissue : s.dev.descIssue run = (d1, run1))
    (hdone : d1.descComplete (.desc (24 * y.val + 23)) run1 (run1.out.length - 1) r = .ok d2 run2) :
    exec (.channelRequestIssue y ch i r) s = answer s (d2.setChan y ch { c with descs := c.descs.set i run2 }) := by
  show execChannelRequestIssue y ch i r s = _
  unfold execChannelRequestIssue answer
  rw [onDev_eq, hc]
  simp only [hi, hgo, hg, hissue, hdone, Bool.not_true, Bool.false_eq_true, if_false]

end Channels

/-- Settles O23: a landing is one device, followed field by field; sdone, a channel's request and its completion are one equation
each. -/
theorem tasksRun : Obligations.TasksRun := by
  intro s p y ch
  refine ⟨fun l rest hl hlen _ => ?landing, fun h a x c hr hon => exec_sdone hr hon, fun c => exec_taskComplete,
    fun c i run d1 run1 d2 run2 r hc => exec_channelRequestIssue hc⟩
  case landing =>
    refine ⟨_, exec_taskLanding hl, ?_, ?_, fun a => ?_, ?_, l.channel p, ?_, rfl, rfl, rfl, l.channel_descs_length p⟩
    · rw [Dev.tile_canon, Dev.landing_landed]
    · rw [Dev.tile_canon, Dev.held_landed]
    · rw [Dev.byte_canon, Dev.byte_landed _ _ _ _ hlen]
    · rw [Dev.core_canon, Dev.sreg_landed]
    · exact (Dev.chan_of_yards (Dev.canon_yards _) _ _).trans (Dev.chan_landed _ _ _ _)

end Sys2Proof.Machine

namespace Sys2Proof.Machine

/-! # The states of a steal queue (R269) -/

/-! ## What an instruction that retires leaves of a yard -/

/-- The windows of a yard and of a tile do not meet (R28). -/
theorem yardReg_ne_tileReg (y p : Nat) {o k : Nat} (ho : o < 0x10000) (hk : k < 0x2000) :
    blockBase .yard y + o ≠ blockBase .tile p + k := by
  rw [blockBase_yard, blockBase_tile]
  omega

section Retired
variable (d : Dev) (h : Iss) (long : Bool)

@[simp] theorem Dev.yard_retired (z : Nat) : (d.retired h long).yard z = d.yard z := by
  unfold Dev.retired
  rw [Dev.yard_counted, Dev.yard_modCore]

theorem Dev.reg_retired_yard (y : Nat) {o : Nat} (ho : o < 0x10000) :
    (d.retired h long).reg (blockBase .yard y + o) = d.reg (blockBase .yard y + o) := by
  unfold Dev.retired Dev.counted Dev.inc64 Reg.tileIssueLo Reg.tileIssueHi
  rw [Dev.reg_setReg64_other _ _ (yardReg_ne_tileReg y _ ho (by decide)) (yardReg_ne_tileReg y _ ho (by decide)), Dev.reg_modCore]

theorem Dev.sqClosed_retired (y : Nat) : (d.retired h long).sqClosed y = d.sqClosed y := by
  unfold Dev.sqClosed Dev.flag Dev.fld Reg.yardSqState
  rw [Dev.reg_retired_yard _ _ _ _ (by decide)]

theorem Dev.done_retired (y : Nat) {w : Nat} (hw : w < 16) :
    (d.retired h long).fld (Reg.yardSqWave y w) F.yardSqWaveDone = d.fld (Reg.yardSqWave y w) F.yardSqWaveDone := by
  unfold Dev.fld Reg.yardSqWave
  rw [Nat.add_assoc, Dev.reg_retired_yard _ _ _ _ (by omega)]

end Retired

@[simp] theorem Dev.sqClosed_canon (d : Dev) (y : Nat) : d.canon.sqClosed y = d.sqClosed y := d.flag_canon _ _

theorem Dev.sqClosed_setFlag_closed (d : Dev) (y : Nat) (b : Bool) :
    (d.setFlag (Reg.yardSqState y) F.yardSqStateClosed b).sqClosed y = b :=
  d.flag_setFlag_same _ _ _ (by decide) (by decide)

/-! ## Open and close -/

section Control
variable {s : State} {h : Iss} (hr : Ready s.dev h 0x12 false [] []) (hon : s.dev.on h)
include hr hon

theorem exec_sctlOpen : exec (.sctlOpen h) s
    = answer s ((s.dev.setFlag (Reg.yardSqState (h.slot / 24)) F.yardSqStateClosed false).retired h false) :=
  tileInstr_done hr rfl (.inr hon) rfl

theorem exec_sctlClose : exec (.sctlClose h) s
    = answer s ((s.dev.setFlag (Reg.yardSqState (h.slot / 24)) F.yardSqStateClosed true).retired h false) :=
  tileInstr_done hr rfl (.inr hon) rfl

end Control

/-! ## Drain -/

/-- Arrivals that may now leave are the tile's own: registers and yards stay (R280). -/
theorem Dev.settle_keeps (d : Dev) (p : Nat) : (d.settle p).regs = d.regs ∧ (d.settle p).yards = d.yards := by
  unfold Dev.settle
  refine List.foldlRecOn _ _ (motive := fun e : Dev => e.regs = d.regs ∧ e.yards = d.yards) ⟨rfl, rfl⟩ fun e he b _ => ?_
  unfold Dev.settleBar
  dsimp only
  split
  · rwa [Dev.modTile_regs, Dev.modTile_yards]
  · exact he

theorem Dev.reg_settle (d : Dev) (p i : Nat) : (d.settle p).reg i = d.reg i := by
  unfold Dev.reg
  rw [(d.settle_keeps p).1]

theorem Dev.yard_settle (d : Dev) (p z : Nat) : (d.settle p).yard z = d.yard z := Dev.yard_of_yards (d.settle_keeps p).2 z

/-- Each of the records counts as done in its wave. -/
def Dev.countDone (d : Dev) (y : Nat) (rs : List QRec) : Dev :=
  rs.foldl (fun d r => d.incFld (Reg.yardSqWave y r.wave) F.yardSqWaveDone 1) d

section CountDone
variable (d : Dev) (y : Nat)

theorem Dev.countDone_cons (r : QRec) (rs : List QRec) :
    d.countDone y (r :: rs) = (d.incFld (Reg.yardSqWave y r.wave) F.yardSqWaveDone 1).countDone y rs := rfl

theorem Dev.countDone_yards (rs : List QRec) : (d.countDone y rs).yards = d.yards := by
  unfold Dev.countDone
  exact List.foldlRecOn _ _ (motive := fun e : Dev => e.yards = d.yards) rfl fun e he r _ => (Dev.incFld_yards ..).trans he

theorem Dev.reg_countDone {i : Nat} (apart : ∀ w, i ≠ Reg.yardSqWave y w) (rs : List QRec) : (d.countDone y rs).reg i = d.reg i := by
  unfold Dev.countDone
  exact foldl_keeps_reg (fun e r => by rw [Dev.incFld, Dev.reg_setFld_other _ _ _ (apart r.wave)]) rs d

theorem Dev.sqClosed_countDone (rs : List QRec) : (d.countDone y rs).sqClosed y = d.sqClosed y := by
  unfold Dev.sqClosed Dev.flag Dev.fld
  rw [Dev.reg_countDone d y fun w => by unfold Reg.yardSqState Reg.yardSqWave; omega]

/-- One more record done: its own wave's count rises, every other wave's stays. -/
theorem Dev.done_incDone (v w : Nat) : (d.incFld (Reg.yardSqWave y v) F.yardSqWaveDone 1).fld (Reg.yardSqWave y w) F.yardSqWaveDone
    = if v = w then (d.fld (Reg.yardSqWave y w) F.yardSqWaveDone + 1) % 2 ^ 16 else d.fld (Reg.yardSqWave y w) F.yardSqWaveDone := by
  split
  case isTrue same =>
    subst same
    exact Dev.fld_setFld_same _ _ _ _ (by decide)
  case isFalse other => exact Dev.fld_setFld_other _ _ _ _ (by unfold Reg.yardSqWave; omega)

/-- A wave's count rises by the number of its records. -/
theorem Dev.done_countDone (w : Nat) (rs : List QRec) : (d.countDone y rs).fld (Reg.yardSqWave y w) F.yardSqWaveDone
    = (d.fld (Reg.yardSqWave y w) F.yardSqWaveDone + (rs.filter (fun r => r.wave == w)).length) % 2 ^ 16 := by
  induction rs generalizing d with
  | nil => exact (Nat.mod_eq_of_lt (bitsAt_lt _ _ 16)).symm
  | cons r rs ih =>
    rw [Dev.countDone_cons, ih, Dev.done_incDone]
    by_cases same : r.wave = w
    · rw [if_pos same, List.filter_cons_of_pos (by simpa using same), List.length_cons, Nat.mod_add_mod, Nat.add_assoc,
        Nat.add_comm 1]
    · rw [if_neg same, List.filter_cons_of_neg (by simpa using same)]

end CountDone

/-- The device with yard `y`'s queue closed, its untaken records counted and discarded, and the arrivals of slot `p` settled. -/
def Dev.drained (d : Dev) (y p : Nat) : Dev :=
  let closed := d.setFlag (Reg.yardSqState y) F.yardSqStateClosed true
  ((closed.countDone y (closed.yard y).recs).modYard y (fun q => { q with recs := [] })).settle p

theorem exec_sctlDrain {s : State} {h : Iss} (hr : Ready s.dev h 0x12 false [] []) (hon : s.dev.on h) :
    exec (.sctlDrain h) s = answer s ((s.dev.drained (h.slot / 24) h.slot).retired h false) :=
  tileInstr_done hr rfl (.inr hon) rfl

section Drained
variable (d : Dev) (y p : Nat)

theorem Dev.yard_drained : (d.drained y p).yard y = { d.yard y with recs := [] } := by
  unfold Dev.drained
  dsimp only
  rw [Dev.yard_settle, Dev.yard_modYard_same, Dev.yard_of_yards (Dev.countDone_yards ..), Dev.yard_setFlag]

/-- Every register is as closing the queue and counting its records leave it. -/
theorem Dev.reg_drained (i : Nat) : (d.drained y p).reg i
    = ((d.setFlag (Reg.yardSqState y) F.yardSqStateClosed true).countDone y (d.yard y).recs).reg i := by
  unfold Dev.drained
  dsimp only
  rw [Dev.reg_settle, Dev.reg_modYard, Dev.yard_setFlag]

theorem Dev.sqClosed_drained : (d.drained y p).sqClosed y = true := by
  have closed := (Dev.sqClosed_countDone _ y (d.yard y).recs).trans (d.sqClosed_setFlag_closed y true)
  unfold Dev.sqClosed Dev.flag Dev.fld at closed ⊢
  rwa [Dev.reg_drained]

theorem Dev.done_drained (w : Nat) : (d.drained y p).fld (Reg.yardSqWave y w) F.yardSqWaveDone
    = (d.fld (Reg.yardSqWave y w) F.yardSqWaveDone + ((d.yard y).recs.filter (fun r => r.wave == w)).length) % 2 ^ 16 := by
  have apart : Reg.yardSqWave y w ≠ Reg.yardSqState y := by unfold Reg.yardSqState Reg.yardSqWave; omega
  have counted := Dev.done_countDone (d.setFlag (Reg.yardSqState y) F.yardSqStateClosed true) y w (d.yard y).recs
  unfold Dev.fld at counted ⊢
  rw [Dev.reg_drained, counted, Dev.reg_setFlag_other _ _ _ apart]

end Drained

/-! ## Posts (R269 to R271) -/

section Posts
variable {s : State} {h : Iss} {a : R5} (hr : Ready s.dev h 0x12 false [a] []) (hon : s.dev.on h)
include hr hon

/-- A full open queue makes the poster wait. -/
theorem exec_spost_full (hopen : s.dev.sqClosed (h.slot / 24) = false) (hfull : 64 ≤ (s.dev.yard (h.slot / 24)).recs.length) :
    exec (.spost h a) s = answer s (s.dev.waits h (.spost h a)) :=
  tileInstr_stall hr rfl (.inr hon) (if_pos ⟨hfull, by rw [hopen]; rfl⟩)

variable (hok : localOk ((s.dev.at_ h).sreg a) 64 256 = true)
  (hread : s.dev.readStore h.slot ((s.dev.at_ h).sreg a).toNat 256 (coreMaster h) = (s.dev, true))
  {r : QRec} (hrec : r = ⟨(s.dev.yard (h.slot / 24)).freeEntry, s.dev.bytes (tileBase h.slot + ((s.dev.at_ h).sreg a).toNat) 256⟩)
include hok hread hrec

/-- A closed queue refuses the record. -/
theorem exec_spost_closed (hclosed : s.dev.sqClosed (h.slot / 24) = true) : exec (.spost h a) s
    = answer s ((s.dev.sqFault (h.slot / 24) 3 (h.slot % 24) r.entry r.task).progFault h.slot h.core 0x12 0 (s.dev.at_ h).pc 6 0) := by
  subst hrec
  refine tileInstr_raised hr rfl (.inr hon) ?_
  rw [if_neg (by rw [hclosed]; exact fun e => nomatch e.2), if_neg (by rw [hok]; decide), loadLocal_sound _ hok hread]
  exact if_pos hclosed

/-- A valid record joins an open queue that has room. -/
theorem exec_spost_joins (hopen : s.dev.sqClosed (h.slot / 24) = false) (hroom : (s.dev.yard (h.slot / 24)).recs.length < 64)
    (hslot : r.slot < s.dev.fld (Reg.yardSqSlotCount (h.slot / 24)) F.yardSqSlotCountCount)
    (hunused : (s.dev.yard (h.slot / 24)).slotsUsed.contains r.slot = false) (hvalid : s.dev.recordOk (h.slot / 24) r = true) :
    exec (.spost h a) s = answer s (((s.dev.setYard (h.slot / 24) { s.dev.yard (h.slot / 24) with
      recs := (s.dev.yard (h.slot / 24)).recs ++ [r], slotsUsed := r.slot :: (s.dev.yard (h.slot / 24)).slotsUsed,
      tasksUsed := r.task :: (s.dev.yard (h.slot / 24)).tasksUsed }).incFld (Reg.yardSqWave (h.slot / 24) r.wave)
        F.yardSqWavePosted 1).retired h false) := by
  subst hrec
  refine tileInstr_done hr rfl (.inr hon) ?_
  rw [if_neg (fun e => absurd e.1 (Nat.not_le.mpr hroom)), if_neg (by rw [hok]; decide), loadLocal_sound _ hok hread]
  dsimp only
  rw [hopen, hvalid, if_neg (by decide), if_neg (not_or.mpr ⟨Nat.not_le.mpr hslot, by rw [hunused]; decide⟩), if_neg (by decide)]

end Posts

/-! ## Takes (R273 to R275) -/

section Takes
variable {d : Dev} {p v ch : Nat} {q : QRec} (hheld : d.heldCount p < 2)
include hheld

/-- A take of the record found, its landing in the taker's own store, removes the record from its queue. -/
theorem Dev.takeTask_got (c : Fin 4) (r : R5) (hfind : d.findTask (p / 24) (d.logical p) = some (v, q))
    (hchan : d.freeChan (p / 24) = some ch)
    (hfits : d.fld (Reg.tileSqLand p) F.tileSqLandAddr + 64 * b2n (d.freeArea p) + 64 ≤ storeBytes)
    (hclear : (d.tile p).image.codeEnd ≤ d.fld (Reg.tileSqLand p) F.tileSqLandAddr + 64 * b2n (d.freeArea p))
    (hmay : d.mayWrite p (d.fld (Reg.tileSqLand p) F.tileSqLandAddr + 64 * b2n (d.freeArea p)) 64 ownTile = true) :
    ∃ e, d.takeTask p c r = .got e ∧ (e.yard v).recs = (d.yard v).recs.filter (fun x => x.entry != q.entry) := by
  unfold Dev.takeTask
  simp only [hfind, hchan, hmay, Nat.not_le.mpr hheld, Nat.not_lt.mpr hfits, Nat.not_lt.mpr hclear, or_self, Bool.not_true,
    Bool.false_eq_true, if_false]
  refine ⟨_, rfl, ?_⟩
  rw [Dev.yard_modTile]
  split
  · split
    · rw [Dev.yard_modYard_same]
    · rw [Dev.satFld, Dev.yard_setFld, Dev.yard_modYard_same]
  · rw [Dev.satFld, Dev.yard_setFld, Dev.yard_modYard_same]

theorem Dev.takeTask_none (c : Fin 4) (r : R5) (hfind : d.findTask (p / 24) (d.logical p) = none) :
    d.takeTask p c r = .none (d.allClosed (p / 24)) := by
  unfold Dev.takeTask
  simp only [hfind, Nat.not_le.mpr hheld, if_false]

end Takes

section Stake
variable {s : State} {h : Iss} {r : R5} (hr : Ready s.dev h 0x11 false [r] []) (hon : s.dev.on h)
include hr hon

theorem exec_stake_got {d : Dev} (ht : s.dev.takeTask h.slot h.core r = .got d) :
    exec (.stake h r) s = answer s (d.retired h false) :=
  tileInstr_done hr rfl (.inr hon) (by rw [stakeBody, ht])

/-- Every queue that the tile may take from is empty and closed. -/
theorem exec_stake_allClosed (ht : s.dev.takeTask h.slot h.core r = .none true) :
    exec (.stake h r) s = answer s ((s.dev.putS h r statusClosed).retired h false) :=
  tileInstr_done hr rfl (.inr hon) (by rw [stakeBody, ht]; rfl)

end Stake

/-- Settles O56: open, close and drain are one device each; a post is refused, waits or joins; a take goes by what `takeTask` finds,
in either state of the queue. -/
theorem queueStates : Obligations.QueueStates := by
  intro s h a d v r ch hon
  refine ⟨fun hr => ⟨?opens, ?closes, ?drains⟩, fun hr hend hal hread => ?posts, fun hr hheld => ⟨?takes, ?nothingLeft⟩⟩
  case opens =>
    refine ⟨_, exec_sctlOpen hr hon, ?_, ?_⟩
    · rw [Dev.sqClosed_canon, Dev.sqClosed_retired, Dev.sqClosed_setFlag_closed]
    · rw [Dev.yard_canon, Dev.yard_retired, Dev.yard_setFlag]
  case closes =>
    refine ⟨_, exec_sctlClose hr hon, ?_, ?_⟩
    · rw [Dev.sqClosed_canon, Dev.sqClosed_retired, Dev.sqClosed_setFlag_closed]
    · rw [Dev.yard_canon, Dev.yard_retired, Dev.yard_setFlag]
  case drains =>
    refine ⟨_, exec_sctlDrain hr hon, ?_, ?_, ?_, fun w hw => ?_⟩
    · rw [Dev.sqClosed_canon, Dev.sqClosed_retired, Dev.sqClosed_drained]
    · rw [Dev.yard_canon, Dev.yard_retired, Dev.yard_drained]
    · rw [Dev.yard_canon, Dev.yard_retired, Dev.yard_drained]
    · rw [Dev.fld_canon, Dev.done_retired _ _ _ _ hw, Dev.done_drained]
  case posts =>
    have hok := localOk_iff.mpr ⟨hend, hal⟩
    refine ⟨fun hclosed => exec_spost_closed hr hon hok hread rfl hclosed, fun hopen hfull => exec_spost_full hr hon hopen hfull,
      fun hopen hroom hslot hunused hvalid =>
        ⟨_, exec_spost_joins hr hon hok hread rfl hopen hroom hslot hunused hvalid, ?joined, ?bounded⟩⟩ <;>
      rw [Dev.yard_canon, Dev.yard_retired, Dev.incFld, Dev.yard_setFld, Dev.yard_setYard, if_pos rfl]
    case bounded =>
      rw [List.length_append, List.length_singleton]
      exact hroom
  case takes =>
    intro hfind hchan hfits hclear hmay
    obtain ⟨e, ht, hrecs⟩ := Dev.takeTask_got hheld h.core d hfind hchan hfits hclear hmay
    refine ⟨_, exec_stake_got hr hon ht, ?_⟩
    rw [Dev.yard_canon, Dev.yard_retired, hrecs]
  case nothingLeft =>
    exact fun hfind hclosed => exec_stake_allClosed hr hon ((Dev.takeTask_none hheld h.core d hfind).trans (congrArg _ hclosed))

end Sys2Proof.Machine
